-- ==== Sys2Proof/Word.lean ====
section
/-! DEFINITION. The words of the FP-720: bytes of a link message, cycle numbers, scan numbers.

Quantities the manual counts, compares or rounds without wrapping (positions, engineering values, counts) are
`Int` or `Nat`; only what the manual numbers modulo a power of two, or sends as bytes, is a bit vector. -/

namespace Sys2Proof

/-- One byte of a message on a link port (R190). -/
abbrev Byte := BitVec 8

/-- A head-bus cycle number, 0 … 4,294,967,295, counted modulo 2^32 (R26). -/
abbrev Cycle := BitVec 32

/-- A scan number, 0 … 4,294,967,295, counted modulo 2^32 (R118). -/
abbrev ScanNo := BitVec 32

/-- A break number, 0 … 65,535, counted modulo 65,536 (R155). -/
abbrev BreakNo := BitVec 16

end Sys2Proof
end

