-- ==== Sys2Proof/Syntax.lean ====
section
/-! DEFINITION. The commands of the FP-720: one constructor of `Instr` per row of spec/opcode_table.json, in the
table's order, and the types of their operands.

A command is one of the part's indivisible steps: an event on a line or a timer, a record handed between blocks, or
the taking of one request from a link port. -/

namespace Sys2Proof

/-- The three link ports (R188). -/
inductive Port where
  | quality | machine | actuator
deriving DecidableEq, Repr

/-- Directions of the carriage: FWD is increasing position, REV decreasing (00_scope). -/
inductive Dir where
  | fwd | rev
deriving DecidableEq, Repr

/-- The five head-bus channels, in slot order (R25). -/
inductive Channel where
  | edge | beta | irw | cal | temp
deriving DecidableEq, Repr

/-- The four break lines BL0 … BL3. -/
inductive BreakLine where
  | bl0 | bl1 | bl2 | bl3
deriving DecidableEq, Repr

/-- One sample as it arrives in an uplink slot: value, six flags and the parity bit (chapter The Head Bus). -/
structure UplinkWord where
  value  : BitVec 16
  sheet  : Bool
  ack    : Bool
  busy   : Bool
  done   : Bool
  status : Bool
  fault  : Bool
  parity : Bool
deriving DecidableEq, Repr

/-- One character as the receiver sees it (R188, R189): for each of its ten bits (bit 0 the start bit, bits 1 … 8 the
data bits from the least significant, bit 9 the stop bit), sub-samples 7, 8 and 9 of the bit time. -/
structure RxChar where
  sub7 : BitVec 10
  sub8 : BitVec 10
  sub9 : BitVec 10
deriving DecidableEq, Repr

/-- How far one command carries a request. `whole` is the row's indivisible step: the port takes the request and the
owner answers it. R197 and R207 give outcomes for a request that the port has taken (R195) and its owner has not yet
taken; `take` and `answer` are those two halves. Of a row whose owner is the port, `take` is the whole (log entry 6). -/
inductive Stage where
  | whole | take | answer
deriving DecidableEq, Repr

/-- What the CMU takes first, when the MSM sets its park-override source: the override, in the same step, or one more encoder
count and `more` counts after it (R22, R127 give the outcome of either order; log entry 7). -/
inductive OverrideOrder where
  | overrideFirst
  | countsFirst (more : Nat)
deriving DecidableEq, Repr

/-- The commands. -/
inductive Instr where
  /-- R1: power is applied. -/
  | powerOn
  /-- R1: three samples of RST at the active level. -/
  | rstConfirmed
  /-- R1, R188: three samples of RST at the inactive level, with the strap levels sampled at a release. -/
  | rstRelease (rate1 rate0 : Bool)
  /-- R3: one quadrature step in the direction given. -/
  | encoderCount (d : Dir)
  /-- R4: both phases change at once. -/
  | encoderSkip
  /-- R6: the 10 ms repeat of the drive word. -/
  | driveWordRepeat
  /-- R6: the dwell at zero ends. -/
  | dwellEnd
  /-- R7: the stall timer reaches 2 s. -/
  | stallTimeout
  /-- R8: two agreeing DRVFLT samples at the level given. -/
  | drvfltConfirmed (active : Bool)
  /-- R11: two agreeing HOME samples at the level given. -/
  | homeConfirmed (active : Bool)
  /-- R26: a head-bus cycle begins. -/
  | cycleStart
  /-- R28: the slot of a channel is examined; `none` when no sample arrived complete. -/
  | uplinkSample (ch : Channel) (w : Option UplinkWord)
  /-- R32: the slot examination that brings a missing run to 16. -/
  | missingRunLimit (ch : Channel) (w : Option UplinkWord)
  /-- R36: the slot examination that closes an acknowledge window without ACK. -/
  | ackWindowExpiry (ch : Channel) (w : Option UplinkWord)
  /-- R37: the slot examination at the DONE deadline of a head still MEASURING. -/
  | doneDeadline (ch : Channel) (w : Option UplinkWord)
  /-- R38: the slot examination that closes an answer window without STATUS. -/
  | answerWindowExpiry (ch : Channel) (w : Option UplinkWord)
  /-- R34: the end of slot 5. -/
  | cycleRecordFormed
  /-- R108, R128: the PEN takes its oldest measurement record. -/
  | penTakeRecord
  /-- R129: the PEN takes the 2,000th record of a fixed-point period. -/
  | fixedPeriodComplete
  /-- R92, R93: the EBM takes its oldest measurement record. -/
  | ebmWatchRecord
  /-- R93: the EBM takes the record that brings the gap run to 16. -/
  | edgeGapLimit
  /-- R146: the MSM takes its oldest measurement record. -/
  | msmTakeRecord (o : OverrideOrder)
  /-- R147: the MSM takes the record that brings a sheet run to L_s. -/
  | sheetLost (o : OverrideOrder)
  /-- R146: the MSM takes the record that brings the gap of a sheet run to 16. -/
  | sheetRunGapLimit
  /-- R48: the settle timer reaches 2 s. -/
  | settleExpiry
  /-- R56: the due age passes the standardize overdue time. -/
  | overdueExpiry
  /-- R142: three agreeing samples of a break line. -/
  | breakLineConfirmed (l : BreakLine) (high : Bool) (o : OverrideOrder)
  /-- R189: the characters that complete a message whose CRC passes. -/
  | messageReceived (p : Port) (cs : List RxChar)
  /-- R189: the characters that make the message in assembly a bad one. -/
  | badMessage (p : Port) (cs : List RxChar)
  /-- R189: more than 2 character times between two characters of a message. -/
  | intercharTimeout (p : Port)
  /-- R197: the silent timer reaches the silent time. -/
  | portSilent (p : Port)
  /-- R188: the last character of the oldest outbound message has been sent. -/
  | messageSent (p : Port)
  /-- R201: the next chunk of a RUNNING read stream. -/
  | readChunk (p : Port)
  /-- R203: the final chunk of an ENDING read stream. -/
  | supersededChunk (p : Port)
  /-- R195: a message whose KIND is no request kind is taken. -/
  | unknownKind (p : Port)
  /-- Row 1 of the request table. -/
  | identify (p : Port) (g : Stage)
  /-- Row 2. -/
  | readState (p : Port) (g : Stage)
  /-- Row 3. -/
  | readProfile (p : Port) (g : Stage)
  /-- Row 4. -/
  | readSummary (p : Port) (g : Stage)
  /-- Row 5. -/
  | readZones (p : Port) (g : Stage)
  /-- Row 6. -/
  | readFixed (p : Port) (g : Stage)
  /-- Row 7. -/
  | readAlarms (p : Port) (g : Stage)
  /-- Row 8. -/
  | readBreakLog (p : Port) (g : Stage)
  /-- Row 9. -/
  | writeBank (p : Port) (g : Stage)
  /-- Row 10. -/
  | writeCommon (p : Port) (g : Stage)
  /-- Row 11. -/
  | selectGrade (p : Port) (g : Stage)
  /-- Row 12. -/
  | writeZoneMap (p : Port) (g : Stage)
  /-- Row 13. -/
  | claim (p : Port) (g : Stage)
  /-- Row 14. -/
  | release (p : Port) (g : Stage)
  /-- Row 15. -/
  | setPlan (p : Port) (g : Stage)
  /-- Row 16. -/
  | hold (p : Port) (g : Stage)
  /-- Row 17. -/
  | step (p : Port) (g : Stage)
  /-- Row 18. -/
  | resume (p : Port) (g : Stage)
  /-- Row 19. -/
  | standardize (p : Port) (g : Stage)
  /-- Row 20. -/
  | faultClear (p : Port) (g : Stage)
  /-- Row 21. -/
  | speed (p : Port) (g : Stage) (o : OverrideOrder)
  /-- Row 22 naming DOWN. -/
  | declareDown (p : Port) (g : Stage) (o : OverrideOrder)
  /-- Row 22 naming THREADING. -/
  | declareThreading (p : Port) (g : Stage)
  /-- Row 22 naming SHEET ON. -/
  | declareSheetOn (p : Port) (g : Stage)
  /-- Row 22 naming BREAK. -/
  | declareBreak (p : Port) (g : Stage) (o : OverrideOrder)
  /-- Row 23 with action set. -/
  | parkSet (p : Port) (g : Stage)
  /-- Row 23 with action clear. -/
  | parkClear (p : Port) (g : Stage)
  /-- Row 24. -/
  | ackAlarm (p : Port) (g : Stage)
  /-- Row 25. -/
  | setDescriptor (p : Port) (g : Stage)
  /-- Row 26. -/
  | restart (p : Port) (g : Stage)
  /-- Row 27. -/
  | headRestart (p : Port) (g : Stage)
  /-- R189: a character arrives at a port's receiver. -/
  | characterReceived (p : Port) (c : RxChar)
deriving DecidableEq, Repr

end Sys2Proof
end

