-- ==== Sys2Proof/Config.lean ====
section
/-! DEFINITION. What the manual leaves open: constants without a body, so that nothing can be proved of their value.

Each is applied where the manual gives a value's effect and a field for it, and no rule says what stands in the field
once the value has outgrown it or is absent. Log entry 5. -/

namespace Sys2Proof.Config

/-- What the four bytes of a position carry for a position outside the signed 32-bit range (R191): a counter that runs
while the carriage is not homed has no bound in R3. -/
opaque openPosition : Int → BitVec 32

/-- What the four bytes of the due age carry once it has passed 4,294,967,295 s (R192). -/
opaque openDueAge : Nat → BitVec 32

/-- The uncompensated count after one more record once it has reached 4,294,967,295: R109 gives its range and no rule
for its end. -/
opaque openUncompensated : Nat → BitVec 32

/-- A byte of READ STATE that belongs to a bin map or an edge report the EBM does not hold, where R192 gives no code
for the absent field. -/
opaque openAbsentByte : Nat → BitVec 8

/-- The KIND of the reply to a message whose own KIND is 0x80 or more: R195 gives the request's KIND + 0x80, which a byte
does not hold, and no rule says what is sent. -/
opaque openReplyKind : BitVec 8 → BitVec 8

end Sys2Proof.Config
end

