-- ==== Sys2Proof/Machine/Arith.lean ====
section
/-! DEFINITION. The roundings of 00_scope (Arithmetic), over unbounded integers. -/

namespace Sys2Proof.Machine

/-- Round half up of the non-negative quotient `a / b`: `floor((2a + b) / (2b))`. -/
def roundHalfUp (a b : Nat) : Nat := (2 * a + b) / (2 * b)

/-- Round half away from zero of the signed quotient `a / b`: the magnitude is rounded half up, the sign kept. -/
def roundHalfAway (a : Int) (b : Nat) : Int :=
  if a < 0 then -(roundHalfUp a.natAbs b : Int) else (roundHalfUp a.natAbs b : Int)

/-- `ceil(a / b)` of a non-negative quotient. -/
def ceilDiv (a b : Nat) : Nat := (a + b - 1) / b

/-- The bits of a square root, from bit `k - 1` down, each kept when the square still does not exceed `n`. -/
def sqrtBits (n : Nat) : Nat → Nat → Nat
  | 0, r => r
  | k + 1, r => if (r + 2 ^ k) * (r + 2 ^ k) ≤ n then sqrtBits n k (r + 2 ^ k) else sqrtBits n k r

/-- The floored square root, used for the spread (R114). -/
def floorSqrt (n : Nat) : Nat := sqrtBits n (n.log2 / 2 + 1) 0

/-- An integer held to a closed range. -/
def clampInt (lo hi x : Int) : Int := max lo (min hi x)

/-- A count raised by one that stops at `top`. -/
def satInc (top n : Nat) : Nat := min top (n + 1)

end Sys2Proof.Machine
end

