-- ==== Sys2Proof/Machine/Types.lean ====
section
/-! DEFINITION. The records the blocks of the FP-720 hold, one structure per block, with the names of its chapter. -/

namespace Sys2Proof.Machine

/-! ### Tables indexed by port, channel, property or line -/

/-- One entry for each link port. -/
structure PerPort (α : Type) where
  quality  : α
  machine  : α
  actuator : α
deriving DecidableEq, Repr

/-- One entry for each head-bus channel. -/
structure PerChan (α : Type) where
  edge : α
  beta : α
  irw  : α
  cal  : α
  temp : α
deriving DecidableEq, Repr

/-- The channels whose heads measure references (R27). -/
inductive RefChan where
  | beta | irw | cal
deriving DecidableEq, Repr

/-- One entry for each of BETA, IRW and CAL. -/
structure PerRef (α : Type) where
  beta : α
  irw  : α
  cal  : α
deriving DecidableEq, Repr

/-- The four profiled properties (R109). -/
inductive Prop4 where
  | bw | moi | cal | dry
deriving DecidableEq, Repr

/-- One entry for each profiled property. -/
structure PerProp (α : Type) where
  bw  : α
  moi : α
  cal : α
  dry : α
deriving DecidableEq, Repr

/-- One entry for each break line. -/
structure PerLine (α : Type) where
  bl0 : α
  bl1 : α
  bl2 : α
  bl3 : α
deriving DecidableEq, Repr

/-! ### Sampled lines -/

/-- A line sampled every 1 ms: the level of the last sample, how many consecutive samples showed it, and the confirmed
level (`none` while unconfirmed). R1, R8, R11, R142. -/
structure Sampled where
  last      : Option Bool
  run       : Nat
  confirmed : Option Bool
deriving DecidableEq, Repr

/-! ### CMU (01) -/

/-- The thirteen carriage states, in the order of R2's table. -/
inductive CarriageState where
  | unhomed | homing | toPark | parked | toLimit | traverse | turning | held | toFixed | fixed | toStd | atStd | fault
deriving DecidableEq, Repr

inductive FaultCause where
  | none | encoder | stall | drive
deriving DecidableEq, Repr

inductive PlanMode where
  | park | scan | fixed
deriving DecidableEq, Repr

/-- The limit policy of a scan plan: one field with two forms. -/
inductive LimitPolicy where
  | fixedLimits (lf lb : Nat)
  | edgeFollow (m : Nat)
deriving DecidableEq, Repr

/-- The scan plan (chapter The Carriage Token and Scan Plans). -/
structure ScanPlan where
  mode     : PlanMode
  policy   : LimitPolicy
  speed    : Nat
  interval : Nat
  fixedPos : Nat
  resume   : Bool
deriving DecidableEq, Repr

inductive HoldKind where
  | hold | step
deriving DecidableEq, Repr

/-- The points of an armed hold: the boundary point it stops at and the command point before it (R18). -/
structure HoldStop where
  boundary : Int
  command  : Int
deriving DecidableEq, Repr

/-- The hold: none, armed (with points, or with no point, R18), or owed with its kind. -/
inductive Hold where
  | none
  | armed (stop : Option HoldStop)
  | owed (k : HoldKind)
deriving DecidableEq, Repr

/-- How TO_LIMIT approaches its target (R14). -/
inductive Approach where
  | outside | inside
deriving DecidableEq, Repr

/-- The encoder's phase pair, each phase high or not (R3). -/
structure Phase where
  enca : Bool
  encb : Bool
deriving DecidableEq, Repr

/-- The Carriage Motion Unit. `travelTarget`, `travelDir` and `approach` are the target, direction and approach of the
travelling states (R14, R15) and the new direction of TURNING (R17); `overrideWait` is the encoder counts the CMU takes
before it takes a park override that the MSM has raised, 0 when it has taken it (R22, R127; log entry 7). -/
structure Cmu where
  state           : CarriageState
  position        : Int
  phase           : Phase
  homed           : Bool
  direction       : Dir
  plan            : ScanPlan
  limF            : Int
  limB            : Int
  compareTarget   : Option Int
  travelTarget    : Int
  travelDir       : Dir
  approach        : Approach
  skipCount       : Nat
  hold            : Hold
  turnOwed        : Bool
  retraverseOwed  : Bool
  faultCause      : FaultCause
  motionFault     : Bool
  parkSource      : Bool
  overrideWait    : Nat
  drvflt          : Sampled
  home            : Sampled
deriving DecidableEq, Repr

/-- The dwell at zero of R6, with the time since the zero was sent and since the last encoder count. -/
structure Dwell where
  sinceZero  : Nat
  sinceCount : Nat
deriving DecidableEq, Repr

/-- The drive output (R6, R7). `wanted` is the command the carriage state calls for, `out` the command in force, `word`
the 12-bit word the drive last took; times are in units of 500 µs. -/
structure Drive where
  wanted    : Int
  out       : Int
  dwell     : Option Dwell
  stall     : Option Nat
  word      : BitVec 12
  sinceWord : Nat
deriving DecidableEq, Repr

/-! ### HBC (02) -/

inductive HeadState where
  | off | probing | ready | busy | absent
deriving DecidableEq, Repr

inductive AbsentCause where
  | none | missingRun | faultFlag | noAck | noDone | noStatus
deriving DecidableEq, Repr

structure Head where
  state   : HeadState
  good    : Nat
  missing : Nat
  cause   : AbsentCause
deriving DecidableEq, Repr

inductive SeqPhase where
  | awaitingAck | measuring | doneSeen | fetchWaiting | awaitingStatus | finished
deriving DecidableEq, Repr

inductive SeqOutcome where
  | done
  | lost
  | value (v : BitVec 16)
deriving DecidableEq, Repr

/-- One addressed channel of the sequence in flight; `asked` marks a channel the OSQ has asked the HBC to fetch. -/
structure SeqEntry where
  phase      : SeqPhase
  fetchCycle : Option Cycle
  outcome    : Option SeqOutcome
  asked      : Bool
deriving DecidableEq, Repr

/-- The sequence in flight. A channel that is not addressed, or was taken out by a disable, has no entry. `reported`
is set once the REFERENCE phase has been reported complete (R37). -/
structure Sequence where
  refCycle  : Cycle
  abandoned : Bool
  entries   : PerRef (Option SeqEntry)
  reported  : Bool
deriving DecidableEq, Repr

/-- The command in the downlink slot of a cycle (R27). -/
inductive Downlink where
  | idle
  | reset
  | reference (set : PerRef Bool)
  | fetch (ch : RefChan)
deriving DecidableEq, Repr

/-- The position snapshot of a cycle (R26). -/
structure Snapshot where
  position : Int
  state    : CarriageState
  dir      : Dir
deriving DecidableEq, Repr

/-- One channel of a cycle record (R34): the head state its slot left behind, and its sample. -/
structure SlotRecord where
  head   : HeadState
  sample : Option UplinkWord
deriving DecidableEq, Repr

/-- The Head Bus Controller. `slot` is the slot of the cycle in progress last passed (0 the downlink, 1 … 5 the
uplinks, 6 once the cycle record is formed); `record` holds each channel of this cycle's record once its slot has
passed. -/
structure Hbc where
  cycle        : Cycle
  lastRecord   : Cycle
  slot         : Nat
  snapshot     : Snapshot
  record       : PerChan (Option SlotRecord)
  heads        : PerChan Head
  seq          : Option Sequence
  heldRef      : Option (PerRef Bool)
  resetPending : Bool
  mask         : PerChan Bool
  downlink     : Downlink
deriving DecidableEq, Repr

/-! ### OSQ (03) -/

inductive OsqStep where
  | idle | travel | settle | reference | fetch | commit
deriving DecidableEq, Repr

/-- The Offsheet Sequencer. `renewal` is absent, or present with or without a request; times are in units of 500 µs;
`overdue` is set while the OSQ holds STANDARDIZE OVERDUE active (R56). -/
structure Osq where
  step       : OsqStep
  due        : Bool
  requested  : Bool
  renewal    : Option Bool
  scanCount  : Nat
  dueAge     : Nat
  settle     : Option Nat
  candidates : PerRef (Option (BitVec 16))
  overdue    : Bool
deriving DecidableEq, Repr

/-! ### SCV (04) -/

inductive ValStatus where
  | valid | lowClamp | highClamp
deriving DecidableEq, Repr

/-- A present property of a measurement record: a value with its status (R60). -/
structure Val where
  value  : Nat
  status : ValStatus
deriving DecidableEq, Repr

/-- The cycle record (R34). -/
structure CycleRecord where
  cycle : Cycle
  snap  : Snapshot
  chans : PerChan SlotRecord
deriving DecidableEq, Repr

/-- The measurement record (R60). -/
structure MRecord where
  cycle  : Cycle
  snap   : Snapshot
  sheet  : Option Bool
  temp   : Option Int
  bw     : Option Val
  w      : Option Val
  moi    : Option Val
  cal    : Option Val
  dry    : Option Val
  uncomp : Bool
deriving DecidableEq, Repr

/-- The Sample Converter: its reference table, and the measurement records it has handed to the PEN, the EBM and the
MSM that each has still to take (R59), oldest first. -/
structure Scv where
  refs  : PerRef (Option (BitVec 16))
  toPen : List MRecord
  toEbm : List MRecord
  toMsm : List MRecord
deriving DecidableEq, Repr

/-! ### RBS (05) -/

/-- A grade bank, 1 … 7, as `0 … 6`. -/
abbrev BankNo := Fin 7

/-- The common bank (R77). Polarity is set for sheet-present low. -/
structure CommonBank where
  pMax        : Nat
  parkPos     : Nat
  stdPos      : Nat
  homeSpeed   : Nat
  maxSpeed    : Nat
  crawl       : Nat
  mask        : PerChan Bool
  drift       : PerRef Nat
  levels      : Vector Nat 30
  ceiling     : Nat
  silentTime  : Nat
  overdueTime : Nat
  lineEnable  : PerLine Bool
  lineLow     : PerLine Bool
  sheetLost   : Nat
deriving DecidableEq, Repr

/-- One breakpoint of a calibration table (R65). -/
structure Breakpoint where
  x : Nat
  y : Nat
deriving DecidableEq, Repr

/-- Alarm limits of one property (R81). -/
structure Limits where
  high   : Nat
  low    : Nat
  spread : Nat
deriving DecidableEq, Repr

/-- A grade bank (R81). -/
structure GradeBank where
  width      : Nat
  n          : Nat
  guard      : Nat
  tolerance  : Nat
  minSamples : Nat
  weight     : Nat
  betaTable  : List Breakpoint
  irwTable   : List Breakpoint
  gain       : Nat
  kT         : Int
  tRef       : Int
  limits     : PerProp Limits
  settle     : Nat
deriving DecidableEq, Repr

/-- The Recipe Bank Store. A bank that is not loaded has no fields. -/
structure Rbs where
  common  : CommonBank
  banks   : Vector (Option GradeBank) 7
  active  : Option BankNo
  pending : Option (BankNo × Port)
  settle  : Nat
deriving DecidableEq, Repr

/-! ### EBM (06) -/

inductive MapCause where
  | none | noBank | edgeUnset | narrow
deriving DecidableEq, Repr

/-- A bin map record (R100); it is valid exactly when its cause is none. -/
structure BinMap where
  n     : Option Nat
  g     : Option Nat
  ef    : Option Int
  eb    : Option Int
  start : Option Int
  stop  : Option Int
  span  : Option Int
  valid : Bool
  cause : MapCause
deriving DecidableEq, Repr

inductive SideOutcome where
  | none | accepted | jump
deriving DecidableEq, Repr

/-- The edge report of a completed traverse (R98). -/
structure EdgeReport where
  dir          : Dir
  front        : Option Int
  back         : Option Int
  frontCovered : Bool
  backCovered  : Bool
  interior     : Nat
  frontOutcome : SideOutcome
  backOutcome  : SideOutcome
deriving DecidableEq, Repr

/-- The edge watch of one traverse (R91). `previous` is none, or the previous reading; `anyReading` is set once the
traverse has had its first reading. -/
structure EdgeWatch where
  opened       : Bool
  dir          : Dir
  previous     : Option Bool
  anyReading   : Bool
  gap          : Nat
  leading      : Option Int
  trailing     : Option Int
  interior     : Nat
  coveredStart : Bool
  coveredEnd   : Bool
deriving DecidableEq, Repr

/-- The Edge and Bin Mapper. -/
structure Ebm where
  watch     : EdgeWatch
  ef        : Option Int
  eb        : Option Int
  jumpF     : Nat
  jumpB     : Nat
  map       : Option BinMap
  report    : Option EdgeReport
deriving DecidableEq, Repr

/-! ### PEN (07) -/

/-- The accumulator of one property in one bin (R109). -/
structure Acc where
  sum   : Nat
  count : Nat
  clamp : Nat
deriving DecidableEq, Repr

/-- The traverse context (R107). -/
structure TraverseCtx where
  startCycle : Cycle
  dir        : Dir
  retraverse : Bool
  bank       : Option BankNo
  refs       : PerRef (Option (BitVec 16))
  map        : BinMap
deriving DecidableEq, Repr

/-- The accumulation window while OPEN: the context, the accumulators and the uncompensated count. -/
structure Window where
  ctx    : TraverseCtx
  accs   : PerProp (List Acc)
  uncomp : Nat
deriving DecidableEq, Repr

/-- One bin of the carry record (R111). -/
structure CarryBin where
  value : Option Nat
  age   : Nat
deriving DecidableEq, Repr

structure Carry where
  n    : Option Nat
  bins : PerProp (List CarryBin)
deriving DecidableEq, Repr

inductive BinStatus where
  | valid | held | invalid
deriving DecidableEq, Repr

/-- One finalized bin (R112). -/
structure BinOut where
  status : BinStatus
  value  : Option Nat
  clamp  : Nat
deriving DecidableEq, Repr

/-- The statistics of one property of a generation (R113 … R115). -/
structure PropStats where
  avg    : Option Nat
  spread : Option Nat
  nValid : Nat
  poor   : Bool
  frozen : Bool
deriving DecidableEq, Repr

/-- A filtered profile of one property with its average: each bin SEEDED with a value, or UNSEEDED. -/
structure FilterCopy where
  avg  : Option Nat
  bins : List (Option Nat)
deriving DecidableEq, Repr

/-- The four machine states (09). -/
inductive MachineState where
  | down | brk | thread | run
deriving DecidableEq, Repr

/-- A generation (R116). -/
structure Generation where
  scan       : ScanNo
  dir        : Dir
  startCycle : Cycle
  endCycle   : Cycle
  machine    : MachineState
  bank       : Option BankNo
  refs       : PerRef (Option (BitVec 16))
  map        : BinMap
  retraverse : Bool
  uncomp     : Nat
  stats      : PerProp PropStats
  bins       : PerProp (List BinOut)
  filter     : Option (PerProp FilterCopy)
deriving DecidableEq, Repr

/-- The filtered profile: N_F and, per property, the bins (R123). -/
structure Filter where
  n    : Option Nat
  bins : PerProp (List (Option Nat))
deriving DecidableEq, Repr

/-- Sum and count of one property in the fixed-point period (R128). -/
structure FixedAcc where
  sum   : Nat
  count : Nat
deriving DecidableEq, Repr

/-- An OPEN fixed-point period. -/
structure FixedPeriod where
  records : Nat
  accs    : PerProp FixedAcc
deriving DecidableEq, Repr

/-- The fixed-point record (R129). -/
structure FixedRecord where
  position : Int
  cycle    : Cycle
  avgs     : PerProp (Option Nat)
deriving DecidableEq, Repr

/-- The Profile Engine. `window` is present while OPEN; `pins` are by scan number. -/
structure Pen where
  window    : Option Window
  carry     : Carry
  slots     : Vector (Option Generation) 3
  pins      : PerPort (Option ScanNo)
  counter   : ScanNo
  lastScan  : Option ScanNo
  filter    : Filter
  period    : Option FixedPeriod
  fixedRec  : Option FixedRecord
deriving DecidableEq, Repr

/-! ### AZM (08) -/

/-- The span `[a, b)` of a zone, in 1/65,536 of the binned width (R131). -/
structure Zone where
  a : Nat
  b : Nat
deriving DecidableEq, Repr

structure ZoneMap where
  prop  : Prop4
  zones : List Zone
deriving DecidableEq, Repr

/-- A zone output: NONE, or VALID or HELD with a value. -/
inductive ZoneOut where
  | none
  | valid (v : Int)
  | held (v : Int)
deriving DecidableEq, Repr

/-- A zone map record being written in parts (R132). -/
structure Assembly where
  prop  : Prop4
  count : Nat
  spans : List Zone
deriving DecidableEq, Repr

/-- What the AZM holds for one of map A and map B. -/
structure ZoneSide where
  active   : Option ZoneMap
  staged   : Option ZoneMap
  outs     : List ZoneOut
  lastScan : Option ScanNo
  frozen   : Bool
  assembly : Option Assembly
deriving DecidableEq, Repr

inductive MapName where
  | a | b
deriving DecidableEq, Repr

/-- The Actuator Zone Mapper. -/
structure Azm where
  a : ZoneSide
  b : ZoneSide
deriving DecidableEq, Repr

/-! ### MSM (09) -/

/-- The reading of a break line (R143). -/
inductive Reading where
  | none | present | absent
deriving DecidableEq, Repr

/-- The kind of a break cause (R155). -/
inductive CauseKind where
  | line (l : BreakLine)
  | sheetLost
  | declare
deriving DecidableEq, Repr

structure FirstOut where
  kind     : CauseKind
  position : Int
  scan     : ScanNo
  cycle    : Cycle
deriving DecidableEq, Repr

structure LaterCause where
  kind     : CauseKind
  position : Int
  cycle    : Cycle
deriving DecidableEq, Repr

/-- A break record (R155). -/
structure BreakRecord where
  number   : BreakNo
  first    : FirstOut
  later    : List LaterCause
  overflow : Nat
  threadAt : Option Cycle
  runAt    : Option ScanNo
  ackedBy  : Option Port
  isOpen   : Bool
deriving DecidableEq, Repr

/-- A sheet run in progress (R146). -/
structure SheetRun where
  start  : Int
  length : Nat
  gap    : Nat
  spent  : Bool
deriving DecidableEq, Repr

/-- The Machine State Monitor; `log` is newest first. -/
structure Msm where
  state       : MachineState
  lines       : PerLine Sampled
  speed       : Nat
  source      : Bool
  run         : Option SheetRun
  holeSeen    : Bool
  widthPasses : Nat
  log         : List BreakRecord
  nextBreak   : BreakNo
deriving DecidableEq, Repr

/-- The cause a STATE notice names (R154). -/
inductive StateCause where
  | speed | declare
  | line (l : BreakLine)
  | sheetLost | linesPresent | widthTest | crawlChange
deriving DecidableEq, Repr

/-! ### ALT (10) -/

inductive PointState where
  | normal | activeUnack | activeAck | returnUnack
deriving DecidableEq, Repr

/-- An alarm point, by its index (R161). -/
abbrev PointNo := Fin 30

/-- The state of one alarm point. Its kind and its consequential flag are the catalogue's, its level the common
bank's. -/
structure AlarmPoint where
  state       : PointState
  annunciated : Bool
  suppressed  : Bool
  count       : Nat
  lastCycle   : Option Cycle
deriving DecidableEq, Repr

/-- The Alarm Table; `order` lists the ACTIVE-UNACK points in entry order. -/
structure Alt where
  points : Vector AlarmPoint 30
  floor  : Nat
  order  : List PointNo
deriving DecidableEq, Repr

/-! ### CTA (11) -/

/-- The Carriage Token Arbiter; `waiting` has its head first. -/
structure Cta where
  holder  : Option Port
  waiting : List Port
  pending : Option ScanPlan
deriving DecidableEq, Repr

/-! ### Link ports (12) -/

/-- The admission classes of R196. -/
inductive MsgClass where
  | reply | chunk | push | notice
deriving DecidableEq, Repr

/-- An outbound message; SYNC, LEN and CRC are those of `frame`. -/
structure OutMsg where
  cls     : MsgClass
  kind    : Byte
  tag     : Byte
  payload : List Byte
deriving DecidableEq, Repr

/-- A valid inbound message. -/
structure InMsg where
  kind    : Byte
  tag     : Byte
  payload : List Byte
deriving DecidableEq, Repr

/-- The receiver: hunting, or assembling the bytes after SYNC with the noise events so far. -/
inductive Receiver where
  | hunting
  | assembling (bytes : List Byte) (noise : Nat)
deriving DecidableEq, Repr

/-- A request taken by the port and not yet by its owner. `cancelled` is set when the port has become SILENT since. -/
structure Handling where
  msg       : InMsg
  reserved  : Nat
  cancelled : Bool
deriving DecidableEq, Repr

/-- The five forms of a profile (R122). -/
inductive Form where
  | raw | deviation | filtered | filteredDeviation | status
deriving DecidableEq, Repr

inductive Encoding where
  | wide | narrow | coarse
deriving DecidableEq, Repr

/-- The stream record of a read stream. -/
structure Stream where
  tag      : Byte
  scan     : ScanNo
  prop     : Prop4
  form     : Form
  enc      : Encoding
  shift    : Nat
  nextBin  : Nat
  lastBin  : Nat
deriving DecidableEq, Repr

inductive StreamState where
  | idle
  | running (r : Stream)
  | ending (r : Stream)
deriving DecidableEq, Repr

inductive DescForm where
  | summary | zoneA | zoneB | profile
deriving DecidableEq, Repr

/-- A push descriptor (R204). -/
structure Descriptor where
  active    : Bool
  form      : DescForm
  prop      : Prop4
  pform     : Form
  enc       : Encoding
  shift     : Nat
  first     : Nat
  last      : Nat
  remaining : Nat
  missed    : Nat
deriving DecidableEq, Repr

/-- One link port; `silent` is the port state SILENT, `silentTimer` its timer in units of 500 µs. -/
structure PortState where
  receiver    : Receiver
  inbound     : List InMsg
  handling    : Option Handling
  outbound    : List OutMsg
  silent      : Bool
  silentTimer : Nat
  stream      : StreamState
  descriptors : Vector Descriptor 4
  noise       : Nat
  bad         : Nat
  overruns    : Nat
  lost        : Nat
deriving DecidableEq, Repr

/-- The link rate by the straps (R188). -/
inductive Rate where
  | r115200 | r230400 | r460800 | r921600
deriving DecidableEq, Repr

end Sys2Proof.Machine
end

