-- ==== Sys2Proof/Machine/Index.lean ====
section
/-! DEFINITION. Reading, writing and mapping the tables indexed by port, channel, property or line. -/

namespace Sys2Proof.Machine

variable {α β : Type}

def PerPort.get (t : PerPort α) : Port → α
  | .quality => t.quality
  | .machine => t.machine
  | .actuator => t.actuator

def PerPort.set (t : PerPort α) (p : Port) (x : α) : PerPort α :=
  match p with
  | .quality => { t with quality := x }
  | .machine => { t with machine := x }
  | .actuator => { t with actuator := x }

def PerPort.map (f : α → β) (t : PerPort α) : PerPort β := ⟨f t.quality, f t.machine, f t.actuator⟩

def PerChan.get (t : PerChan α) : Channel → α
  | .edge => t.edge
  | .beta => t.beta
  | .irw => t.irw
  | .cal => t.cal
  | .temp => t.temp

def PerChan.set (t : PerChan α) (c : Channel) (x : α) : PerChan α :=
  match c with
  | .edge => { t with edge := x }
  | .beta => { t with beta := x }
  | .irw => { t with irw := x }
  | .cal => { t with cal := x }
  | .temp => { t with temp := x }

def PerRef.get (t : PerRef α) : RefChan → α
  | .beta => t.beta
  | .irw => t.irw
  | .cal => t.cal

def PerRef.set (t : PerRef α) (c : RefChan) (x : α) : PerRef α :=
  match c with
  | .beta => { t with beta := x }
  | .irw => { t with irw := x }
  | .cal => { t with cal := x }

def PerRef.map (f : α → β) (t : PerRef α) : PerRef β := ⟨f t.beta, f t.irw, f t.cal⟩

def PerRef.all (f : α → Bool) (t : PerRef α) : Bool := f t.beta && f t.irw && f t.cal

def PerRef.any (f : α → Bool) (t : PerRef α) : Bool := f t.beta || f t.irw || f t.cal

def PerProp.get (t : PerProp α) : Prop4 → α
  | .bw => t.bw
  | .moi => t.moi
  | .cal => t.cal
  | .dry => t.dry

def PerProp.map (f : α → β) (t : PerProp α) : PerProp β := ⟨f t.bw, f t.moi, f t.cal, f t.dry⟩

def PerProp.map2 {γ : Type} (f : α → β → γ) (t : PerProp α) (u : PerProp β) : PerProp γ :=
  ⟨f t.bw u.bw, f t.moi u.moi, f t.cal u.cal, f t.dry u.dry⟩

def PerProp.const (x : α) : PerProp α := ⟨x, x, x, x⟩

def PerLine.get (t : PerLine α) : BreakLine → α
  | .bl0 => t.bl0
  | .bl1 => t.bl1
  | .bl2 => t.bl2
  | .bl3 => t.bl3

def PerLine.set (t : PerLine α) (l : BreakLine) (x : α) : PerLine α :=
  match l with
  | .bl0 => { t with bl0 := x }
  | .bl1 => { t with bl1 := x }
  | .bl2 => { t with bl2 := x }
  | .bl3 => { t with bl3 := x }

/-- The channels in slot order (R25). -/
def allChannels : List Channel := [.edge, .beta, .irw, .cal, .temp]

/-- The reference channels in slot order (R38). -/
def allRefChans : List RefChan := [.beta, .irw, .cal]

def allPorts : List Port := [.quality, .machine, .actuator]

def allProps : List Prop4 := [.bw, .moi, .cal, .dry]

def allLines : List BreakLine := [.bl0, .bl1, .bl2, .bl3]

/-- The uplink slot of a channel, 1 … 5 (R25). -/
def slotOf : Channel → Nat
  | .edge => 1
  | .beta => 2
  | .irw => 3
  | .cal => 4
  | .temp => 5

/-- The head-bus channel of a reference channel. -/
def RefChan.chan : RefChan → Channel
  | .beta => .beta
  | .irw => .irw
  | .cal => .cal

/-- The reference channel of a head-bus channel, if it has one. -/
def refChanOf : Channel → Option RefChan
  | .beta => some .beta
  | .irw => some .irw
  | .cal => some .cal
  | .edge => none
  | .temp => none

/-- The other direction. -/
def dirOpp : Dir → Dir
  | .fwd => .rev
  | .rev => .fwd

/-- The sign of a direction: FWD is positive (R6). -/
def dirSign : Dir → Int
  | .fwd => 1
  | .rev => -1

/-- Port codes of R191. -/
def portCode : Port → Nat
  | .quality => 0
  | .machine => 1
  | .actuator => 2

def lineIndex : BreakLine → Nat
  | .bl0 => 0
  | .bl1 => 1
  | .bl2 => 2
  | .bl3 => 3

end Sys2Proof.Machine
end

