-- ==== Sys2Proof/Machine/PowerOn.lean ====
section
/-! DEFINITION. The power-on value of every block, from the restart table at the end of its chapter.

A value that table does not give is named with its log entry. -/

namespace Sys2Proof.Machine

/-- A line not yet sampled: unconfirmed (R8, R11, R142). -/
def unsampled : Sampled := ⟨none, 0, none⟩

/-- The power-on scan plan (R24, chapter The Carriage Token and Scan Plans). -/
def planPowerOn : ScanPlan := ⟨.park, .fixedLimits 4000 106000, 300, 20, 55000, true⟩

/-- R24. The travel target, direction and approach, and the encoder's phase pair, are log entry 3. -/
def cmuPowerOn : Cmu where
  state := .unhomed
  position := 0
  phase := ⟨false, false⟩
  homed := false
  direction := .fwd
  plan := planPowerOn
  limF := 4000
  limB := 106000
  compareTarget := none
  travelTarget := 0
  travelDir := .fwd
  approach := .outside
  skipCount := 0
  hold := .none
  turnOwed := false
  retraverseOwed := false
  faultCause := .none
  motionFault := false
  parkSource := false
  overrideWait := 0
  drvflt := unsampled
  home := unsampled

/-- R6, R24: the drive command is zero, no dwell, the stall timer stopped. -/
def drivePowerOn : Drive := ⟨0, 0, none, none, 0, 0⟩

def headOff : Head := ⟨.off, 0, 0, .none⟩

def headProbing : Head := ⟨.probing, 0, 0, .none⟩

/-- All five channels enabled (R77). -/
def maskAll : PerChan Bool := ⟨true, true, true, true, true⟩

/-- R43: heads PROBING, RESET pending. No cycle has begun: the cycle number before the first, its snapshot and the
number of the last record formed are log entry 3. -/
def hbcPowerOn : Hbc where
  cycle := 0
  lastRecord := 0
  slot := 6
  snapshot := ⟨0, .unhomed, .fwd⟩
  record := ⟨none, none, none, none, none⟩
  heads := ⟨headProbing, headProbing, headProbing, headProbing, headProbing⟩
  seq := none
  heldRef := none
  resetPending := true
  mask := maskAll
  downlink := .idle

/-- R58. The due flag is set at the release (R45), not before it. -/
def osqPowerOn : Osq := ⟨.idle, false, false, none, 0, 0, none, ⟨none, none, none⟩, false⟩

/-- R57, R76: every reference unset, no record in progress. -/
def scvPowerOn : Scv := ⟨⟨none, none, none⟩, [], [], []⟩

/-- The catalogue levels of the 30 alarm points (R77, R161). -/
def catalogueLevels : Vector Nat 30 :=
  #v[0, 2, 2, 2, 2, 2, 3, 3, 3, 4, 4, 4, 4, 4, 4, 4, 4, 5, 5, 5, 5, 5, 5, 1, 4, 3, 3, 3, 5, 6]

/-- The power-on values of R77. -/
def commonPowerOn : CommonBank where
  pMax := 110000
  parkPos := 800
  stdPos := 2500
  homeSpeed := 50
  maxSpeed := 600
  crawl := 50
  mask := maskAll
  drift := ⟨20, 20, 20⟩
  levels := catalogueLevels
  ceiling := 8
  silentTime := 10
  overdueTime := 30
  lineEnable := ⟨false, false, false, false⟩
  lineLow := ⟨false, false, false, false⟩
  sheetLost := 1000

/-- R90. -/
def rbsPowerOn : Rbs := ⟨commonPowerOn, Vector.replicate 7 none, none, none, 0⟩

/-- R106: a closed watch that holds nothing. Its direction FWD is log entry 3. -/
def watchClosed : EdgeWatch := ⟨false, .fwd, none, false, 0, none, none, 0, false, false⟩

/-- R106. -/
def ebmPowerOn : Ebm := ⟨watchClosed, none, none, 0, 0, none, none⟩

def carryEmpty : Carry := ⟨none, ⟨[], [], [], []⟩⟩

/-- R130. -/
def penPowerOn : Pen where
  window := none
  carry := carryEmpty
  slots := #v[none, none, none]
  pins := ⟨none, none, none⟩
  counter := 1
  lastScan := none
  filter := ⟨none, ⟨[], [], [], []⟩⟩
  period := none
  fixedRec := none

def zoneSideEmpty : ZoneSide := ⟨none, none, [], none, false, none⟩

/-- R141. -/
def azmPowerOn : Azm := ⟨zoneSideEmpty, zoneSideEmpty⟩

/-- R160: DOWN, with the park-override source set. -/
def msmPowerOn : Msm where
  state := .down
  lines := ⟨unsampled, unsampled, unsampled, unsampled⟩
  speed := 0
  source := true
  run := none
  holeSeen := false
  widthPasses := 0
  log := []
  nextBreak := 1

def pointNormal : AlarmPoint := ⟨.normal, false, false, 0, none⟩

/-- R175: every point NORMAL, F equal to C. -/
def altPowerOn : Alt := ⟨Vector.replicate 30 pointNormal, 8, []⟩

/-- R187. -/
def ctaPowerOn : Cta := ⟨none, [], none⟩

/-- An inactive descriptor; its other fields are log entry 3. -/
def descriptorIdle : Descriptor := ⟨false, .summary, .bw, .raw, .wide, 0, 0, 0, 0, 0⟩

/-- R208. -/
def portPowerOn : PortState where
  receiver := .hunting
  inbound := []
  handling := none
  outbound := []
  silent := false
  silentTimer := 0
  stream := .idle
  descriptors := Vector.replicate 4 descriptorIdle
  noise := 0
  bad := 0
  overruns := 0
  lost := 0

end Sys2Proof.Machine
end

