-- ==== Sys2Proof/Machine/State.lean ====
section
/-! DEFINITION. The state of the FP-720, as plain data, and the state right after a power-on reset. -/

namespace Sys2Proof.Machine

/-- Every reason a step can stop with a fault: none. The part stops for nothing; its errors are replies, alarm points
and the carriage state FAULT, all of which are next states. -/
inductive Fault where
deriving DecidableEq, Repr

/-- Every reason a step can be refused. -/
inductive Refusal where
  /-- Raised by `exec` alone, for a command that has no meaning in the model; safe. No arm raises it. -/
  | notModelled (mnemonic : String)
deriving DecidableEq, Repr

/-- The state of the part: one record per block, the reset line and the power-on hold (R1), the link rate (R188), and
the queue of waiting commands, first in, first out. -/
structure State where
  held    : Bool
  rst     : Sampled
  rate    : Rate
  cmu     : Cmu
  drive   : Drive
  hbc     : Hbc
  osq     : Osq
  scv     : Scv
  rbs     : Rbs
  ebm     : Ebm
  pen     : Pen
  azm     : Azm
  msm     : Msm
  alt     : Alt
  cta     : Cta
  ports   : PerPort PortState
  pending : List Instr
deriving DecidableEq, Repr

/-- The part held in a power-on reset (R1): every block at its power-on value. The rate the ports run at before a
release samples the straps is log entry 3. -/
def State.reset : State where
  held := true
  rst := unsampled
  rate := .r115200
  cmu := cmuPowerOn
  drive := drivePowerOn
  hbc := hbcPowerOn
  osq := osqPowerOn
  scv := scvPowerOn
  rbs := rbsPowerOn
  ebm := ebmPowerOn
  pen := penPowerOn
  azm := azmPowerOn
  msm := msmPowerOn
  alt := altPowerOn
  cta := ctaPowerOn
  ports := ⟨portPowerOn, portPowerOn, portPowerOn⟩
  pending := []

end Sys2Proof.Machine
end

