-- ==== Sys2Proof/Machine/Catalogue.lean ====
section
/-! DEFINITION. The alarm catalogue (R161), the codes the messages carry (R190 … R193), and small readings of the state
that several blocks use: the level of a point, the reading of a line, whether park override is active. -/

namespace Sys2Proof.Machine

/-! ### Alarm points -/

def ptBreak : PointNo := 0

/-- HEAD ABSENT of a channel: points 1 … 5 (R33). -/
def ptHeadAbsent : Channel → PointNo
  | .edge => 1
  | .beta => 2
  | .irw => 3
  | .cal => 4
  | .temp => 5

/-- STD DRIFT of a channel: points 6 … 8 (R51). -/
def ptStdDrift : RefChan → PointNo
  | .beta => 6
  | .irw => 7
  | .cal => 8

def ptHigh : Prop4 → PointNo
  | .bw => 9
  | .moi => 11
  | .cal => 13
  | .dry => 15

def ptLow : Prop4 → PointNo
  | .bw => 10
  | .moi => 12
  | .cal => 14
  | .dry => 16

def ptSpread : Prop4 → PointNo
  | .bw => 17
  | .moi => 18
  | .cal => 19
  | .dry => 20

def ptEdgeJumpFront : PointNo := 21
def ptEdgeJumpBack : PointNo := 22
def ptMotionFault : PointNo := 23
def ptHole : PointNo := 24

def ptPortSilent : Port → PointNo
  | .quality => 25
  | .machine => 26
  | .actuator => 27

def ptNarrowMap : PointNo := 28
def ptOverdue : PointNo := 29

/-- The limit and spread points 9 … 20, returned at a grade application (R87). -/
def limitPoints : List PointNo := [9, 10, 11, 12, 13, 14, 15, 16, 17, 18, 19, 20]

/-- The consequential points of the catalogue (R161). -/
def consequential (i : PointNo) : Bool :=
  (1 ≤ i.val && i.val ≤ 5) || (9 ≤ i.val && i.val ≤ 22) || i.val == 24 || i.val == 28

/-- The kind code of a point (R190). -/
def pointKind (i : PointNo) : Nat :=
  if i.val = 0 then 0
  else if i.val ≤ 5 then 1
  else if i.val ≤ 8 then 2
  else if i.val ≤ 16 then (if i.val % 2 = 1 then 3 else 4)
  else if i.val ≤ 20 then 5
  else if i.val ≤ 22 then 6
  else if i.val = 23 then 7
  else if i.val = 24 then 8
  else if i.val ≤ 27 then 9
  else if i.val = 28 then 10
  else 11

/-- The level of a point: the common bank's (R161). -/
def levelOf (levels : Vector Nat 30) (i : PointNo) : Nat := levels[i]

/-! ### Readings of the state -/

/-- R143: the reading of a break line. -/
def lineReading (b : CommonBank) (m : Msm) (l : BreakLine) : Reading :=
  if b.lineEnable.get l then
    match (m.lines.get l).confirmed with
    | none => .none
    | some high => if high = b.lineLow.get l then .absent else .present
  else .none

/-- R20: park override is active while any of its three sources is set. -/
def State.override (s : State) : Bool := s.msm.source || s.cmu.parkSource || s.cmu.motionFault

/-- R22, R127: the MSM has raised a park override that the CMU has not yet taken. -/
def Cmu.overrideUntaken (c : Cmu) : Bool := c.overrideWait != 0

/-- R22, R127: park override is active and the CMU has taken it. -/
def State.overrideTaken (s : State) : Bool := s.override && !s.cmu.overrideUntaken

/-- R16, R19: a traverse is in progress in TRAVERSE, and in HELD while no turnaround is owed. -/
def Cmu.inTraverse (c : Cmu) : Bool := c.state == .traverse || (c.state == .held && !c.turnOwed)

/-- The active grade bank's fields, if a bank is active (R83). -/
def Rbs.activeBank (r : Rbs) : Option GradeBank := r.active.bind (fun k => r.banks[k])

/-- v_s: the smaller of the active plan's speed and the maximum scan speed (R2). -/
def State.scanSpeed (s : State) : Nat := min s.cmu.plan.speed s.rbs.common.maxSpeed

/-! ### Codes (R190 … R193) -/

def dirCode : Dir → Nat
  | .fwd => 0
  | .rev => 1

def machineCode : MachineState → Nat
  | .down => 0
  | .brk => 1
  | .thread => 2
  | .run => 3

def propCode : Prop4 → Nat
  | .bw => 0
  | .moi => 1
  | .cal => 2
  | .dry => 3

def formCode : Form → Nat
  | .raw => 0
  | .deviation => 1
  | .filtered => 2
  | .filteredDeviation => 3
  | .status => 4

def encCode : Encoding → Nat
  | .wide => 0
  | .narrow => 1
  | .coarse => 2

def mapCode : MapName → Nat
  | .a => 0
  | .b => 1

def pointStateCode : PointState → Nat
  | .normal => 0
  | .activeUnack => 1
  | .activeAck => 2
  | .returnUnack => 3

def carriageCode : CarriageState → Nat
  | .unhomed => 0
  | .homing => 1
  | .toPark => 2
  | .parked => 3
  | .toLimit => 4
  | .traverse => 5
  | .turning => 6
  | .held => 7
  | .toFixed => 8
  | .fixed => 9
  | .toStd => 10
  | .atStd => 11
  | .fault => 12

def faultCode : FaultCause → Nat
  | .none => 0
  | .encoder => 1
  | .stall => 2
  | .drive => 3

def headCode : HeadState → Nat
  | .off => 0
  | .probing => 1
  | .ready => 2
  | .busy => 3
  | .absent => 4

def absentCode : AbsentCause → Nat
  | .none => 0
  | .missingRun => 1
  | .faultFlag => 2
  | .noAck => 3
  | .noDone => 4
  | .noStatus => 5

def osqCode : OsqStep → Nat
  | .idle => 0
  | .travel => 1
  | .settle => 2
  | .reference => 3
  | .fetch => 4
  | .commit => 5

def mapCauseCode : MapCause → Nat
  | .none => 0
  | .noBank => 1
  | .edgeUnset => 2
  | .narrow => 3

def outcomeCode : SideOutcome → Nat
  | .none => 0
  | .accepted => 1
  | .jump => 2

def readingCode : Reading → Nat
  | .none => 0
  | .present => 1
  | .absent => 2

def causeKindCode : CauseKind → Nat
  | .line l => lineIndex l
  | .sheetLost => 4
  | .declare => 5

def stateCauseCode : StateCause → Nat
  | .speed => 0
  | .declare => 1
  | .line l => 2 + lineIndex l
  | .sheetLost => 6
  | .linesPresent => 7
  | .widthTest => 8
  | .crawlChange => 9

def planModeCode : PlanMode → Nat
  | .park => 0
  | .scan => 1
  | .fixed => 2

def holderCode : Option Port → Nat
  | none => 3
  | some p => portCode p

def absentPortCode : Option Port → Nat
  | none => 0xFF
  | some p => portCode p

def bankCode : Option BankNo → Nat
  | none => 0
  | some k => k.val + 1

def binStatusCode : BinStatus → Nat
  | .valid => 0
  | .held => 1
  | .invalid => 2

def zoneStatusCode : ZoneOut → Nat
  | .none => 0
  | .valid _ => 1
  | .held _ => 2

/-! ### Result codes (R190) -/

def rcOk : Byte := 0x00
def rcDeferred : Byte := 0x01
def rcClamped : Byte := 0x02
def rcNotPermitted : Byte := 0x10
def rcNoToken : Byte := 0x11
def rcBadField : Byte := 0x12
def rcBankInUse : Byte := 0x13
def rcBusy : Byte := 0x14
def rcWrongState : Byte := 0x15
def rcNotUnacked : Byte := 0x16
def rcNoSuch : Byte := 0x17
def rcUnknownKind : Byte := 0x18

end Sys2Proof.Machine
end

