-- ==== Sys2Proof/WellFormed.lean ====
section
/-! DEFINITION. Which commands are well formed: the operands that the operand types alone do not bound. -/

namespace Sys2Proof

/-- The most characters one message has: LEN of at most 250 and six more (R190). -/
def maxMessageChars : Nat := 256

/-- A run of characters given to MESSAGE_RECEIVED or BAD_MESSAGE: at least one, at most one message. -/
def charsOk (cs : List RxChar) : Bool := !cs.isEmpty && cs.length ≤ maxMessageChars

/-- A command is well formed when the character runs it carries are. Every other operand is bounded by its type. -/
def Instr.wellFormed : Instr → Bool
  | .messageReceived _ cs => charsOk cs
  | .badMessage _ cs => charsOk cs
  | .powerOn | .rstConfirmed | .rstRelease _ _ | .encoderCount _ | .encoderSkip | .driveWordRepeat | .dwellEnd
  | .stallTimeout | .drvfltConfirmed _ | .homeConfirmed _ | .cycleStart | .uplinkSample _ _ | .missingRunLimit _ _
  | .ackWindowExpiry _ _ | .doneDeadline _ _ | .answerWindowExpiry _ _ | .cycleRecordFormed | .penTakeRecord
  | .fixedPeriodComplete | .ebmWatchRecord | .edgeGapLimit | .msmTakeRecord _ | .sheetLost _ | .sheetRunGapLimit
  | .settleExpiry | .overdueExpiry | .breakLineConfirmed _ _ _ | .intercharTimeout _ | .portSilent _ | .messageSent _
  | .readChunk _ | .supersededChunk _ | .unknownKind _ | .identify _ _ | .readState _ _ | .readProfile _ _
  | .readSummary _ _ | .readZones _ _ | .readFixed _ _ | .readAlarms _ _ | .readBreakLog _ _ | .writeBank _ _
  | .writeCommon _ _ | .selectGrade _ _ | .writeZoneMap _ _ | .claim _ _ | .release _ _ | .setPlan _ _ | .hold _ _
  | .step _ _ | .resume _ _ | .standardize _ _ | .faultClear _ _ | .speed _ _ _ | .declareDown _ _ _
  | .declareThreading _ _ | .declareSheetOn _ _ | .declareBreak _ _ _ | .parkSet _ _ | .parkClear _ _ | .ackAlarm _ _
  | .setDescriptor _ _ | .restart _ _ | .headRestart _ _ | .characterReceived _ _ => true

end Sys2Proof
end

