-- ==== Sys2Proof/Machine/Operands.lean ====
section
/-! DEFINITION. The operand forms: bytes to fields, the receiver's characters and messages (R189, R190), and the
payload of each request (R191) with the checks its owner makes on it. -/

namespace Sys2Proof.Machine

/-! ### Bytes -/

/-- The number a run of bytes spells, high byte first (R190). -/
def beNat (bs : List Byte) : Nat := bs.foldl (fun n b => n * 256 + b.toNat) 0

/-- The field of `len` bytes at offset `off` of a payload. -/
def fieldAt (pl : List Byte) (off len : Nat) : Nat := beNat ((pl.drop off).take len)

/-- The two's-complement reading of a field of `bits` bits. -/
def signedOf (bits n : Nat) : Int := if n < 2 ^ (bits - 1) then (n : Int) else (n : Int) - 2 ^ bits

/-- One byte of the CRC of R190: polynomial 0x1021, most significant bit first. -/
def crcByte (crc : BitVec 16) (b : Byte) : BitVec 16 :=
  (List.range 8).foldl (fun c _ => if c.msb then (c <<< 1) ^^^ 0x1021#16 else c <<< 1)
    (crc ^^^ (b.setWidth 16 <<< 8))

/-- The CRC-16 over a run of bytes, from 0xFFFF, with no final inversion (R190). -/
def crc16 (bs : List Byte) : BitVec 16 := bs.foldl crcByte 0xFFFF#16

/-! ### Characters (R188, R189) -/

/-- The majority of the three sub-samples, bit by bit. -/
def majority (c : RxChar) : BitVec 10 := (c.sub7 &&& c.sub8) ||| (c.sub8 &&& c.sub9) ||| (c.sub7 &&& c.sub9)

/-- The bits whose three sub-samples disagree. -/
def disagree (c : RxChar) : BitVec 10 := (c.sub7 ^^^ c.sub8) ||| (c.sub8 ^^^ c.sub9)

/-- The noise events of a character: one for each bit whose sub-samples disagree. -/
def noiseOf (c : RxChar) : Nat := (List.range 10).countP (fun i => (disagree c).getLsbD i)

/-- A start bit whose majority is low opens a character. -/
def startOk (c : RxChar) : Bool := !(majority c).getLsbD 0

/-- A stop bit whose majority is high closes it. -/
def stopOk (c : RxChar) : Bool := (majority c).getLsbD 9

/-- The data byte of a character, least significant bit first on the line. -/
def dataOf (c : RxChar) : Byte := (majority c).extractLsb' 1 8

/-- A clean character carrying a byte. -/
def cleanChar (b : Byte) : RxChar :=
  let w : BitVec 10 := 0x200#10 ||| (b.setWidth 10 <<< 1)
  ⟨w, w, w⟩

/-- What one character makes of the message in assembly. -/
inductive RxEvent where
  | nothing
  | bad
  | valid (m : InMsg) (noise : Nat)
deriving DecidableEq, Repr

/-- The check when the last character has arrived: the CRC over LEN, KIND, TAG and payload. -/
def closeMessage (bytes : List Byte) (noise : Nat) : RxEvent :=
  let len := bytes.length - 2
  if crc16 (bytes.take len) = (beNat (bytes.drop len) : BitVec 16)
  then .valid ⟨bytes.getD 1 0, bytes.getD 2 0, (bytes.take len).drop 3⟩ noise
  else .bad

/-- The receiver takes one character (R189). `bytes` are those after SYNC, LEN first: LEN + 5 of them in all. -/
def receiveChar (r : Receiver) (c : RxChar) : Receiver × RxEvent :=
  if !startOk c then (r, .nothing) else
  match r with
  | .hunting => if stopOk c && dataOf c == 0xA5#8 then (.assembling [] 0, .nothing) else (.hunting, .nothing)
  | .assembling bytes noise =>
    if !stopOk c then (.hunting, .bad) else
    let bytes' := bytes ++ [dataOf c]
    let noise' := noise + noiseOf c
    let len := (bytes'.getD 0 0).toNat
    if 250 < len then (.hunting, .bad)
    else if bytes'.length = len + 5 then (.hunting, closeMessage bytes' noise')
    else (.assembling bytes' noise', .nothing)

/-- The receiver takes a run of characters; the events are those that are not `nothing`, in order. -/
def receiveChars : Receiver → List RxChar → Receiver × List RxEvent
  | r, [] => (r, [])
  | r, c :: cs =>
    let x := receiveChar r c
    let y := receiveChars x.1 cs
    (y.1, if x.2 = .nothing then y.2 else x.2 :: y.2)

/-! ### Codes of R190 and R191 -/

def propOfCode : Nat → Option Prop4
  | 0 => some .bw
  | 1 => some .moi
  | 2 => some .cal
  | 3 => some .dry
  | _ => none

def formOfCode : Nat → Option Form
  | 0 => some .raw
  | 1 => some .deviation
  | 2 => some .filtered
  | 3 => some .filteredDeviation
  | 4 => some .status
  | _ => none

def encOfCode : Nat → Option Encoding
  | 0 => some .wide
  | 1 => some .narrow
  | 2 => some .coarse
  | _ => none

def mapOfCode : Nat → Option MapName
  | 0 => some .a
  | 1 => some .b
  | _ => none

def flagOfCode : Nat → Option Bool
  | 0 => some false
  | 1 => some true
  | _ => none

def bankOfCode (n : Nat) : Option BankNo := if h : 1 ≤ n ∧ n ≤ 7 then some ⟨n - 1, by omega⟩ else none

/-! ### The lengths of the requests (R191, R195) -/

/-- LEN is the length the fields of the request kind need, lists included. -/
def lenOk (kind : Nat) (pl : List Byte) : Bool :=
  let len := pl.length
  match kind with
  | 3 => len == 13
  | 4 => len == 5
  | 5 | 11 | 22 | 23 | 24 => len == 1
  | 9 =>
    let nB := fieldAt pl 14 1
    let nI := fieldAt pl (15 + 4 * nB) 1
    len == 47 + 4 * (nB + nI)
  | 10 => 1 ≤ len && len == 1 + 4 * fieldAt pl 0 1
  | 12 => 8 ≤ len && len ≤ 244 && len % 4 == 0
  | 15 => len == 20
  | 21 => len == 2
  | 25 => len == 12
  | _ => len == 0

/-! ### Generation selectors (R191) -/

inductive GenSelect where
  | latest
  | byNumber (n : ScanNo)
deriving DecidableEq, Repr

/-- The selector of five bytes at an offset. -/
def genSelect (pl : List Byte) (off : Nat) : Option GenSelect :=
  match fieldAt pl off 1 with
  | 0 => some .latest
  | 1 => some (.byNumber (fieldAt pl (off + 1) 4 : BitVec 32))
  | _ => none

/-! ### Scan plans (R181, R191) -/

def planModeOfCode : Nat → Option PlanMode
  | 0 => some .park
  | 1 => some .scan
  | 2 => some .fixed
  | _ => none

/-- Checks 2, 3 and 4 of R181 on the limit policy. -/
def limitPolicyOf (pl : List Byte) : Option LimitPolicy :=
  let lf := fieldAt pl 2 4
  let lb := fieldAt pl 6 4
  let m := fieldAt pl 10 2
  match fieldAt pl 1 1 with
  | 0 => if m = 0 ∧ lf < lb ∧ lb ≤ 120000 ∧ 1000 ≤ lb - lf then some (.fixedLimits lf lb) else none
  | 1 => if lf = 0 ∧ lb = 0 ∧ m ≤ 5000 then some (.edgeFollow m) else none
  | _ => none

/-- The scan plan of a SET PLAN that passes the checks of R181. -/
def planOf (pl : List Byte) : Option ScanPlan := do
  let mode ← planModeOfCode (fieldAt pl 0 1)
  let resume ← flagOfCode (fieldAt pl 19 1)
  let policy ← limitPolicyOf pl
  let speed := fieldAt pl 12 2
  let fixedPos := fieldAt pl 15 4
  if 50 ≤ speed ∧ speed ≤ 600 ∧ fixedPos ≤ 120000
  then some ⟨mode, policy, speed, fieldAt pl 14 1, fixedPos, resume⟩ else none

/-- R181: the plan as stored, its speed and its fixed position clamped against the common bank. -/
def clampPlan (b : CommonBank) (p : ScanPlan) : ScanPlan :=
  { p with speed := min p.speed b.maxSpeed, fixedPos := min p.fixedPos b.pMax }

/-! ### Grade banks (R81, R82, R191) -/

/-- `n` breakpoints of four bytes each. -/
def breakpointsOf (pl : List Byte) (off : Nat) : Nat → List Breakpoint
  | 0 => []
  | n + 1 => ⟨fieldAt pl off 2, fieldAt pl (off + 2) 2⟩ :: breakpointsOf pl (off + 4) n

/-- x values strictly ascending. -/
def ascending : List Breakpoint → Bool
  | a :: b :: rest => a.x < b.x && ascending (b :: rest)
  | _ => true

def tableOk (t : List Breakpoint) : Bool := 2 ≤ t.length && t.length ≤ 16 && ascending t

/-- The top of a property's range (00_scope). -/
def propMax : Prop4 → Nat
  | .moi => 10000
  | _ => 65535

/-- The limits of property `k` (0 … 3), its high and low limit at `off + 4k`, its spread limit at `off + 16 + 2k`. -/
def limitsAt (pl : List Byte) (off k : Nat) : Limits :=
  ⟨fieldAt pl (off + 4 * k) 2, fieldAt pl (off + 4 * k + 2) 2, fieldAt pl (off + 16 + 2 * k) 2⟩

def limitsOk (l : Limits) (p : Prop4) : Bool := l.low ≤ l.high && l.high ≤ propMax p

/-- The grade bank a WRITE BANK carries, laid out as R191 gives. -/
def bankFieldsOf (pl : List Byte) : GradeBank :=
  let nB := fieldAt pl 14 1
  let iOff := 15 + 4 * nB
  let nI := fieldAt pl iOff 1
  let off := iOff + 1 + 4 * nI
  { width := fieldAt pl 1 4
    n := fieldAt pl 5 2
    guard := fieldAt pl 7 2
    tolerance := fieldAt pl 9 2
    minSamples := fieldAt pl 11 1
    weight := fieldAt pl 12 2
    betaTable := breakpointsOf pl 15 nB
    irwTable := breakpointsOf pl (iOff + 1) nI
    gain := fieldAt pl off 2
    kT := signedOf 16 (fieldAt pl (off + 2) 2)
    tRef := signedOf 16 (fieldAt pl (off + 4) 2)
    limits := ⟨limitsAt pl (off + 6) 0, limitsAt pl (off + 6) 1, limitsAt pl (off + 6) 2, limitsAt pl (off + 6) 3⟩
    settle := fieldAt pl (off + 30) 1 }

/-- The field check of R82 against the ranges of R81. -/
def bankOk (b : GradeBank) : Bool :=
  1000 ≤ b.width && b.width ≤ 120000 && 16 ≤ b.n && b.n ≤ 600 && b.guard ≤ 2000 &&
  10 ≤ b.tolerance && b.tolerance ≤ 5000 && 1 ≤ b.minSamples && b.minSamples ≤ 64 &&
  1 ≤ b.weight && b.weight ≤ 256 && tableOk b.betaTable && tableOk b.irwTable && b.gain ≤ 65535 &&
  -2732 ≤ b.tRef && b.tRef ≤ 10000 &&
  limitsOk b.limits.bw .bw && limitsOk b.limits.moi .moi && limitsOk b.limits.cal .cal && limitsOk b.limits.dry .dry &&
  b.settle ≤ 15

/-! ### WRITE COMMON (R77, R79, R191) -/

/-- The entries of a WRITE COMMON: field code and value. -/
def commonEntries (pl : List Byte) (off : Nat) : Nat → List (Nat × Nat)
  | 0 => []
  | k + 1 => (fieldAt pl off 1, fieldAt pl (off + 1) 3) :: commonEntries pl (off + 4) k

def lineOfIndex : Nat → Option BreakLine
  | 0 => some .bl0
  | 1 => some .bl1
  | 2 => some .bl2
  | 3 => some .bl3
  | _ => none

/-- The channels of a head enable mask value (R191). -/
def maskOfCode (v : Nat) : PerChan Bool :=
  ⟨v.testBit 0, v.testBit 1, v.testBit 2, v.testBit 3, v.testBit 4⟩

/-- The common bank with one field written, whatever the value. -/
def setCommonField (b : CommonBank) (code v : Nat) : CommonBank :=
  match code with
  | 0 => { b with pMax := v }
  | 1 => { b with parkPos := v }
  | 2 => { b with stdPos := v }
  | 3 => { b with homeSpeed := v }
  | 4 => { b with maxSpeed := v }
  | 5 => { b with crawl := v }
  | 6 => { b with mask := maskOfCode v }
  | 7 => { b with drift := { b.drift with beta := v } }
  | 8 => { b with drift := { b.drift with irw := v } }
  | 9 => { b with drift := { b.drift with cal := v } }
  | 40 => { b with ceiling := v }
  | 41 => { b with silentTime := v }
  | 42 => { b with overdueTime := v }
  | 43 | 44 | 45 | 46 =>
    match lineOfIndex (code - 43) with
    | some l => { b with lineEnable := b.lineEnable.set l (v == 1) }
    | none => b
  | 47 | 48 | 49 | 50 =>
    match lineOfIndex (code - 47) with
    | some l => { b with lineLow := b.lineLow.set l (v == 1) }
    | none => b
  | 51 => { b with sheetLost := v }
  | n => if h : 10 ≤ n ∧ n < 40 then { b with levels := b.levels.set (n - 10) v (by omega) } else b

/-- The range of one field of R77, with P_max at the value it would have after the write. -/
def commonFieldOk (pMax code v : Nat) : Bool :=
  match code with
  | 0 => 20000 ≤ v && v ≤ 120000
  | 1 | 2 => v ≤ pMax
  | 3 => 20 ≤ v && v ≤ 100
  | 4 => 50 ≤ v && v ≤ 600
  | 5 => 10 ≤ v && v ≤ 300
  | 6 => v ≤ 31
  | 7 | 8 | 9 => v ≤ 1023
  | 10 => v == 0
  | 40 => 1 ≤ v && v ≤ 8
  | 41 => v ≤ 60
  | 42 => 1 ≤ v && v ≤ 255
  | 43 | 44 | 45 | 46 | 47 | 48 | 49 | 50 => v ≤ 1
  | 51 => 200 ≤ v && v ≤ 4000
  | n => 11 ≤ n && n < 40 && 1 ≤ v && v ≤ 7

/-- The common bank as it would stand after the write. -/
def writeEntries (b : CommonBank) (es : List (Nat × Nat)) : CommonBank :=
  es.foldl (fun b e => setCommonField b e.1 e.2) b

/-- The validation of R79 of the named fields against the bank as it would stand: no field twice, every value in its
range, and the park and standardize positions within P_max, written or kept. -/
def commonWriteOk (b : CommonBank) (es : List (Nat × Nat)) : Bool :=
  let b' := writeEntries b es
  (es.map Prod.fst).Nodup && es.all (fun e => commonFieldOk b'.pMax e.1 e.2) &&
  b'.parkPos ≤ b'.pMax && b'.stdPos ≤ b'.pMax

/-! ### Zone map parts (R132) -/

/-- `n` spans of four bytes each: `a` and `b − 1`. -/
def spansOf (pl : List Byte) (off : Nat) : Nat → List Zone
  | 0 => []
  | n + 1 => ⟨fieldAt pl off 2, fieldAt pl (off + 2) 2 + 1⟩ :: spansOf pl (off + 4) n

/-- The spans of a part follow one another and the last span before them without overlap. -/
def spansOrdered : Option Zone → List Zone → Bool
  | _, [] => true
  | prev, z :: zs => z.a < z.b && z.b ≤ 65536 && (prev.elim true (fun p => p.b ≤ z.a)) && spansOrdered (some z) zs

/-! ### Push descriptors (R204) -/

/-- The most bins one push report carries. -/
def pushBins : Form → Encoding → Nat
  | .status, _ => 119
  | _, .wide => 59
  | _, .narrow => 119
  | _, .coarse => 238

def descFormOfCode : Nat → Option DescForm
  | 0 => some .summary
  | 1 => some .zoneA
  | 2 => some .zoneB
  | 3 => some .profile
  | _ => none

/-- The index and the record of a SET DESCRIPTOR that passes the checks of R204. The profile fields are checked for a
profile form, which alone uses them. -/
def descriptorOf (pl : List Byte) : Option (Fin 4 × Descriptor) := do
  let active ← flagOfCode (fieldAt pl 1 1)
  let form ← descFormOfCode (fieldAt pl 2 1)
  let remaining := fieldAt pl 11 1
  let i := fieldAt pl 0 1
  if h : i < 4 then
    match form with
    | .profile => do
      let prop ← propOfCode (fieldAt pl 3 1)
      let pform ← formOfCode (fieldAt pl 4 1)
      let enc ← encOfCode (fieldAt pl 5 1)
      let shift := fieldAt pl 6 1
      let first := fieldAt pl 7 2
      let last := fieldAt pl 9 2
      if shift ≤ 7 ∧ first ≤ last ∧ last - first + 1 ≤ pushBins pform enc
      then some (⟨i, h⟩, ⟨active, .profile, prop, pform, enc, shift, first, last, remaining, 0⟩) else none
    | f => some (⟨i, h⟩, ⟨active, f, .bw, .raw, .wide, 0, 0, 0, remaining, 0⟩)
  else none

end Sys2Proof.Machine
end

