-- ==== Sys2Proof/Machine/Layout.lean ====
section
/-! DEFINITION. The layouts of every message the part sends (R190, R192, R193, R202). -/

namespace Sys2Proof.Machine

/-! ### Fields -/

/-- `k` bytes of a number, high byte first. -/
def bytesBE : Nat → Nat → List Byte
  | 0, _ => []
  | k + 1, n => BitVec.ofNat 8 (n / 256 ^ k) :: bytesBE k n

/-- `k` bytes of a signed number in two's complement. -/
def intBE (k : Nat) (x : Int) : List Byte := bytesBE k (x % 256 ^ k).toNat

def flagByte (b : Bool) : List Byte := bytesBE 1 b.toNat

/-- The value of a flag in a sum of flags. -/
def flagVal (b : Bool) (v : Nat) : Nat := if b then v else 0

/-- A position in 4 bytes, 0x80000000 for an absent one (R191). -/
def posBytes : Option Int → List Byte
  | none => bytesBE 4 0x80000000
  | some p => if -2 ^ 31 < p ∧ p < 2 ^ 31 then intBE 4 p else bytesBE 4 (Config.openPosition p).toNat

def cycleBytes (c : Cycle) : List Byte := bytesBE 4 c.toNat

/-- An unsigned value in 4 bytes, 0xFFFFFFFF for an absent one (R190, R192). -/
def optBytes4 : Option Nat → List Byte
  | none => bytesBE 4 0xFFFFFFFF
  | some v => bytesBE 4 v

def optFlag {α : Type} (o : Option α) : List Byte := flagByte o.isSome

/-- The whole message on the line: SYNC, LEN, KIND, TAG, payload, CRC (R190). -/
def frame (m : OutMsg) : List Byte :=
  let body := bytesBE 1 m.payload.length ++ [m.kind, m.tag] ++ m.payload
  [0xA5#8] ++ body ++ bytesBE 2 (crc16 body).toNat

/-! ### Notices (R190, R193) -/

/-- The ALARM message of a point (R169). -/
def alarmPayload (i : PointNo) (level : Nat) (pt : AlarmPoint) (floor : Nat) (m : MachineState) : List Byte :=
  bytesBE 1 i.val ++ bytesBE 1 (pointKind i) ++ bytesBE 1 level ++ bytesBE 1 (pointStateCode pt.state) ++
  bytesBE 2 pt.count ++ bytesBE 4 ((pt.lastCycle.getD 0).toNat) ++ bytesBE 1 floor ++ bytesBE 1 (machineCode m)

def statePayload (new old : MachineState) (cause : StateCause) (newest : Option BreakNo) (c : Cycle) : List Byte :=
  bytesBE 1 (machineCode new) ++ bytesBE 1 (machineCode old) ++ bytesBE 1 (stateCauseCode cause) ++
  optFlag newest ++ bytesBE 2 ((newest.getD 0).toNat) ++ cycleBytes c

/-- The TOKEN notice; `silent` for cause SILENT. -/
def tokenPayload (new old : Port) (silent : Bool) (waiting : List Port) : List Byte :=
  bytesBE 1 (portCode new) ++ bytesBE 1 (portCode old) ++ flagByte silent ++ bytesBE 1 waiting.length ++
  waiting.flatMap (fun p => bytesBE 1 (portCode p))

def gradePayload (bank : BankNo) (p : Port) : List Byte := bytesBE 1 (bank.val + 1) ++ bytesBE 1 (portCode p)

def ackedPayload (i : PointNo) (st : PointState) (p : Port) (floor : Nat) : List Byte :=
  bytesBE 1 i.val ++ bytesBE 1 (pointStateCode st) ++ bytesBE 1 (portCode p) ++ bytesBE 1 floor

/-! ### Profile values (R122, R202) -/

/-- The value of bin `i` in a form other than STATUS, or absent. -/
def formValue (g : Generation) (p : Prop4) (f : Form) (i : Nat) : Option Int :=
  let bin := ((g.bins.get p)[i]?).bind BinOut.value
  let fc := g.filter.map (fun t => t.get p)
  let fbin := fc.bind (fun c => (c.bins[i]?).bind id)
  match f with
  | .raw => bin.map (fun v => (v : Int))
  | .deviation => bin.bind (fun v => (g.stats.get p).avg.map (fun a => (v : Int) - a))
  | .filtered => fbin.map (fun v => (v : Int))
  | .filteredDeviation => fbin.bind (fun v => (fc.bind FilterCopy.avg).map (fun a => (v : Int) - a))
  | .status => none

def isDeviation : Form → Bool
  | .deviation | .filteredDeviation => true
  | _ => false

/-- One value in an encoding (R202); the floor of COARSE is toward minus infinity. -/
def encodeValue (f : Form) (e : Encoding) (shift : Nat) (v : Option Int) : List Byte :=
  match e, isDeviation f with
  | .wide, false => v.elim (bytesBE 4 0xFFFFFFFF) (intBE 4)
  | .wide, true => v.elim (bytesBE 4 0x80000000) (intBE 4)
  | .narrow, false => v.elim (bytesBE 2 0xFFFF) (intBE 2)
  | .narrow, true => v.elim (bytesBE 2 0x8000) (fun x => intBE 2 (clampInt (-32768) 32767 x))
  | .coarse, false => v.elim (bytesBE 1 0xFF) (fun x => intBE 1 (clampInt 0 255 (x / 2 ^ shift)))
  | .coarse, true => v.elim (bytesBE 1 0x80) (fun x => intBE 1 (clampInt (-128) 127 (x / 2 ^ shift)))

/-- The two bytes of a bin in STATUS form. -/
def statusBytes (g : Generation) (p : Prop4) (i : Nat) : List Byte :=
  let seeded := ((g.filter.map (fun t => t.get p)).bind (fun c => (c.bins[i]?).bind id)).isSome
  let b := ((g.bins.get p)[i]?).getD ⟨.invalid, none, 0⟩
  bytesBE 1 (binStatusCode b.status + flagVal seeded 16) ++ bytesBE 1 (min b.clamp 255)

/-- AVERAGE ABSENT (R201): a deviation form whose average is absent. -/
def averageAbsent (g : Generation) (p : Prop4) : Form → Bool
  | .deviation => (g.stats.get p).avg.isNone
  | .filteredDeviation => ((g.filter.map (fun t => t.get p)).bind FilterCopy.avg).isNone
  | _ => false

/-- A read chunk payload of `count` bins from `first` (R190); `last` sets the LAST flag. -/
def chunkPayload (g : Generation) (p : Prop4) (f : Form) (e : Encoding) (shift first count : Nat) (last : Bool) :
    List Byte :=
  let st := g.stats.get p
  let flags := flagVal last 1 + flagVal st.frozen 4 + flagVal st.poor 8 + flagVal (averageAbsent g p f) 16
  let encByte := if f = .status then 0 else encCode e * 8 + shift
  bytesBE 4 g.scan.toNat ++ bytesBE 1 (propCode p * 8 + formCode f) ++ bytesBE 1 encByte ++ bytesBE 2 first ++
  bytesBE 1 count ++ bytesBE 1 flags ++
  (List.range' first count).flatMap (fun i =>
    if f = .status then statusBytes g p i else encodeValue f e shift (formValue g p f i))

/-- The final chunk of an ENDING stream: no bins, LAST and SUPERSEDED (R203). -/
def supersededPayload (r : Stream) : List Byte :=
  let encByte := if r.form = .status then 0 else encCode r.enc * 8 + r.shift
  bytesBE 4 r.scan.toNat ++ bytesBE 1 (propCode r.prop * 8 + formCode r.form) ++ bytesBE 1 encByte ++
  bytesBE 2 r.nextBin ++ bytesBE 1 0 ++ bytesBE 1 3

/-! ### Summaries and zones (R190, R192) -/

/-- The body of the push summary, which is also the reply to READ SUMMARY. -/
def summaryBody (g : Generation) : List Byte :=
  bytesBE 4 g.scan.toNat ++ bytesBE 1 (dirCode g.dir) ++ bytesBE 1 (machineCode g.machine) ++
  bytesBE 1 (bankCode g.bank) ++ flagByte g.retraverse ++ cycleBytes g.startCycle ++ cycleBytes g.endCycle ++
  bytesBE 4 g.uncomp ++
  allProps.flatMap (fun p =>
    let st := g.stats.get p
    optBytes4 st.avg ++ optBytes4 st.spread ++ bytesBE 2 st.nValid ++
    bytesBE 1 (flagVal st.poor 1 + flagVal st.frozen 2))

/-- Two bits of status per zone, four zones a byte, zones beyond the last counting as 0. -/
def packStatuses : List ZoneOut → List Byte
  | [] => []
  | z0 :: z1 :: z2 :: z3 :: rest =>
    bytesBE 1 (zoneStatusCode z0 + 4 * zoneStatusCode z1 + 16 * zoneStatusCode z2 + 64 * zoneStatusCode z3) ++
    packStatuses rest
  | [z0] => bytesBE 1 (zoneStatusCode z0)
  | [z0, z1] => bytesBE 1 (zoneStatusCode z0 + 4 * zoneStatusCode z1)
  | [z0, z1, z2] => bytesBE 1 (zoneStatusCode z0 + 4 * zoneStatusCode z1 + 16 * zoneStatusCode z2)

/-- A zone value in two bytes, saturated, NONE as 0x8000. -/
def zoneValue2 : ZoneOut → List Byte
  | .none => bytesBE 2 0x8000
  | .valid v => intBE 2 (clampInt (-32768) 32767 v)
  | .held v => intBE 2 (clampInt (-32768) 32767 v)

/-- A zone value in four bytes, NONE as 0x80000000. -/
def zoneValue4 : ZoneOut → List Byte
  | .none => bytesBE 4 0x80000000
  | .valid v => intBE 4 v
  | .held v => intBE 4 v

/-- The body of a push zone report of the publication of `scan` (R190, R206). The property byte of an
absent map is open (log entry 5). -/
def zoneBody (scan : ScanNo) (name : MapName) (z : ZoneSide) : List Byte :=
  match z.active with
  | none =>
    bytesBE 4 scan.toNat ++ bytesBE 1 (mapCode name) ++ [Config.openAbsentByte 7] ++ bytesBE 1 0 ++ bytesBE 4 0 ++
    bytesBE 1 (flagVal z.frozen 1 + 2)
  | some m =>
    bytesBE 4 scan.toNat ++ bytesBE 1 (mapCode name) ++ bytesBE 1 (propCode m.prop) ++ bytesBE 1 m.zones.length ++
    bytesBE 4 ((z.lastScan.getD 0).toNat) ++ bytesBE 1 (flagVal z.frozen 1 + flagVal z.lastScan.isNone 4) ++
    packStatuses z.outs ++ z.outs.flatMap zoneValue2

/-- The zones of one part of READ ZONES, from zone `first`, at most 24. -/
def zonesPart (name : MapName) (m : ZoneMap) (z : ZoneSide) (first : Nat) : List Byte :=
  bytesBE 1 (mapCode name) ++ bytesBE 1 (propCode m.prop) ++ bytesBE 1 m.zones.length ++
  bytesBE 1 (flagVal z.frozen 1 + flagVal z.staged.isSome 2 + flagVal z.lastScan.isNone 4) ++
  bytesBE 4 ((z.lastScan.getD 0).toNat) ++ bytesBE 1 first ++
  (((m.zones.zip z.outs).drop first).take 24).flatMap (fun x =>
    bytesBE 2 x.1.a ++ bytesBE 2 (x.1.b - 1) ++ bytesBE 1 (zoneStatusCode x.2) ++ zoneValue4 x.2)

/-! ### Replies in parts (R192, R195) -/

/-- The parts of a reply: result code OK, part number from 1, number of parts, body. -/
def inParts (bodies : List (List Byte)) : List (List Byte) :=
  bodies.mapIdx (fun i b => [rcOk] ++ bytesBE 1 (i + 1) ++ bytesBE 1 bodies.length ++ b)

def zonesReply (name : MapName) (m : ZoneMap) (z : ZoneSide) : List (List Byte) :=
  inParts ((List.range (max 1 (ceilDiv m.zones.length 24))).map (fun k => zonesPart name m z (24 * k)))

/-- One point in READ ALARMS. -/
def alarmEntry (levels : Vector Nat 30) (a : Alt) (i : PointNo) : List Byte :=
  let pt := a.points[i]
  bytesBE 1 i.val ++ bytesBE 1 (pointKind i) ++ bytesBE 1 (pointStateCode pt.state) ++ bytesBE 1 (levelOf levels i) ++
  bytesBE 1 (flagVal (consequential i) 1 + flagVal pt.annunciated 2 + flagVal pt.suppressed 4 +
    flagVal pt.lastCycle.isNone 8) ++
  bytesBE 2 pt.count ++ bytesBE 4 ((pt.lastCycle.getD 0).toNat)

/-- READ ALARMS: points 0 … 14 and points 15 … 29 (R174). -/
def alarmsReply (levels : Vector Nat 30) (ceiling : Nat) (a : Alt) : List (List Byte) :=
  let part (lo : Nat) (is : List PointNo) : List Byte :=
    bytesBE 1 a.floor ++ bytesBE 1 ceiling ++
    (is.filter (fun i => lo ≤ i.val && i.val < lo + 15)).flatMap (alarmEntry levels a)
  inParts [part 0 (List.finRange 30), part 15 (List.finRange 30)]

def laterEntry (c : LaterCause) : List Byte :=
  bytesBE 1 (causeKindCode c.kind) ++ posBytes (some c.position) ++ cycleBytes c.cycle

/-- One break record (R192): four cause entries, the unused ones 0. -/
def breakEntry (r : BreakRecord) : List Byte :=
  bytesBE 2 r.number.toNat ++ bytesBE 1 (causeKindCode r.first.kind) ++ posBytes (some r.first.position) ++
  bytesBE 4 r.first.scan.toNat ++ cycleBytes r.first.cycle ++ bytesBE 1 r.later.length ++
  (r.later.take 4).flatMap laterEntry ++ List.replicate (9 * (4 - r.later.length)) 0 ++
  bytesBE 1 r.overflow ++
  bytesBE 1 (flagVal r.isOpen 1 + flagVal r.threadAt.isSome 2 + flagVal r.runAt.isSome 4) ++
  bytesBE 4 ((r.threadAt.getD 0).toNat) ++ bytesBE 4 ((r.runAt.getD 0).toNat) ++ bytesBE 1 (absentPortCode r.ackedBy)

/-- READ BREAK LOG: 3 records a part, one part for an empty log (R195). -/
def breakLogReply (log : List BreakRecord) : List (List Byte) :=
  inParts ((List.range (max 1 (ceilDiv log.length 3))).map (fun k =>
    bytesBE 1 log.length ++ ((log.drop (3 * k)).take 3).flatMap breakEntry))

/-! ### Scan plans and READ STATE (R191, R192) -/

/-- The 20 bytes of a scan plan record. -/
def planBytes (p : ScanPlan) : List Byte :=
  bytesBE 1 (planModeCode p.mode) ++
  (match p.policy with
   | .fixedLimits lf lb => bytesBE 1 0 ++ bytesBE 4 lf ++ bytesBE 4 lb ++ bytesBE 2 0
   | .edgeFollow m => bytesBE 1 1 ++ bytesBE 4 0 ++ bytesBE 4 0 ++ bytesBE 2 m) ++
  bytesBE 2 p.speed ++ bytesBE 1 p.interval ++ bytesBE 4 p.fixedPos ++ flagByte p.resume

def waitingBytes : List Port → List Byte
  | [] => bytesBE 1 0xFF ++ bytesBE 1 0xFF
  | [p] => bytesBE 1 (portCode p) ++ bytesBE 1 0xFF
  | p :: q :: _ => bytesBE 1 (portCode p) ++ bytesBE 1 (portCode q)

/-- The loaded flags of banks 1 … 7 as one byte. -/
def loadedByte (r : Rbs) : Nat :=
  ((List.finRange 7).map (fun k => flagVal (r.banks[k]).isSome (2 ^ k.val))).sum

/-- The due age in whole seconds; it is kept in units of 500 µs (log entry 4). -/
def dueSeconds (q : Osq) : Nat := q.dueAge / 2000

def dueAgeBytes (q : Osq) : List Byte :=
  if dueSeconds q < 2 ^ 32 then bytesBE 4 (dueSeconds q)
  else bytesBE 4 (Config.openDueAge (dueSeconds q)).toNat

def statePart1 (s : State) : List Byte :=
  let c := s.cmu
  let hd (h : Head) : List Byte := bytesBE 1 (headCode h.state) ++ bytesBE 1 (absentCode h.cause)
  let rf (r : Option (BitVec 16)) : List Byte := bytesBE 2 (r.getD 0).toNat
  bytesBE 1 (carriageCode c.state) ++ posBytes (some c.position) ++ flagByte c.homed ++ bytesBE 1 (dirCode c.direction) ++
  bytesBE 1 c.skipCount ++ bytesBE 1 (faultCode c.faultCause) ++ flagByte c.parkSource ++
  bytesBE 1 (holderCode s.cta.holder) ++ bytesBE 1 s.cta.waiting.length ++ waitingBytes s.cta.waiting ++
  optFlag s.cta.pending ++ s.cta.pending.elim (List.replicate 20 0) planBytes ++ planBytes c.plan ++
  allChannels.flatMap (fun ch => hd (s.hbc.heads.get ch)) ++
  bytesBE 1 (bankCode s.rbs.active) ++ bytesBE 1 (bankCode (s.rbs.pending.map Prod.fst)) ++
  bytesBE 1 (absentPortCode (s.rbs.pending.map Prod.snd)) ++ bytesBE 1 s.rbs.settle ++ bytesBE 1 (loadedByte s.rbs) ++
  bytesBE 1 (osqCode s.osq.step) ++ flagByte s.osq.due ++ flagByte s.osq.requested ++ bytesBE 1 s.osq.scanCount ++
  dueAgeBytes s.osq ++ rf s.scv.refs.beta ++ rf s.scv.refs.irw ++ rf s.scv.refs.cal

def mapBytes : Option BinMap → List Byte
  | none =>
    bytesBE 1 0 ++ bytesBE 2 0 ++ bytesBE 2 0xFFFF ++ posBytes none ++ posBytes none ++ posBytes none ++
    posBytes none ++ posBytes none ++ [Config.openAbsentByte 0, Config.openAbsentByte 1]
  | some m =>
    bytesBE 1 1 ++ bytesBE 2 (m.n.getD 0) ++ bytesBE 2 (m.g.getD 0xFFFF) ++ posBytes m.ef ++ posBytes m.eb ++
    posBytes m.start ++ posBytes m.stop ++ posBytes m.span ++ flagByte m.valid ++ bytesBE 1 (mapCauseCode m.cause)

def reportBytes : Option EdgeReport → List Byte
  | none =>
    bytesBE 1 0 ++ [Config.openAbsentByte 2] ++ posBytes none ++ posBytes none ++
    [Config.openAbsentByte 3, Config.openAbsentByte 4] ++ [Config.openAbsentByte 5, Config.openAbsentByte 6] ++
    bytesBE 1 0 ++ bytesBE 1 0
  | some r =>
    bytesBE 1 1 ++ bytesBE 1 (dirCode r.dir) ++ posBytes r.front ++ posBytes r.back ++ flagByte r.frontCovered ++
    flagByte r.backCovered ++ bytesBE 2 r.interior ++ bytesBE 1 (outcomeCode r.frontOutcome) ++
    bytesBE 1 (outcomeCode r.backOutcome)

def confirmedCode : Option Bool → Nat
  | some false => 0
  | some true => 1
  | none => 2

def statePart2 (s : State) (p : Port) : List Byte :=
  let ps := s.ports.get p
  let newest := s.msm.log.head?.map BreakRecord.number
  posBytes s.ebm.ef ++ posBytes s.ebm.eb ++ bytesBE 1 s.ebm.jumpF ++ bytesBE 1 s.ebm.jumpB ++
  mapBytes s.ebm.map ++ reportBytes s.ebm.report ++
  optFlag s.pen.window ++ optFlag s.pen.lastScan ++ bytesBE 4 ((s.pen.lastScan.getD 0).toNat) ++
  allPorts.flatMap (fun q => optFlag (s.pen.pins.get q) ++ bytesBE 4 (((s.pen.pins.get q).getD 0).toNat)) ++
  bytesBE 1 (machineCode s.msm.state) ++ bytesBE 2 s.msm.speed ++
  allLines.flatMap (fun l => bytesBE 1 (confirmedCode (s.msm.lines.get l).confirmed) ++
    bytesBE 1 (readingCode (lineReading s.rbs.common s.msm l))) ++
  bytesBE 1 s.msm.widthPasses ++ optFlag newest ++ bytesBE 2 ((newest.getD 0).toNat) ++
  bytesBE 1 s.alt.floor ++ cycleBytes s.hbc.lastRecord ++
  bytesBE 2 ps.noise ++ bytesBE 2 ps.bad ++ bytesBE 2 ps.overruns ++ bytesBE 2 ps.lost

end Sys2Proof.Machine
end

