-- ==== Sys2Proof/Machine/Ops.lean ====
section
/-! DEFINITION. The named operations on the state that several blocks share: one update per block, sampled lines, the
outbound queues (R196), the carriage token's hand-over (R178), and the passing of time. -/

namespace Sys2Proof.Machine

/-! ### One update per block -/

def State.withRst (s : State) (x : Sampled) : State := { s with rst := x }
def State.withRate (s : State) (x : Rate) : State := { s with rate := x }
def State.withCmu (s : State) (x : Cmu) : State := { s with cmu := x }
def State.withDrive (s : State) (x : Drive) : State := { s with drive := x }
def State.withHbc (s : State) (x : Hbc) : State := { s with hbc := x }
def State.withOsq (s : State) (x : Osq) : State := { s with osq := x }
def State.withScv (s : State) (x : Scv) : State := { s with scv := x }
def State.withRbs (s : State) (x : Rbs) : State := { s with rbs := x }
def State.withEbm (s : State) (x : Ebm) : State := { s with ebm := x }
def State.withPen (s : State) (x : Pen) : State := { s with pen := x }
def State.withAzm (s : State) (x : Azm) : State := { s with azm := x }
def State.withMsm (s : State) (x : Msm) : State := { s with msm := x }
def State.withAlt (s : State) (x : Alt) : State := { s with alt := x }
def State.withCta (s : State) (x : Cta) : State := { s with cta := x }
def State.withPorts (s : State) (x : PerPort PortState) : State := { s with ports := x }

/-! ### Sampled lines (R1, R8, R11, R142) -/

/-- One sample of a line whose level is confirmed by `n` consecutive samples. -/
def sampleLine (n : Nat) (lvl : Bool) (d : Sampled) : Sampled :=
  let run := if d.last = some lvl then min n (d.run + 1) else 1
  ⟨some lvl, run, if n ≤ run then some lvl else d.confirmed⟩

/-- `k` consecutive samples at one level. -/
def sampleLines (n : Nat) (lvl : Bool) : Nat → Sampled → Sampled
  | 0, d => d
  | k + 1, d => sampleLines n lvl k (sampleLine n lvl d)

/-- The samples that confirm a level: `n` of them. -/
def confirmLine (n : Nat) (lvl : Bool) (d : Sampled) : Sampled := sampleLines n lvl n d

/-! ### Outbound queues (R196) -/

/-- The entries reserved for the reply of the request in handling. -/
def PortState.reserved (p : PortState) : Nat := p.handling.elim 0 Handling.reserved

/-- The entries occupied or reserved. -/
def PortState.occupied (p : PortState) : Nat := p.outbound.length + p.reserved

/-- The entries free and unreserved, of 32. -/
def PortState.free (p : PortState) : Nat := 32 - p.occupied

/-- The push reports held. -/
def PortState.pushes (p : PortState) : Nat := p.outbound.countP (fun m => m.cls == .push)

/-- R196: an unsolicited notice: queued on an ACTIVE port with a free entry, counted as lost on an ACTIVE port with none,
sent nowhere on a SILENT port and not counted there, a GRADE notice too, which R85 sends as the ports chapter gives (log
entry 34). -/
def PortState.notice (kind : Byte) (payload : List Byte) (p : PortState) : PortState :=
  if p.silent then p
  else if 1 ≤ p.free then { p with outbound := p.outbound ++ [⟨.notice, kind, 0, payload⟩] }
  else { p with lost := satInc 65535 p.lost }

/-- A read chunk is admitted with at least 2 entries free and unreserved. -/
def PortState.admitsChunk (p : PortState) : Bool := 2 ≤ p.free

/-- A push report is admitted with 24 or fewer entries occupied and fewer than 24 push reports held. -/
def PortState.admitsPush (p : PortState) : Bool := p.occupied ≤ 24 && p.pushes < 24

/-- A change of one port. -/
def State.updPort (s : State) (p : Port) (f : PortState → PortState) : State :=
  s.withPorts (s.ports.set p (f (s.ports.get p)))

/-- A notice to one port. -/
def State.notify (s : State) (p : Port) (kind : Byte) (payload : List Byte) : State :=
  s.updPort p (PortState.notice kind payload)

/-- A notice to every port. -/
def State.notifyAll (s : State) (kind : Byte) (payload : List Byte) : State :=
  s.withPorts (s.ports.map (PortState.notice kind payload))

/-- The kinds of the unsolicited messages (R190). -/
def kChunk : Byte := 0x40
def kAlarm : Byte := 0x41
def kState : Byte := 0x42
def kToken : Byte := 0x43
def kGrade : Byte := 0x44
def kAcked : Byte := 0x45
def kEnd : Byte := 0x46
def kPushSummary : Byte := 0x48
def kPushZone : Byte := 0x49
def kPushProfile : Byte := 0x4A

/-! ### The carriage token (R178) -/

/-- The CMU's part of a holder leaving: an owed hold of either kind is cleared, an armed one stands. -/
def clearOwedHold (c : Cmu) : Cmu :=
  match c.hold with
  | .owed _ => { c with hold := .none }
  | _ => c

/-- The holder leaves the token: its pending plan is discarded, an owed hold is cleared, and the head of the waiting
list becomes the holder with a TOKEN notice. -/
def leaveToken (old : Port) (silent : Bool) (s : State) : State :=
  let s := s.withCmu (clearOwedHold s.cmu)
  match s.cta.waiting with
  | [] => s.withCta ⟨none, [], none⟩
  | p :: rest => (s.withCta ⟨some p, rest, none⟩).notify p kToken (tokenPayload p old silent rest)

/-! ### Time

Times are kept in units of 500 µs, the length of a head-bus cycle (R26): the start of a cycle is the one event of the
table that comes by the clock, and it advances every running timer. Log entry 4. -/

def unitsPerSecond : Nat := 2000

/-- Two seconds: the stall timer (R7) and the settle timer (R48). -/
def twoSeconds : Nat := 4000

def PortState.tick (silentTime : Nat) (p : PortState) : PortState :=
  if !p.silent && silentTime != 0 then { p with silentTimer := p.silentTimer + 1 } else p

/-- 500 µs pass. -/
def State.tick (s : State) : State :=
  let d := s.drive
  let s := s.withDrive { d with
    dwell := d.dwell.map (fun w => ⟨w.sinceZero + 1, w.sinceCount + 1⟩)
    stall := d.stall.map (satInc twoSeconds)
    sinceWord := d.sinceWord + 1 }
  let q := s.osq
  let s := s.withOsq { q with
    settle := q.settle.map (satInc twoSeconds)
    dueAge := if q.due then q.dueAge + 1 else q.dueAge }
  s.withPorts (s.ports.map (PortState.tick s.rbs.common.silentTime))

/-! ### Outcomes -/

/-- A command taken by a part that is not held in a power-on reset; a part that is held stays as it is (R1). -/
def whenReleased (s : State) (f : State → State) : Host.Outcome State Fault Refusal :=
  .next (if s.held then s else f s)

end Sys2Proof.Machine
end

