-- ==== Sys2Proof/Machine/Flags.lean ====
section
/-! DEFINITION. The alarm flags: activation and return of the 30 points, suppression, the annunciation floor and the
annunciation pass (R162 … R171).

The operations act on the pair of the alarm table and the ports, which take the ALARM messages; a `AlarmCtx` holds what
they read of the other blocks. -/

namespace Sys2Proof.Machine

/-- What the ALT reads of other blocks: the levels and the ceiling of the common bank, the machine state, the cycle in
progress. -/
structure AlarmCtx where
  levels  : Vector Nat 30
  ceiling : Nat
  machine : MachineState
  cycle   : Cycle
deriving DecidableEq, Repr

def State.alarmCtx (s : State) : AlarmCtx := ⟨s.rbs.common.levels, s.rbs.common.ceiling, s.msm.state, s.hbc.cycle⟩

/-- The alarm table with the ports. -/
abbrev AltPorts := Alt × PerPort PortState

/-- An annunciated point in ACTIVE-UNACK or RETURN-UNACK holds the floor (R167), but for one of level 7 that has returned
(R173; log entry 36). -/
def AlarmPoint.holdsFloor (level : Nat) (p : AlarmPoint) : Bool :=
  p.annunciated && (p.state == .activeUnack || (p.state == .returnUnack && level != 7))

/-- The floor F of R167. -/
def floorOf (levels : Vector Nat 30) (ceiling : Nat) (pts : Vector AlarmPoint 30) : Nat :=
  (List.finRange 30).foldl (fun f i => if (pts[i]).holdsFloor (levelOf levels i) then min f (levelOf levels i) else f) ceiling

def refloor (x : AlarmCtx) (a : Alt) : Alt := { a with floor := floorOf x.levels x.ceiling a.points }

def Alt.setPoint (a : Alt) (i : PointNo) (p : AlarmPoint) : Alt := { a with points := a.points.set i p }

/-- A point is placed last in the entry order. -/
def Alt.placeLast (a : Alt) (i : PointNo) : Alt := { a with order := a.order.erase i ++ [i] }

/-- A point that has left ACTIVE-UNACK leaves the entry order. -/
def Alt.dropOrder (a : Alt) (i : PointNo) : Alt := { a with order := a.order.erase i }

/-! ### The annunciation pass (R168) -/

/-- R168: ACTIVE-UNACK, not annunciated, not suppressed, of level 6 or less, and of level below F. -/
def eligible (x : AlarmCtx) (a : Alt) (i : PointNo) : Bool :=
  let p := a.points[i]
  p.state == .activeUnack && !p.annunciated && !p.suppressed && levelOf x.levels i ≤ 6 && levelOf x.levels i < a.floor

/-- The eligible point of lowest level, the first of them in the entry order. -/
def pickPoint (x : AlarmCtx) (a : Alt) : Option PointNo :=
  (a.order.filter (eligible x a)).foldl (fun best i =>
    match best with
    | none => some i
    | some j => if levelOf x.levels i < levelOf x.levels j then some i else some j) none

/-- R169: the ALARM message of a point, to every ACTIVE port. -/
def sendAlarm (x : AlarmCtx) (i : PointNo) (ap : AltPorts) : AltPorts :=
  (ap.1, ap.2.map (PortState.notice kAlarm (alarmPayload i (levelOf x.levels i) ap.1.points[i] ap.1.floor x.machine)))

/-- A point is annunciated: its flag is set, F recomputed, the ALARM message sent with F after it. -/
def annunciate (x : AlarmCtx) (i : PointNo) (ap : AltPorts) : AltPorts :=
  sendAlarm x i (refloor x (ap.1.setPoint i { ap.1.points[i] with annunciated := true }), ap.2)

/-- The pass, with a bound on its length; each round annunciates one more of the 30 points. -/
def annPass (x : AlarmCtx) : Nat → AltPorts → AltPorts
  | 0, ap => ap
  | n + 1, ap =>
    match pickPoint x ap.1 with
    | none => ap
    | some i => annPass x n (annunciate x i ap)

/-- The end of every event of the ALT: F recomputed, then the pass. -/
def settleAlarms (x : AlarmCtx) (ap : AltPorts) : AltPorts := annPass x 30 (refloor x ap.1, ap.2)

/-! ### Activation and return -/

/-- The count and the cycle of an activation (R162, R163). -/
def AlarmPoint.counted (p : AlarmPoint) (c : Cycle) : AlarmPoint :=
  { p with count := satInc 65535 p.count, lastCycle := some c }

/-- R165: a consequential point activated outside RUN is marked while it waits unannunciated. -/
def suppressMark (x : AlarmCtx) (i : PointNo) (p : AlarmPoint) : AlarmPoint :=
  if consequential i && x.machine != .run && p.state == .activeUnack && !p.annunciated
  then { p with suppressed := true } else p

/-- R162: the point of an activation that finds it NORMAL or RETURN-UNACK. -/
def AlarmPoint.raised (x : AlarmCtx) (i : PointNo) (p : AlarmPoint) : AlarmPoint :=
  suppressMark x i { p.counted x.cycle with state := .activeUnack, annunciated := false }

/-- R162: the activation of a point other than BREAK. One taken on a RETURN-UNACK point enters the entry order after the pass
of its own event, so that this pass does not reach it: an ACK ALARM taken next finds it unannunciated, and the activation is
never annunciated (R171; log entry 38). -/
def activatePoint (x : AlarmCtx) (i : PointNo) (ap : AltPorts) : AltPorts :=
  let p := ap.1.points[i]
  match p.state with
  | .normal => settleAlarms x ((ap.1.setPoint i (p.raised x i)).placeLast i, ap.2)
  | .returnUnack =>
    let ap := settleAlarms x ((ap.1.setPoint i (p.raised x i)).dropOrder i, ap.2)
    (ap.1.placeLast i, ap.2)
  | .activeUnack | .activeAck => settleAlarms x (ap.1.setPoint i (suppressMark x i (p.counted x.cycle)), ap.2)

/-- R163: the activation of BREAK. -/
def activateBreak (x : AlarmCtx) (ap : AltPorts) : AltPorts :=
  let p := (ap.1.points[ptBreak]).counted x.cycle
  let a := (ap.1.setPoint ptBreak { p with state := .activeUnack }).placeLast ptBreak
  settleAlarms x (annunciate x ptBreak (a, ap.2))

/-- R164: the return of a point. -/
def returnPoint (x : AlarmCtx) (i : PointNo) (ap : AltPorts) : AltPorts :=
  let p := ap.1.points[i]
  let a :=
    match p.state with
    | .activeAck => ap.1.setPoint i { p with state := .normal, suppressed := false }
    | .activeUnack =>
      if p.annunciated then (ap.1.setPoint i { p with state := .returnUnack }).dropOrder i
      else (ap.1.setPoint i { p with state := .normal, suppressed := false }).dropOrder i
    | .normal | .returnUnack => ap.1
  settleAlarms x (a, ap.2)

/-- R166: an entry into RUN. -/
def unsuppress (x : AlarmCtx) (ap : AltPorts) : AltPorts :=
  settleAlarms x ({ ap.1 with points := ap.1.points.map (fun p => { p with suppressed := false }) }, ap.2)

/-- R170: the acknowledgement of a point that waits for one, or nothing. -/
def ackPoint (x : AlarmCtx) (i : PointNo) (ap : AltPorts) : Option AltPorts :=
  let p := ap.1.points[i]
  match p.state with
  | .activeUnack =>
    some (settleAlarms x ((ap.1.setPoint i { p with state := .activeAck, suppressed := false }).dropOrder i, ap.2))
  | .returnUnack => some (settleAlarms x (ap.1.setPoint i { p with state := .normal, suppressed := false }, ap.2))
  | .normal | .activeAck => none

/-! ### On the state -/

def State.withAlarms (s : State) (ap : AltPorts) : State := (s.withAlt ap.1).withPorts ap.2

def State.alarms (s : State) : AltPorts := (s.alt, s.ports)

/-- An owner activates a point. -/
def State.activate (s : State) (i : PointNo) : State :=
  s.withAlarms (if i = ptBreak then activateBreak s.alarmCtx s.alarms else activatePoint s.alarmCtx i s.alarms)

/-- An owner returns a point. -/
def State.returnAlarm (s : State) (i : PointNo) : State := s.withAlarms (returnPoint s.alarmCtx i s.alarms)

/-- An owner activates or returns a point by a condition. -/
def State.setAlarm (s : State) (i : PointNo) (on : Bool) : State := if on then s.activate i else s.returnAlarm i

/-- Returns of several points, each an event of its own. -/
def State.returnAlarms (s : State) (is : List PointNo) : State := is.foldl State.returnAlarm s

def State.unsuppressAll (s : State) : State := s.withAlarms (unsuppress s.alarmCtx s.alarms)

/-- R173: new levels or a new ceiling. -/
def State.relevel (s : State) : State := s.withAlarms (settleAlarms s.alarmCtx s.alarms)

end Sys2Proof.Machine
end

