-- ==== Sys2Proof/Machine/Motion.lean ====
section
/-! DEFINITION. How the carriage is sent where it goes: the drive output (R6), the limits (R12), the choice of motion
(R13 … R15), grade and plan application (R86, R87, R183), the taking and the abort of a standardization (R47, R54),
park override (R20, R21), homing (R11) and FAULT (R9). -/

namespace Sys2Proof.Machine

/-! ### Drive output (R6, R7) -/

/-- The 12-bit two's-complement word of a drive command. -/
def driveWord (v : Int) : BitVec 12 := BitVec.ofInt 12 v

/-- A command is put in force: its word is sent, and the stall timer follows R7. -/
def Drive.send (v : Int) (d : Drive) : Drive :=
  { d with
    out := v
    word := driveWord v
    sinceWord := 0
    stall := if v = 0 then none else if d.out = 0 then some 0 else d.stall }

/-- R6: at the end of an event the wanted command is sent at once, unless a dwell runs or its sign is opposite to the
one in force, which starts a dwell at zero. -/
def Drive.settle (d : Drive) : Drive :=
  match d.dwell with
  | some _ => d
  | none =>
    if d.wanted = d.out then d
    else if d.wanted * d.out < 0 then { d.send 0 with dwell := some ⟨0, 0⟩ }
    else d.send d.wanted

def State.settleDrive (s : State) : State := s.withDrive s.drive.settle

/-- The command the carriage state calls for. -/
def want (v : Int) (s : State) : State := s.withDrive { s.drive with wanted := v }

/-! ### Carriage state -/

def fixedPeriodFresh : FixedPeriod := ⟨0, PerProp.const ⟨0, 0⟩⟩

/-- R128: the fixed-point period opens at the entry into FIXED and closes when the carriage leaves it. -/
def periodAfter (old new : CarriageState) (p : Option FixedPeriod) : Option FixedPeriod :=
  if new = .fixed then (if old = .fixed then p else some fixedPeriodFresh)
  else if old = .fixed then none else p

/-- The carriage enters a state. -/
def setCarriage (st : CarriageState) (s : State) : State :=
  (s.withPen { s.pen with period := periodAfter s.cmu.state st s.pen.period }).withCmu { s.cmu with state := st }

/-- R22, R105, R110: a traverse in progress is aborted. The EBM and the PEN discard what they hold of it, and the
retraverse is owed. -/
def abortTraverse (s : State) : State :=
  if s.cmu.inTraverse then
    ((s.withCmu { s.cmu with retraverseOwed := true }).withPen { s.pen with window := none }).withEbm
      { s.ebm with watch := { watchClosed with dir := s.ebm.watch.dir } }
  else s

/-! ### Grade application (R86, R87) -/

/-- R87.3: the filtered profile emptied to a bin count. -/
def filterEmpty (n : Nat) : Filter := ⟨some n, PerProp.const (List.replicate n none)⟩

/-- R87: a grade is applied. The limit points are returned in the order of their numbers (log entry 10). -/
def applyGrade (k : BankNo) (s : State) : State :=
  match s.rbs.banks[k] with
  | none => s
  | some b =>
    let sameN := s.rbs.activeBank.elim false (fun old => old.n == b.n)
    let s := s.withRbs { s.rbs with active := some k, settle := b.settle }
    let s := s.withPen { s.pen with
      filter := if sameN then s.pen.filter else filterEmpty b.n
      period := if s.cmu.state = .fixed then s.pen.period.map (fun _ => fixedPeriodFresh) else s.pen.period }
    s.returnAlarms limitPoints

/-- R86: the pending grade is applied and cleared. -/
def applyPendingGrade (s : State) : State :=
  match s.rbs.pending with
  | none => s
  | some (k, _) => applyGrade k (s.withRbs { s.rbs with pending := none })

/-! ### The due flag and plan application (R44, R183) -/

/-- R44: setting the due flag; the due age starts from 0 when it passes from clear to set. -/
def setDue (s : State) : State :=
  if s.osq.due then s else s.withOsq { s.osq with due := true, dueAge := 0 }

/-- R44: the interval cause, by the active plan. -/
def intervalCheck (s : State) : State :=
  if s.cmu.plan.interval ≠ 0 ∧ s.cmu.plan.interval ≤ s.osq.scanCount then setDue s else s

/-- R183.1 to R183.3: the CTA makes a plan active. -/
def applyPlan (p : ScanPlan) (s : State) : State :=
  intervalCheck ((s.withCmu { s.cmu with plan := p }).withCta { s.cta with pending := none })

/-- The CTA applies the pending plan, if there is one. -/
def applyPendingPlan (s : State) : State :=
  match s.cta.pending with
  | none => s
  | some p => applyPlan p s

/-! ### Limits (R12) -/

/-- Raw limits of the active plan. -/
def rawLimits (s : State) : Int × Int :=
  match s.cmu.plan.policy with
  | .fixedLimits lf lb => (lf, lb)
  | .edgeFollow m => (s.ebm.ef.elim 0 (fun e => e - m), s.ebm.eb.elim (s.rbs.common.pMax : Int) (fun e => e + m))

/-- The third step: a span under 1,000 is widened and shifted back on the frame. -/
def widenLimits (pMax lf lb : Int) : Int × Int :=
  if lb - lf < 1000 then
    let d := 1000 - (lb - lf)
    let lf := lf - d / 2
    let lb := lb + (d - d / 2)
    if lf < 0 then (0, lb - lf)
    else if pMax < lb then (lf - (lb - pMax), pMax)
    else (lf, lb)
  else (lf, lb)

/-- R12: the active limits. -/
def limitsOf (s : State) : Int × Int :=
  let pMax : Int := s.rbs.common.pMax
  let r := rawLimits s
  widenLimits pMax (clampInt 0 pMax r.1) (clampInt 0 pMax r.2)

def computeLimits (s : State) : State :=
  let l := limitsOf s
  s.withCmu { s.cmu with limF := l.1, limB := l.2 }

/-! ### Travel (R14, R15) -/

/-- The direction from a position toward a target. -/
def toward (p target : Int) : Dir := if p ≤ target then .fwd else .rev

/-- The carriage is sent travelling to a target in a direction. -/
def travel (st : CarriageState) (target : Int) (d : Dir) (a : Approach) (speed : Nat) (s : State) : State :=
  let s := setCarriage st s
  want (dirSign d * speed) (s.withCmu { s.cmu with travelTarget := target, travelDir := d, approach := a })

/-- The carriage turns to a direction (R17). -/
def enterTurning (d : Dir) (s : State) : State :=
  let s := setCarriage .turning s
  want (dirSign d * s.scanSpeed) (s.withCmu { s.cmu with travelDir := d })

/-- R14: entry into TO_LIMIT, with the limits computed. -/
def goLimit (s : State) : State :=
  let s := computeLimits s
  let p := s.cmu.position
  let lf := s.cmu.limF
  let lb := s.cmu.limB
  if p < lf then travel .toLimit lf .fwd .outside s.scanSpeed s
  else if lb < p then travel .toLimit lb .rev .outside s.scanSpeed s
  else if p = lf then enterTurning .fwd s
  else if p = lb then enterTurning .rev s
  else if p - lf ≤ lb - p then travel .toLimit lf .rev .inside s.scanSpeed s
  else travel .toLimit lb .fwd .inside s.scanSpeed s

/-- The carriage comes to rest in a state: the command is zero and the skip window begins anew (R4, R15). -/
def comeToRest (st : CarriageState) (s : State) : State :=
  let s := setCarriage st s
  want 0 (s.withCmu { s.cmu with skipCount := 0 })

/-! ### Standardization (R47, R48, R54) -/

/-- R48: arrival at the standardize position. -/
def arriveStd (s : State) : State :=
  let s := comeToRest .atStd s
  s.withOsq { s.osq with step := .settle, settle := some 0 }

/-- R15: the carriage goes TO_STD; a carriage already there arrives at once. -/
def goStd (s : State) : State :=
  let target : Int := s.rbs.common.stdPos
  let s := travel .toStd target (toward s.cmu.position target) .outside s.rbs.common.maxSpeed s
  if s.cmu.position = target then arriveStd s else s

/-- An armed hold is dropped; an owed one stays owed. -/
def dropArmed (c : Cmu) : Cmu :=
  match c.hold with
  | .armed _ => { c with hold := .none }
  | _ => c

def noCandidates : PerRef (Option (BitVec 16)) := ⟨none, none, none⟩

/-- R47: what the taking of a standardization leaves before the carriage moves. The interlock (R53) lets a park override
wait, so none is left untaken. -/
def openStd (s : State) : State :=
  let s := s.withCmu { dropArmed s.cmu with turnOwed := false, overrideWait := 0 }
  s.withOsq { s.osq with step := .travel, candidates := noCandidates }

/-- R47: a standardization begins, with no traverse in progress. -/
def beginStd (s : State) : State := goStd (openStd s)

/-- R55: a standardization is taken again by a carriage that stands AT_STD: it begins with a fresh SETTLE, and the
carriage does not leave the position. -/
def retakeStd (s : State) : State := arriveStd (openStd s)

/-- R47: a due standardization is taken; from HELD mid-traverse the traverse is aborted. -/
def takeStd (s : State) : State := beginStd (abortTraverse s)

/-- R47: whether the OSQ takes a due standardization when the carriage chooses its motion. In FIXED it takes one only
when it was requested. -/
def osqTakes (s : State) : Bool :=
  s.osq.due && s.osq.step == .idle && (s.cmu.state != .fixed || s.osq.requested)

/-- R47: the due flag set, or the requested flag set, while the carriage stands at an occasion. -/
def osqOccasion (s : State) : State :=
  if osqTakes s && (s.cmu.state == .parked || s.cmu.state == .held || s.cmu.state == .fixed) then takeStd s else s

/-- R40: what ABANDONED mode makes of a channel at the abort. -/
def abandonEntry (e : SeqEntry) : SeqEntry :=
  match e.phase with
  | .doneSeen | .fetchWaiting => { e with phase := .finished }
  | _ => e

/-- R40: whether the abort makes the channel's head READY. -/
def abandonReadies (e : Option SeqEntry) : Bool :=
  e.elim false (fun x => x.phase == .doneSeen || x.phase == .fetchWaiting)

def entryFinished (e : Option SeqEntry) : Bool := e.elim true (fun x => x.phase == .finished)

/-- R39: every addressed channel is FINISHED or was taken out. -/
def Sequence.ended (q : Sequence) : Bool := q.entries.all entryFinished

def setHeadReady (hs : PerChan Head) (c : Channel) : PerChan Head := hs.set c { hs.get c with state := .ready }

/-- R40: the sequence in flight goes on in ABANDONED mode. A REFERENCE still held goes out as R35 gives (log entry 8). -/
def abandonSeq (h : Hbc) : Hbc :=
  match h.seq with
  | none => h
  | some q =>
    let q' : Sequence := { q with abandoned := true, entries := q.entries.map (Option.map abandonEntry) }
    { h with
      heads := allRefChans.foldl (fun hs c => if abandonReadies (q.entries.get c) then setHeadReady hs c.chan else hs) h.heads
      seq := if q'.ended then none else some q' }

/-- R43, R54: what a controller restart makes of the sequence in flight: it goes on in ABANDONED mode until the RESET ends
it, and the heads keep their states (log entry 32). -/
def abandonUntilReset (h : Hbc) : Hbc := { h with seq := h.seq.map (fun q => { q with abandoned := true }) }

/-- R54: a renewal is merged into the due flag and the requested flag. -/
def mergeRenewal (s : State) : State :=
  match s.osq.renewal with
  | none => s
  | some req =>
    let s := setDue s
    s.withOsq { s.osq with renewal := none, requested := s.osq.requested || req }

/-- R54: the effects of an abort on the OSQ. -/
def resetOsqStep (s : State) : State :=
  mergeRenewal (s.withOsq { s.osq with step := .idle, settle := none, candidates := noCandidates })

/-- R54: a standardization in progress is aborted; `told` is what the HBC makes of it. -/
def abortStdWith (told : Hbc → Hbc) (s : State) : State :=
  if s.osq.step = .idle then s else resetOsqStep (s.withHbc (told s.hbc))

/-- R40, R54: the abort at a motion FAULT. -/
def abortStd (s : State) : State := abortStdWith abandonSeq s

/-! ### The choice of motion (R13, R15) -/

/-- R15: arrival at PARKED. The pending grade is applied at the entry (R86), the pending plan at the boundary. -/
def arriveParked (next : State → State) (s : State) : State :=
  next (applyPendingPlan (applyPendingGrade (comeToRest .parked s)))

/-- TO_PARK, or PARKED stays PARKED (R13). -/
def goPark (next : State → State) (s : State) : State :=
  if s.cmu.state = .parked then s
  else
    let target : Int := s.rbs.common.parkPos
    let s := travel .toPark target (toward s.cmu.position target) .outside s.rbs.common.maxSpeed s
    if s.cmu.position = target then arriveParked next s else s

/-- R15: arrival at FIXED. The carriage stays when the OSQ takes nothing and the plan is FIXED at the same position. -/
def arriveFixed (next : State → State) (s : State) : State :=
  let was := s.cmu.plan.fixedPos
  let s := applyPendingPlan (applyPendingGrade (comeToRest .fixed s))
  if osqTakes s then takeStd s
  else if s.cmu.plan.mode = .fixed ∧ s.cmu.plan.fixedPos = was then s
  else next s

/-- R15: TO_FIXED, the fixed position clamped to the frame at entry. -/
def goFixed (next : State → State) (s : State) : State :=
  let target : Int := min s.cmu.plan.fixedPos s.rbs.common.pMax
  let s := travel .toFixed target (toward s.cmu.position target) .outside s.scanSpeed s
  if s.cmu.position = target then arriveFixed next s else s

/-- R13: the next motion, under park override as the CMU has taken it (R22, log entry 7). The bound counts the arrivals
at once that one choice may pass through. -/
def nextMotion : Nat → State → State
  | 0, s => s
  | n + 1, s =>
    if osqTakes s then takeStd s
    else if s.overrideTaken then goPark (nextMotion n) s
    else
      match s.cmu.plan.mode with
      | .park => goPark (nextMotion n) s
      | .fixed => goFixed (nextMotion n) s
      | .scan => goLimit s

/-- The bound of `nextMotion`: no more than three arrivals follow one another at once (log entry 9). -/
def motionBound : Nat := 6

def nextMove (s : State) : State := nextMotion motionBound s

/-! ### Park override (R20, R21) -/

/-- The states park override sends TO_PARK (R20). -/
def overrideMoves : CarriageState → Bool
  | .traverse | .turning | .toLimit | .toFixed | .fixed | .held => true
  | _ => false

/-- R20: the CMU takes an active override. -/
def takeOverride (s : State) : State :=
  let s := s.withCmu { s.cmu with overrideWait := 0 }
  if s.override && overrideMoves s.cmu.state then
    let s := abortTraverse s
    goPark nextMove (s.withCmu { s.cmu with hold := .none, turnOwed := false })
  else s

/-- R22, R127: the MSM's override reaches the CMU in this step, or waits while the CMU takes encoder counts (log entry
7). -/
def raiseOverride (o : OverrideOrder) (s : State) : State :=
  match o with
  | .overrideFirst => takeOverride s
  | .countsFirst more =>
    if overrideMoves s.cmu.state then s.withCmu { s.cmu with overrideWait := more + 1 } else s

/-- R21: a source has been cleared; `was` is whether override was active before. -/
def overrideCleared (was : Bool) (s : State) : State :=
  if was && !s.override then
    let s := if s.cmu.plan.resume then s else s.withCmu { s.cmu with plan := { s.cmu.plan with mode := .park } }
    if s.cmu.state = .parked then nextMove s else s
  else s

/-! ### Homing (R11) -/

/-- R11: HOME is found. -/
def arriveHome (s : State) : State :=
  let s := s.withCmu { s.cmu with position := 0, homed := true, skipCount := 0 }
  nextMove (applyPendingPlan (want 0 s))

/-- R11: the carriage enters HOMING; a HOME level already confirmed active is found at the entry. -/
def enterHoming (s : State) : State :=
  let s := want (-(s.rbs.common.homeSpeed : Int)) (setCarriage .homing s)
  if s.cmu.home.confirmed = some true then arriveHome s else s

/-! ### FAULT (R9) -/

/-- R9: the drive at the entry into FAULT: zero at once, with no dwell, the stall timer stopped. -/
def Drive.halt (d : Drive) : Drive :=
  { (if d.out = 0 then d else d.send 0) with wanted := 0, dwell := none, stall := none }

/-- R9: the carriage enters FAULT. In FAULT the recorded cause stays, and cause ENCODER still clears the homed flag. -/
def enterFault (cause : FaultCause) (s : State) : State :=
  let keepHomed := cause != .encoder
  if s.cmu.state = .fault then s.withCmu { s.cmu with homed := s.cmu.homed && keepHomed }
  else
    let s := abortTraverse s
    let s := (setCarriage .fault s).withDrive s.drive.halt
    let s := s.withCmu { s.cmu with
      homed := s.cmu.homed && keepHomed
      faultCause := cause
      hold := .none
      turnOwed := false
      motionFault := true
      overrideWait := 0 }
    applyPendingGrade (abortStd (s.activate ptMotionFault))

end Sys2Proof.Machine
end

