-- ==== Sys2Proof/Machine/Monitor.lean ====
section
/-! DEFINITION. The Machine State Monitor: the break log (R155 … R157), the changes of the machine state (R149 … R154),
the line condition (R150) and the comparison with the crawl speed (R144). -/

namespace Sys2Proof.Machine

/-! ### The break log -/

/-- A change of the newest record. -/
def updNewest (f : BreakRecord → BreakRecord) (m : Msm) : Msm :=
  match m.log with
  | [] => m
  | r :: rest => { m with log := f r :: rest }

/-- R157: an open record records the first threading of its break. -/
def markThread (c : Cycle) (r : BreakRecord) : BreakRecord :=
  if r.isOpen && r.threadAt.isNone then { r with threadAt := some c } else r

/-- R152, R157: an open record records RUN restored and closes. -/
def markRun (n : ScanNo) (r : BreakRecord) : BreakRecord :=
  if r.isOpen then { r with runAt := some n, isOpen := false } else r

/-- R157: a record closed by another break, with RUN restored as it stands. -/
def closeRecord (r : BreakRecord) : BreakRecord := { r with isOpen := false }

/-- R155: a new record at the head of the log, which keeps eight. From THREAD the record before it is closed first. -/
def openRecord (f : FirstOut) (m : Msm) : Msm :=
  let m := if m.state = .thread then updNewest closeRecord m else m
  let r : BreakRecord := ⟨m.nextBreak, f, [], 0, none, none, none, true⟩
  { m with log := (r :: m.log).take 8, nextBreak := m.nextBreak + 1 }

/-- R156: a cause taken in BREAK goes into the newest record while that is open. -/
def appendCause (c : LaterCause) (m : Msm) : Msm :=
  updNewest (fun r =>
    if !r.isOpen then r
    else if c.kind = r.first.kind ∨ c.kind ∈ r.later.map LaterCause.kind then r
    else if r.later.length < 4 then { r with later := r.later ++ [c] }
    else { r with overflow := satInc 255 r.overflow }) m

/-! ### Changes of the machine state -/

/-- R153: the MSM sets its park-override source. -/
def setMsmSource (o : OverrideOrder) (s : State) : State := raiseOverride o (s.withMsm { s.msm with source := true })

/-- A park override that waited for encoder counts is taken before anything else of the CMU (R22, R127; log entry 7). -/
def flushOverride (s : State) : State := if s.cmu.overrideUntaken then (takeOverride s).settleDrive else s

/-- R153: the MSM clears its park-override source. -/
def clearMsmSource (s : State) : State :=
  let s := flushOverride s
  overrideCleared s.override (s.withMsm { s.msm with source := false })

/-- R154: a STATE notice to every ACTIVE port. -/
def stateNotice (new old : MachineState) (cause : StateCause) (s : State) : State :=
  s.notifyAll kState (statePayload new old cause (s.msm.log.head?.map BreakRecord.number) s.hbc.cycle)

/-- R152 … R154: the machine state changes. The record is marked, the STATE notice goes out, the BREAK point moves, and
the park-override source last (log entry 10). -/
def changeState (new : MachineState) (cause : StateCause) (o : OverrideOrder) (s : State) : State :=
  let old := s.msm.state
  let s := s.withMsm { s.msm with state := new, widthPasses := if new = .thread then s.msm.widthPasses else 0 }
  match new with
  | .down => setMsmSource o ((stateNotice .down old cause s).returnAlarm ptBreak)
  | .brk => setMsmSource o ((stateNotice .brk old cause s).activate ptBreak)
  | .thread =>
    let s := s.withMsm (updNewest (markThread s.hbc.cycle) s.msm)
    clearMsmSource (stateNotice .thread old cause s)
  | .run =>
    let s := s.withMsm (updNewest (markRun s.pen.counter) s.msm)
    clearMsmSource ((stateNotice .run old cause s).returnAlarm ptBreak).unsuppressAll

/-- R149, R156: a break cause is taken, by the machine state. -/
def takeCause (kind : CauseKind) (pos : Int) (c : Cycle) (cause : StateCause) (o : OverrideOrder) (s : State) : State :=
  match s.msm.state with
  | .run | .thread => changeState .brk cause o (s.withMsm (openRecord ⟨kind, pos, s.pen.counter, c⟩ s.msm))
  | .brk => s.withMsm (appendCause ⟨kind, pos, c⟩ s.msm)
  | .down => s

/-- R143, R155: a line cause, at the position and cycle of the moment. -/
def lineCause (l : BreakLine) (o : OverrideOrder) (s : State) : State :=
  takeCause (.line l) s.cmu.position s.hbc.cycle (.line l) o s

/-! ### The line condition (R150) -/

/-- At least one line is enabled and every enabled line reads present. -/
def lineCondition (b : CommonBank) (m : Msm) : Bool :=
  allLines.any (fun l => b.lineEnable.get l) &&
  allLines.all (fun l => !b.lineEnable.get l || lineReading b m l == .present)

/-- The test of the line condition: THREAD when it holds. -/
def testLines (s : State) : State :=
  if lineCondition s.rbs.common s.msm then changeState .thread .linesPresent .overrideFirst s else s

/-- R143: a change of one line's reading. A change to absent is a line cause. A change to present or to none, taken in
BREAK, tests the line condition. -/
def readingChanged (l : BreakLine) (was : Reading) (o : OverrideOrder) (s : State) : State :=
  let now := lineReading s.rbs.common s.msm l
  if now = was then s
  else if now = .absent then lineCause l o s
  else if s.msm.state = .brk then testLines s
  else s

/-- R144: the machine speed is compared with the crawl speed. -/
def compareSpeed (cause : StateCause) (o : OverrideOrder) (s : State) : State :=
  let below := s.msm.speed < s.rbs.common.crawl
  if s.msm.state = .down then
    if below then s else testLines (changeState .brk cause o s)
  else
    if below then changeState .down cause o s else s

end Sys2Proof.Machine
end

