-- ==== Sys2Proof/Machine/Profile.lean ====
section
/-! DEFINITION. The bin map (R100 … R103), finalization, statistics and the filtered profile (R112 … R125), the profile
store (R117 … R119), edge tracking (R96 … R98), zone outputs (R133 … R137), limit evaluation (R172), the width test
(R151) and the push reports (R205, R206): what happens to the profile at a traverse end. -/

namespace Sys2Proof.Machine

/-! ### The bin map (R100, R102, R103) -/

/-- R100: the bin map of the active bank and the tracked edges. -/
def buildMap (bank : Option GradeBank) (ef eb : Option Int) : BinMap :=
  match bank with
  | none => ⟨none, none, ef, eb, none, none, none, false, .noBank⟩
  | some b =>
    match ef, eb with
    | some f, some e =>
      let start := f + b.guard
      let stop := e - b.guard
      let span := stop - start
      let narrow := span < 10 * b.n
      ⟨some b.n, some b.guard, ef, eb, some start, some stop, some span, !narrow, if narrow then .narrow else .none⟩
    | _, _ => ⟨some b.n, some b.guard, ef, eb, none, none, none, false, .edgeUnset⟩

/-- R102: the bin of a position under a map, if it lies in one. -/
def binOf (m : BinMap) (p : Int) : Option Nat :=
  match m.valid, m.n, m.start, m.stop, m.span with
  | true, some n, some start, some stop, some span =>
    if start ≤ p ∧ p < stop then some ((p - start) * n / span).toNat else none
  | _, _, _, _, _ => none

/-- R103: the boundary points b_0 … b_N of a valid map, ascending. -/
def boundaries (m : BinMap) : List Int :=
  match m.valid, m.n, m.start, m.span with
  | true, some n, some start, some span =>
    (List.range (n + 1)).map (fun i => start + (ceilDiv (i * span.toNat) n : Nat))
  | _, _, _, _ => []

/-! ### Finalization (R111, R112) -/

/-- R112: one bin, from its accumulator and its previous value. -/
def finalizeBin (m : Nat) (acc : Acc) (prev : Option CarryBin) : BinOut × CarryBin :=
  if m ≤ acc.count then
    let v := roundHalfUp acc.sum acc.count
    (⟨.valid, some v, acc.clamp⟩, ⟨some v, 0⟩)
  else
    match prev.bind CarryBin.value, prev.elim 0 CarryBin.age + 1 with
    | some v, age => if age < 4 then (⟨.held, some v, acc.clamp⟩, ⟨some v, age⟩)
                     else (⟨.invalid, none, acc.clamp⟩, ⟨none, 0⟩)
    | none, _ => (⟨.invalid, none, acc.clamp⟩, ⟨none, 0⟩)

/-- The bins of one property, against the carry record of the same bin count. -/
def finalizeBins (m : Nat) : List Acc → List CarryBin → List (BinOut × CarryBin)
  | [], _ => []
  | a :: as, [] => finalizeBin m a none :: finalizeBins m as []
  | a :: as, c :: cs => finalizeBin m a (some c) :: finalizeBins m as cs

/-! ### Statistics (R113 … R115) -/

/-- The values of the VALID bins. -/
def validValues (bins : List BinOut) : List Nat :=
  bins.filterMap (fun b => if b.status = .valid then b.value else none)

/-- The statistics of one property under a bin count, FROZEN still to be decided. -/
def statsOf (n : Option Nat) (bins : List BinOut) : PropStats :=
  let vs := validValues bins
  let k := vs.length
  let poor := n.elim true (fun n => k < ceilDiv n 2)
  if k = 0 then ⟨none, none, 0, poor, true⟩
  else
    let a := roundHalfUp vs.sum k
    let var := roundHalfUp ((vs.map (fun (v : Nat) => ((v : Int) - a).natAbs ^ 2)).sum) k
    ⟨some a, some (2 * floorSqrt var), k, poor, true⟩

/-! ### The filtered profile (R124, R125) -/

/-- One filter bin from one finalized bin. -/
def filterBin (w : Nat) (f : Option Nat) (b : BinOut) : Option Nat :=
  if b.status = .valid then
    match b.value, f with
    | some v, none => some v
    | some v, some x => some ((x : Int) + roundHalfAway (((v : Int) - x) * w) 256).toNat
    | none, f => f
  else f

/-- The filter of one property: bin by bin, as far as both lists go. -/
def filterBins (w : Nat) : List (Option Nat) → List BinOut → List (Option Nat)
  | f :: fs, b :: bs => filterBin w f b :: filterBins w fs bs
  | fs, _ => fs

/-- R125: the average of the SEEDED bins. -/
def filterAverage (fs : List (Option Nat)) : Option Nat :=
  let vs := fs.filterMap id
  if vs.length = 0 then none else some (roundHalfUp vs.sum vs.length)

/-! ### The profile store (R117 … R119) -/

/-- How many scans ago a scan number was given out, the newest having age 1 (R118). -/
def scanAge (counter n : ScanNo) : Nat := (counter - n).toNat

def isPinned (pins : PerPort (Option ScanNo)) (n : ScanNo) : Bool := allPorts.any (fun p => pins.get p == some n)

/-- The age of a slot that may be taken, if it holds a generation and passes the test. -/
def slotAge (p : Pen) (test : Generation → Bool) (i : Fin 3) : Option Nat :=
  (p.slots[i]).bind (fun g => if test g then some (scanAge p.counter g.scan) else none)

/-- The oldest slot that passes a test. -/
def oldestSlot (p : Pen) (test : Generation → Bool) : Option (Fin 3) :=
  (List.finRange 3).foldl (fun best i =>
    match slotAge p test i, best with
    | none, _ => best
    | some _, none => some i
    | some a, some j => if (slotAge p test j).elim true (fun b => b < a) then some i else best) none

/-- R119: the slot a publication takes. -/
def takeSlot (p : Pen) : Fin 3 :=
  match (List.finRange 3).find? (fun i => (p.slots[i]).isNone) with
  | some i => i
  | none =>
    match oldestSlot p (fun g => !isPinned p.pins g.scan) with
    | some i => i
    | none => (oldestSlot p (fun _ => true)).getD 0

/-- R119, R203: a port whose pin is broken ends its stream with a final chunk. -/
def endStream (p : PortState) : PortState :=
  match p.stream with
  | .running r => { p with stream := .ending r }
  | _ => p

/-- R119: every pin on a scan is broken. -/
def breakPins (n : ScanNo) (s : State) : State :=
  let hit (p : Port) : Bool := s.pen.pins.get p == some n
  let upd (p : Port) (ps : PortState) : PortState := if hit p then endStream ps else ps
  let clear (p : Port) : Option ScanNo := if hit p then none else s.pen.pins.get p
  (s.withPen { s.pen with pins := ⟨clear .quality, clear .machine, clear .actuator⟩ }).withPorts
    ⟨upd .quality s.ports.quality, upd .machine s.ports.machine, upd .actuator s.ports.actuator⟩

/-- The generation a publication forms and the filter and carry record it leaves (R112 … R117, R124, R125). -/
def formGeneration (s : State) (w : Window) : Generation × Filter × Carry :=
  let bank := w.ctx.bank.bind (fun k => s.rbs.banks[k])
  let m := bank.elim 1 GradeBank.minSamples
  let weight := bank.elim 0 GradeBank.weight
  let carry := s.pen.carry
  let prev := if carry.n.isSome && carry.n == w.ctx.map.n then carry.bins else PerProp.const []
  let fin := if w.ctx.map.n.isSome then PerProp.map2 (finalizeBins m) w.accs prev else PerProp.const []
  let bins := fin.map (List.map Prod.fst)
  let stats := bins.map (statsOf w.ctx.map.n)
  let stats := stats.map (fun st => { st with frozen := !(s.msm.state == .run && !st.poor && w.ctx.map.valid) })
  let filt (p : Prop4) : List (Option Nat) :=
    if (stats.get p).frozen then s.pen.filter.bins.get p
    else filterBins weight (s.pen.filter.bins.get p) (bins.get p)
  let filter : Filter := { s.pen.filter with bins := ⟨filt .bw, filt .moi, filt .cal, filt .dry⟩ }
  let g : Generation :=
    { scan := s.pen.counter
      dir := w.ctx.dir
      startCycle := w.ctx.startCycle
      endCycle := s.hbc.cycle
      machine := s.msm.state
      bank := w.ctx.bank
      refs := w.ctx.refs
      map := w.ctx.map
      retraverse := w.ctx.retraverse
      uncomp := w.uncomp
      stats := stats
      bins := bins
      filter := if w.ctx.map.n.isSome then some (filter.bins.map (fun fs => ⟨filterAverage fs, fs⟩)) else none }
  (g, filter, if w.ctx.map.n.isSome then ⟨w.ctx.map.n, fin.map (List.map Prod.snd)⟩ else carry)

/-- R117: the publication of an open window. -/
def publish (w : Window) (s : State) : Generation × State :=
  let r := formGeneration s w
  let slot := takeSlot s.pen
  let s := (s.pen.slots[slot]).elim s (fun old => breakPins old.scan s)
  (r.1, s.withPen { s.pen with
    window := none
    slots := s.pen.slots.set slot (some r.1)
    counter := s.pen.counter + 1
    lastScan := some s.pen.counter
    filter := r.2.1
    carry := r.2.2 })

/-! ### Edge tracking (R96 … R98) -/

/-- The tracking step of one side: tracked edge, jump count and outcome after it. -/
def trackSide (tol : Option Nat) (capture edge : Option Int) (jumps : Nat) : Option Int × Nat × SideOutcome :=
  match capture with
  | none => (edge, jumps, .none)
  | some c =>
    match edge, tol with
    | some e, some t =>
      if (c - e).natAbs ≤ t then (some c, 0, .accepted)
      else if jumps < 2 then (some e, jumps + 1, .jump)
      else (some c, 0, .accepted)
    | _, _ => (some c, 0, .accepted)

/-- R97: EDGE JUMP of a side follows its outcome. -/
def jumpAlarm (i : PointNo) (o : SideOutcome) (s : State) : State :=
  match o with
  | .none => s
  | .accepted => s.returnAlarm i
  | .jump => s.activate i

/-- R91, R93: the watch closes at a traverse end and decides covered at end. What it holds stays until it opens again. -/
def closeWatch (w : EdgeWatch) : EdgeWatch := { w with opened := false, coveredEnd := w.previous == some true }

/-- R91, R96, R98: the watch closes, the tracking step, the edge report, then the EDGE JUMP points, the front side's before
the back side's (log entry 10). -/
def trackEdges (s : State) : State :=
  let w := closeWatch s.ebm.watch
  let fwd := w.dir == .fwd
  let front := if fwd then w.leading else w.trailing
  let back := if fwd then w.trailing else w.leading
  let tol := s.rbs.activeBank.map GradeBank.tolerance
  let f := trackSide tol front s.ebm.ef s.ebm.jumpF
  let b := trackSide tol back s.ebm.eb s.ebm.jumpB
  let report : EdgeReport :=
    ⟨w.dir, front, back, if fwd then w.coveredStart else w.coveredEnd, if fwd then w.coveredEnd else w.coveredStart,
      w.interior, f.2.2, b.2.2⟩
  let s := s.withEbm { s.ebm with
    watch := w
    ef := f.1
    jumpF := f.2.1
    eb := b.1
    jumpB := b.2.1
    report := some report }
  jumpAlarm ptEdgeJumpBack b.2.2 (jumpAlarm ptEdgeJumpFront f.2.2 s)

/-! ### Zone outputs (R133 … R137) -/

/-- R134: the centre fraction of bin `i` of `n`. -/
def centre (n i : Nat) : Nat := (2 * i + 1) * 65536 / (2 * n)

/-- R134: bin `i` belongs to a zone when its centre lies in the zone's span. -/
def inZone (n : Nat) (z : Zone) (i : Nat) : Bool := z.a ≤ centre n i && centre n i < z.b

/-- The filtered deviations of the SEEDED member bins of a zone. -/
def memberDeviations (n : Nat) (z : Zone) (avg : Nat) (bins : List (Option Nat)) : List Int :=
  bins.zipIdx.filterMap (fun x => if inZone n z x.2 then x.1.map (fun v => (v : Int) - avg) else none)

/-- R136, R137: one zone output. -/
def zoneOutput (n : Nat) (avg : Nat) (bins : List (Option Nat)) (z : Zone) (before : ZoneOut) : ZoneOut :=
  let ds := memberDeviations n z avg bins
  if ds.length = 0 then
    match before with
    | .none => .none
    | .valid v => .held v
    | .held v => .held v
  else .valid (roundHalfAway ds.sum ds.length)

/-- Zone by zone; a zone without an output before it starts from NONE. -/
def zoneOutputs (n : Nat) (avg : Nat) (bins : List (Option Nat)) : List Zone → List ZoneOut → List ZoneOut
  | [], _ => []
  | z :: zs, [] => zoneOutput n avg bins z .none :: zoneOutputs n avg bins zs []
  | z :: zs, o :: os => zoneOutput n avg bins z o :: zoneOutputs n avg bins zs os

/-- R133: a staged map becomes the active map, its outputs NONE. -/
def activateStaged (z : ZoneSide) : ZoneSide :=
  match z.staged with
  | none => z
  | some m => { z with active := some m, staged := none, outs := m.zones.map (fun _ => .none), lastScan := none }

/-- R135: the outputs of an active map are computed when the filter of its property was updated. -/
def computeZones (g : Generation) (z : ZoneSide) : ZoneSide :=
  match z.active with
  | none => z
  | some m =>
    if (g.stats.get m.prop).frozen then { z with frozen := true }
    else
      match g.filter, g.map.n with
      | some fc, some n =>
        let c := fc.get m.prop
        { z with
          outs := zoneOutputs n (c.avg.getD 0) c.bins m.zones z.outs
          lastScan := some g.scan
          frozen := false }
      | _, _ => { z with frozen := true }

/-- R133, R135: the AZM takes a publication. -/
def azmPublish (g : Generation) (a : Azm) : Azm :=
  ⟨computeZones g (activateStaged a.a), computeZones g (activateStaged a.b)⟩

/-! ### Limit evaluation (R88, R172) -/

/-- The three points of one property, when it is not POOR. -/
def evaluateProp (b : GradeBank) (g : Generation) (s : State) (p : Prop4) : State :=
  let st := g.stats.get p
  let l := b.limits.get p
  if st.poor then s
  else
    match st.avg, st.spread with
    | some a, some sp =>
      ((s.setAlarm (ptHigh p) (decide (l.high < a))).setAlarm (ptLow p) (decide (a < l.low))).setAlarm (ptSpread p)
        (decide (l.spread < sp))
    | _, _ => s

/-- R88, R172: the ALT takes a generation. A RUN publication is evaluated when the settle-scan count is 0, and lowers it
otherwise. -/
def evaluateLimits (g : Generation) (s : State) : State :=
  if g.machine = .run then
    if s.rbs.settle = 0 then
      match s.rbs.activeBank with
      | some b => allProps.foldl (evaluateProp b g) s
      | none => s
    else s.withRbs { s.rbs with settle := s.rbs.settle - 1 }
  else s

/-! ### The MSM at a traverse end (R148, R151) -/

/-- R151: the width test on an edge report and a nominal sheet width. -/
def widthOk (report : Option EdgeReport) (bank : Option GradeBank) : Bool :=
  match report, bank with
  | some r, some b =>
    match r.front, r.back with
    | some f, some e => 9 * (b.width : Int) ≤ (e - f) * 10
    | _, _ => false
  | _, _ => false

/-- R151: the MSM takes a generation. -/
def widthTest (g : Generation) (s : State) : State :=
  if g.machine = .thread ∧ s.msm.state = .thread then
    if widthOk s.ebm.report s.rbs.activeBank then
      if s.msm.widthPasses = 0 then s.withMsm { s.msm with widthPasses := 1 }
      else changeState .run .widthTest .overrideFirst s
    else s.withMsm { s.msm with widthPasses := 0 }
  else s

/-- R148: HOLE is returned at a traverse end that found none. -/
def returnHole (s : State) : State := if s.msm.holeSeen then s else s.returnAlarm ptHole

/-! ### Push reports (R205, R206) -/

/-- The kind and body of the report of a descriptor. -/
def reportOf (g : Generation) (a : Azm) (d : Descriptor) : Byte × List Byte :=
  match d.form with
  | .summary => (kPushSummary, summaryBody g)
  | .zoneA => (kPushZone, zoneBody g.scan .a a.a)
  | .zoneB => (kPushZone, zoneBody g.scan .b a.b)
  | .profile =>
    let n := g.map.n.getD 0
    let count := if d.first < n then min d.last (n - 1) + 1 - d.first else 0
    (kPushProfile, chunkPayload g d.prop d.pform d.enc d.shift d.first count true)

/-- R206: one descriptor is served. -/
def serveDescriptor (g : Generation) (a : Azm) (p : PortState) (i : Fin 4) : PortState :=
  let d := p.descriptors[i]
  if !d.active then p
  else if p.admitsPush then
    let r := reportOf g a d
    let m : OutMsg := ⟨.push, r.1, 0, bytesBE 1 i.val ++ bytesBE 1 d.missed ++ r.2⟩
    let ended := d.remaining == 1
    let d' := { d with missed := 0, remaining := d.remaining - 1, active := !ended }
    let p := { p with outbound := p.outbound ++ [m], descriptors := p.descriptors.set i d' }
    if ended then p.notice kEnd (bytesBE 1 i.val) else p
  else { p with descriptors := p.descriptors.set i { d with missed := satInc 255 d.missed } }

/-- R205: a port serves a publication, from descriptor 0 to descriptor 3. A SILENT port serves none. -/
def servePort (g : Generation) (a : Azm) (p : PortState) : PortState :=
  if p.silent then p else (List.finRange 4).foldl (serveDescriptor g a) p

/-- Everything that follows a publication in the event of the traverse end, up to the CTA (R117, log entry 10). -/
def afterPublish (g : Generation) (s : State) : State :=
  let s := trackEdges s
  let s := s.withAzm (azmPublish g s.azm)
  let s := widthTest g (returnHole (evaluateLimits g s))
  s.withPorts (s.ports.map (servePort g s.azm))

end Sys2Proof.Machine
end

