-- ==== Sys2Proof/Machine/Traverse.lean ====
section
/-! DEFINITION. The traverse: its start (R16), its end (R17), HOLD and STEP stops (R18, R19), the turnaround, and what
one encoder count or skip does (R3, R4, R5). -/

namespace Sys2Proof.Machine

/-- A position reaches a point in a direction of travel (R14). -/
def reached (d : Dir) (p target : Int) : Bool :=
  match d with
  | .fwd => decide (target ≤ p)
  | .rev => decide (p ≤ target)

/-- The distance ahead of a position, in a direction, at which a point lies. -/
def ahead (d : Dir) (p target : Int) : Int :=
  match d with
  | .fwd => target - p
  | .rev => p - target

/-- The point lying a distance before a boundary point, in a direction. -/
def shortOf (d : Dir) (boundary dist : Int) : Int :=
  match d with
  | .fwd => boundary - dist
  | .rev => boundary + dist

/-! ### Stops (R18, R19) -/

/-- The braking distance B of a speed (R18). -/
def brakingDistance (v : Nat) : Nat := roundHalfUp v 2

/-- The points at which a carriage crosses the boundaries of the current map in the traverse direction, in the order it
meets them: b_i moving FWD, b_i − 1 moving REV. -/
def crossings (d : Dir) (m : Option BinMap) : List Int :=
  let bs := m.elim [] boundaries
  match d with
  | .fwd => bs
  | .rev => (bs.map (fun b => b - 1)).reverse

/-- A crossing lies before the compare target, in the traverse direction. -/
def beforeTarget (c : Cmu) (b : Int) : Bool :=
  match c.compareTarget with
  | none => true
  | some t => !reached c.direction b t

/-- The first crossing at a distance of at least `least` that lies before the compare target. -/
def stopBoundary (least : Int) (s : State) : Option Int :=
  (crossings s.cmu.direction s.ebm.map).find? (fun b =>
    decide (least ≤ ahead s.cmu.direction s.cmu.position b) && beforeTarget s.cmu b)

/-- R18: the stop of a HOLD taken at this position. -/
def holdStop (s : State) : Option HoldStop :=
  let b : Int := brakingDistance s.scanSpeed
  (stopBoundary b s).map (fun x => ⟨x, shortOf s.cmu.direction x b⟩)

/-- R19: the step stop of this position. -/
def stepStop (s : State) : Option HoldStop :=
  let b : Int := brakingDistance s.scanSpeed
  (stopBoundary 1 s).map (fun x =>
    ⟨x, shortOf s.cmu.direction x (min b (ahead s.cmu.direction s.cmu.position x / 2))⟩)

/-- The command point of an armed hold is reached: HELD mid-traverse, where a due standardization may be taken (R18,
R47). -/
def checkCommandPoint (s : State) : State :=
  match s.cmu.hold with
  | .armed (some x) =>
    if s.cmu.state = .traverse ∧ reached s.cmu.direction s.cmu.position x.command then
      osqOccasion (want 0 (setCarriage .held (s.withCmu { s.cmu with hold := .none, turnOwed := false })))
    else s
  | _ => s

/-- R16: an owed hold is armed at a traverse start, by its kind. -/
def armOwed (s : State) : State :=
  match s.cmu.hold with
  | .owed .hold => s.withCmu { s.cmu with hold := .armed (holdStop s) }
  | .owed .step => s.withCmu { s.cmu with hold := .armed (stepStop s) }
  | _ => s

/-! ### Traverse start (R16) -/

/-- R91: the edge watch opens. -/
def openWatch (d : Dir) : EdgeWatch := { watchClosed with opened := true, dir := d }

/-- R100, R101: the bin map of the traverse, and NARROW MAP after its validity. -/
def startMap (d : Dir) (s : State) : State :=
  let m := buildMap s.rbs.activeBank s.ebm.ef s.ebm.eb
  (s.withEbm { s.ebm with watch := openWatch d, map := some m }).setAlarm ptNarrowMap (!m.valid)

/-- R107: the accumulation window of a traverse whose map has `n` bins, with every accumulator zero. -/
def freshWindow (ctx : TraverseCtx) : Window :=
  ⟨ctx, PerProp.const (List.replicate (ctx.map.n.getD 0) ⟨0, 0, 0⟩), 0⟩

/-- R107: the PEN opens the accumulation window and records the traverse context. -/
def startWindow (d : Dir) (retraverse : Bool) (s : State) : State :=
  match s.ebm.map with
  | none => s
  | some m => s.withPen { s.pen with
      window := some (freshWindow ⟨s.hbc.cycle, d, retraverse, s.rbs.active, s.scv.refs, m⟩) }

/-- R16: the CMU's own part of a traverse start. -/
def startCmu (d : Dir) (c : Cmu) : Cmu :=
  { c with
    direction := d
    skipCount := 0
    compareTarget := some (match d with | .fwd => c.limB | .rev => c.limF)
    retraverseOwed := false }

/-- R16: the traverse start, in a direction. The count of the start is not compared with the compare target; the next one
is the first that may end the traverse (R17; log entry 37). -/
def traverseStart (d : Dir) (s : State) : State :=
  let retraverse := s.cmu.retraverseOwed
  let s := setCarriage .traverse s
  let s := want (dirSign d * s.scanSpeed) (s.withCmu (startCmu d s.cmu))
  let s := startWindow d retraverse (startMap d (applyPendingGrade s))
  let s := s.withMsm { s.msm with holeSeen := false }
  checkCommandPoint (armOwed s)

/-! ### Traverse end (R17) -/

/-- R117: the publication of the traverse, and what follows from it in the other blocks. -/
def publishTraverse (s : State) : State :=
  match s.pen.window with
  | none => s
  | some w =>
    let r := publish w s
    afterPublish r.1 r.2

/-- R44: the OSQ counts a completed scan and compares the interval. -/
def countScan (s : State) : State :=
  intervalCheck (s.withOsq { s.osq with scanCount := satInc 255 s.osq.scanCount })

/-- R17.5: the turnaround, with the limits of R12: TURNING, or TO_LIMIT where the other limit is not ahead. -/
def turnaround (s : State) : State :=
  let s := computeLimits s
  let p := s.cmu.position
  match s.cmu.direction with
  | .fwd => if s.cmu.limF < p then enterTurning .rev s else goLimit s
  | .rev => if p < s.cmu.limB then enterTurning .fwd s else goLimit s

/-- R17.2: HELD at the limit, with the turnaround owed; a pending grade is applied at the entry (R86). -/
def holdAtLimit (s : State) : State :=
  applyPendingGrade (want 0 (setCarriage .held (s.withCmu { s.cmu with hold := .none, turnOwed := true })))

def isArmed : Hold → Bool
  | .armed _ => true
  | _ => false

/-- R17: the CMU's choice at a traverse end. -/
def chooseAtEnd (s : State) : State :=
  if osqTakes s then beginStd s
  else if isArmed s.cmu.hold then holdAtLimit s
  else
    match s.cmu.plan.mode with
    | .park => goPark nextMove s
    | .fixed => goFixed nextMove s
    | .scan => turnaround s

/-- R17: the traverse end. -/
def traverseEnd (s : State) : State :=
  chooseAtEnd (computeLimits (countScan (applyPendingPlan (publishTraverse (want 0 s)))))

/-- R19: a carriage sent on mid-traverse that stands at or beyond the compare target ends the traverse at once. -/
def checkTarget (s : State) : State :=
  match s.cmu.compareTarget with
  | some t => if reached s.cmu.direction s.cmu.position t then traverseEnd s else s
  | none => s

/-! ### Encoder counts and skips -/

/-- R3: the phase pair one step on in FWD order. -/
def stepFwd (p : Phase) : Phase := ⟨p.encb, !p.enca⟩

/-- R3: the phase pair one step back. -/
def stepRev (p : Phase) : Phase := ⟨!p.encb, p.enca⟩

def stepPhase : Dir → Phase → Phase
  | .fwd => stepFwd
  | .rev => stepRev

/-- R3, R6, R7: the count is added to the position; the dwell's quiet time and the stall timer restart. -/
def countPosition (d : Dir) (s : State) : State :=
  let c := s.cmu
  let s := s.withCmu { c with phase := stepPhase d c.phase, position := c.position + dirSign d }
  let v := s.drive
  s.withDrive { v with
    stall := v.stall.map (fun _ => 0)
    dwell := v.dwell.map (fun w => { w with sinceCount := 0 }) }

/-- R5: the position window. -/
def inWindow (pMax : Nat) (p : Int) : Bool := decide (-500 ≤ p) && decide (p ≤ (pMax : Int) + 500)

/-- R14 … R18: the arrival compares of a homed carriage at a count in direction `d`. -/
def arrivals (d : Dir) (s : State) : State :=
  let c := s.cmu
  let at_ := reached c.travelDir c.position c.travelTarget
  match c.state with
  | .toPark => if at_ then arriveParked nextMove s else s
  | .toFixed => if at_ then arriveFixed nextMove s else s
  | .toStd => if at_ then arriveStd s else s
  | .toLimit =>
    if at_ then
      match c.approach with
      | .outside => traverseStart c.travelDir s
      | .inside => enterTurning (dirOpp c.travelDir) s
    else s
  | .turning => if d = c.travelDir then traverseStart d s else s
  | .traverse =>
    if c.compareTarget.elim false (reached c.direction c.position) then traverseEnd s else checkCommandPoint s
  | .unhomed | .homing | .parked | .held | .fixed | .atStd | .fault => s

/-- R3, R5: what the CMU makes of a count. -/
def countCompares (d : Dir) (s : State) : State :=
  if s.cmu.homed then
    if inWindow s.rbs.common.pMax s.cmu.position then arrivals d s else enterFault .encoder s
  else s

/-- R22, R127: an override still untaken is taken after the last count it waits for, or after one that has changed the
carriage state; otherwise it waits for one count fewer (log entry 7). -/
def overrideAfterCount (was : CarriageState) (s : State) : State :=
  if s.cmu.state = was ∧ 2 ≤ s.cmu.overrideWait then s.withCmu { s.cmu with overrideWait := s.cmu.overrideWait - 1 }
  else flushOverride s

/-- One encoder count. -/
def encoderCount (d : Dir) (s : State) : State :=
  (overrideAfterCount s.cmu.state (countCompares d (countPosition d s))).settleDrive

/-- R4: one encoder skip. -/
def encoderSkip (s : State) : State :=
  let c := s.cmu
  let s := s.withCmu { c with phase := ⟨!c.phase.enca, !c.phase.encb⟩ }
  if c.state = .fault then s
  else
    let s := s.withCmu { s.cmu with skipCount := satInc 4 c.skipCount }
    if s.cmu.skipCount = 4 then (enterFault .encoder s).settleDrive else s

/-! ### The meanings -/

/-- ENCODER_COUNT (R3). -/
def execEncoderCount (d : Dir) (s : State) : Host.Outcome State Fault Refusal := whenReleased s (encoderCount d)

/-- ENCODER_SKIP (R4). -/
def execEncoderSkip (s : State) : Host.Outcome State Fault Refusal := whenReleased s encoderSkip

end Sys2Proof.Machine
end

