-- ==== Sys2Proof/Machine/HeadBus.lean ====
section
/-! DEFINITION. The head bus: the sorting of a sample and the slot examination (R28 … R33, R36 … R40), the reports to the
OSQ and what it makes of them (R45, R49 … R52, R55), and the start of a cycle (R26, R27, R30, R35, R38, R42). -/

namespace Sys2Proof.Machine

/-! ### Sorting (R28) -/

inductive Sorted where
  | missing
  | fault
  | good (w : UplinkWord)
deriving DecidableEq, Repr

/-- The set bits across value, flags and parity. -/
def bitsSet (w : UplinkWord) : Nat :=
  (List.range 16).countP (fun i => w.value.getLsbD i) + w.sheet.toNat + w.ack.toNat + w.busy.toNat + w.done.toNat +
  w.status.toNat + w.fault.toNat + w.parity.toNat

def parityOk (w : UplinkWord) : Bool := bitsSet w % 2 == 0

/-- R28: BUSY from a head that was asked nothing. -/
def strayBusy (st : HeadState) (w : UplinkWord) : Bool := w.busy && (st == .probing || st == .ready)

/-- R28: missing, fault or good. -/
def sortSample (st : HeadState) : Option UplinkWord → Sorted
  | none => .missing
  | some w =>
    if !parityOk w then .missing
    else if w.fault then .fault
    else if strayBusy st w then .missing
    else .good w

/-- R28: the missing run after a sample. -/
def missingAfter (k : Sorted) (m : Nat) : Nat :=
  match k with
  | .missing => satInc 16 m
  | .fault => 0
  | .good _ => 0

/-- A good sample shows a flag. -/
def shows (k : Sorted) (flag : UplinkWord → Bool) : Bool :=
  match k with
  | .good w => flag w
  | .missing => false
  | .fault => false

/-- The sample of the cycle record (R34). -/
def sampleOf (k : Sorted) : Option UplinkWord :=
  match k with
  | .good w => some w
  | .missing => none
  | .fault => none

/-! ### One head's slot -/

/-- What the examination of a slot leaves: the head, its entry in the sequence in flight, whether the head became READY
out of PROBING, and the value it handed over. -/
structure Exam where
  head    : Head
  entry   : Option SeqEntry
  readied : Bool
  value   : Option (BitVec 16)
deriving DecidableEq, Repr

/-- R33: the head enters ABSENT. -/
def goAbsent (c : AbsentCause) (hd : Head) : Head := { hd with state := .absent, cause := c }

/-- A channel still in its sequence is LOST. -/
def loseEntry (e : SeqEntry) : SeqEntry :=
  if e.phase = .finished then e else { e with phase := .finished, outcome := some .lost }

def absentExam (c : AbsentCause) (hd : Head) (e : Option SeqEntry) : Exam :=
  ⟨goAbsent c hd, e.map loseEntry, false, none⟩

def finishedReady (hd : Head) (e : SeqEntry) : Exam :=
  ⟨{ hd with state := .ready }, some { e with phase := .finished }, false, none⟩

/-- Cycles from one number to another, modulo 2^32 (R26). -/
def cyclesFrom (c now : Cycle) : Nat := (now - c).toNat

/-- R36, R37, R38, R40: the windows of the sequence in flight, for a head in service with no fault and no missing run of
16 in this slot. -/
def answerWindows (now : Cycle) (q : Sequence) (hd : Head) (e : SeqEntry) (k : Sorted) : Exam :=
  let stay : Exam := ⟨hd, some e, false, none⟩
  match e.phase with
  | .awaitingAck =>
    let n := cyclesFrom q.refCycle now
    if n = 0 then stay
    else if n ≤ 2 ∧ shows k UplinkWord.ack then ⟨{ hd with state := .busy }, some { e with phase := .measuring }, false, none⟩
    else if 2 ≤ n then absentExam .noAck hd (some e)
    else stay
  | .measuring =>
    let n := cyclesFrom q.refCycle now
    if shows k UplinkWord.done then
      if q.abandoned then finishedReady hd e
      else ⟨hd, some { e with phase := .doneSeen, outcome := some .done }, false, none⟩
    else if 2000 ≤ n then absentExam .noDone hd (some e)
    else stay
  | .awaitingStatus =>
    let m := e.fetchCycle.elim 0 (fun f => cyclesFrom f now)
    match k with
    | .good w =>
      if m = 0 then stay
      else if m ≤ 2 ∧ w.status then
        if q.abandoned then finishedReady hd e
        else ⟨{ hd with state := .ready }, some { e with phase := .finished, outcome := some (.value w.value) }, false,
              some w.value⟩
      else if 2 ≤ m then absentExam .noStatus hd (some e)
      else stay
    | .missing | .fault => if 2 ≤ m then absentExam .noStatus hd (some e) else stay
  | .doneSeen | .fetchWaiting | .finished => stay

/-- A head in READY or BUSY (R32, R36, R37, R38). A fault sample or a 16th missing one loses the head, and with it its
channel, in every slot of the sequence, those of cycles c and f before the windows too (log entry 33). -/
def examineService (now : Cycle) (q : Option Sequence) (hd : Head) (e : Option SeqEntry) (k : Sorted) : Exam :=
  match k with
  | .fault => absentExam .faultFlag hd e
  | .missing | .good _ =>
    if k = .missing ∧ hd.missing = 16 then absentExam .missingRun hd e
    else
      match q, e with
      | some q, some e => answerWindows now q hd e k
      | _, _ => ⟨hd, e, false, none⟩

/-- R31: a head in PROBING. The fourth good sample in a row makes it READY and is the first the SCV may convert, so a RESET
leaves at the least three records without its value (log entry 41). -/
def examineProbing (hd : Head) (e : Option SeqEntry) (k : Sorted) : Exam :=
  match k with
  | .good _ =>
    if 3 ≤ hd.good then ⟨{ hd with state := .ready, good := 4 }, e, true, none⟩
    else ⟨{ hd with good := hd.good + 1 }, e, false, none⟩
  | .fault => absentExam .faultFlag hd e
  | .missing =>
    if hd.missing = 16 then absentExam .missingRun { hd with good := 0 } e else ⟨{ hd with good := 0 }, e, false, none⟩

/-- R33: a head in ABSENT. -/
def examineAbsent (hd : Head) (e : Option SeqEntry) (k : Sorted) : Exam :=
  match k with
  | .good _ => ⟨{ hd with state := .probing, good := 1, missing := 0 }, e, false, none⟩
  | .missing | .fault => ⟨hd, e, false, none⟩

/-- The examination of one head's slot. -/
def examineHead (now : Cycle) (q : Option Sequence) (hd : Head) (e : Option SeqEntry) (w : Option UplinkWord) : Exam :=
  let k := sortSample hd.state w
  let h : Head := { hd with missing := missingAfter k hd.missing }
  match hd.state with
  | .off => ⟨hd, e, false, none⟩
  | .probing => examineProbing h e k
  | .absent => examineAbsent h e k
  | .ready | .busy => examineService now q h e k

/-- The entry of a channel in the sequence in flight. -/
def entryOf (q : Option Sequence) (ch : Channel) : Option SeqEntry :=
  (refChanOf ch).bind (fun c => q.bind (fun q => q.entries.get c))

/-- The examination of the slot of a channel in the cycle in progress. -/
def examineSlot (h : Hbc) (ch : Channel) (w : Option UplinkWord) : Exam :=
  examineHead h.cycle h.seq (h.heads.get ch) (entryOf h.seq ch) w

/-- The entry of a channel is written back. -/
def setEntry (q : Option Sequence) (ch : Channel) (e : Option SeqEntry) : Option Sequence :=
  match refChanOf ch with
  | none => q
  | some c => q.map (fun q => { q with entries := q.entries.set c e })

/-- The HBC after an examination; the record keeps the head state the slot left behind, and the sample of R34. -/
def applyExam (h : Hbc) (ch : Channel) (w : Option UplinkWord) (x : Exam) : Hbc :=
  { h with
    slot := slotOf ch
    heads := h.heads.set ch x.head
    seq := setEntry h.seq ch x.entry
    record := h.record.set ch (some ⟨x.head.state, sampleOf (sortSample (h.heads.get ch).state w)⟩) }

/-- R33: HEAD ABSENT follows the entry into ABSENT and the exit from it. -/
def absentAlarm (ch : Channel) (was now : HeadState) (s : State) : State :=
  if was ≠ .absent ∧ now = .absent then s.activate (ptHeadAbsent ch)
  else if was = .absent ∧ now ≠ .absent then s.returnAlarm (ptHeadAbsent ch)
  else s

/-! ### The OSQ's part -/

def inHeadSteps : OsqStep → Bool
  | .reference | .fetch | .commit => true
  | .idle | .travel | .settle => false

/-- R45: an event of the unset-reference cause. -/
def unsetEvent (s : State) : State :=
  if inHeadSteps s.osq.step then s.withOsq { s.osq with renewal := some (s.osq.renewal.getD false) }
  else osqOccasion (setDue s)

/-- R45: a head of BETA, IRW or CAL whose reference is unset has entered READY out of PROBING. -/
def headReadyEvent (ch : Channel) (s : State) : State :=
  match refChanOf ch with
  | none => s
  | some c => if (s.scv.refs.get c).isNone then unsetEvent s else s

/-- R50: a fetched value enters the candidate table. -/
def handValue (ch : Channel) (v : Option (BitVec 16)) (s : State) : State :=
  match refChanOf ch, v with
  | some c, some v =>
    if s.osq.step = .fetch then s.withOsq { s.osq with candidates := s.osq.candidates.set c (some v) } else s
  | _, _ => s

/-- R51: the drift check. -/
def driftOk (tol : Nat) (old : Option (BitVec 16)) (new : BitVec 16) : Bool :=
  new != 0 && old.elim true (fun o => decide (((new.toNat : Int) - o.toNat).natAbs * 1024 ≤ tol * o.toNat))

/-- R51: one channel at COMMIT. -/
def commitChannel (s : State) (c : RefChan) : State :=
  match s.osq.candidates.get c with
  | none => s
  | some r =>
    if driftOk (s.rbs.common.drift.get c) (s.scv.refs.get c) r
    then (s.withScv { s.scv with refs := s.scv.refs.set c (some r) }).returnAlarm (ptStdDrift c)
    else s.activate (ptStdDrift c)

/-- R51: COMMIT. The channels are taken in the order BETA, IRW, CAL (log entry 10). -/
def commit (s : State) : State :=
  let s := allRefChans.foldl commitChannel s
  let s := s.withOsq { s.osq with
    step := .commit
    candidates := noCandidates
    scanCount := 0
    due := false
    requested := false
    overdue := false }
  mergeRenewal (s.returnAlarm ptOverdue)

/-- R52: the interlock is released: the step is IDLE, the pending plan is applied, the next motion taken. -/
def releaseInterlock (s : State) : State :=
  nextMove (applyPendingPlan (s.withOsq { s.osq with step := .idle }))

/-- R49, R50: the sequence in flight is the one the OSQ waits for. In REFERENCE it is not while the OSQ's own REFERENCE is
still held behind it (R35, log entry 8). -/
def osqWaits (s : State) : Bool := (s.osq.step == .reference && s.hbc.heldRef.isNone) || s.osq.step == .fetch

/-- R49, R50: the HBC reports that nothing more of the standardization's heads will come. -/
def headStepsDone (s : State) : State := if osqWaits s then releaseInterlock (commit s) else s

/-- The phase of a channel for which the REFERENCE phase is over. -/
def phaseOver (e : Option SeqEntry) : Bool := e.elim true (fun x => x.phase == .doneSeen || x.phase == .finished)

/-- R49, R50: the OSQ asks for every channel whose outcome was DONE. -/
def askDone (e : SeqEntry) : SeqEntry := { e with asked := e.outcome == some .done }

/-- R37, R49: the OSQ takes the report that the REFERENCE phase is complete. With a channel DONE it enters FETCH. -/
def takeReport (q : Sequence) (s : State) : State :=
  let es := q.entries.map (Option.map askDone)
  let s := s.withHbc { s.hbc with seq := some { q with reported := true, entries := es } }
  if es.any (fun e => e.elim false SeqEntry.asked) then s.withOsq { s.osq with step := .fetch } else s

/-- R37, R39: the report that the REFERENCE phase is complete. An OSQ that does not wait for the sequence abandons it (log
entry 8). -/
def reportPhase (s : State) : State :=
  match s.hbc.seq with
  | none => s
  | some q =>
    if !q.abandoned && !q.reported && q.entries.all phaseOver then
      if osqWaits s then takeReport q s else s.withHbc (abandonSeq s.hbc)
    else s

/-- R39: a sequence whose every channel is FINISHED ends; one that was not abandoned ends the head steps of the
standardization. -/
def endSequence (s : State) : State :=
  match s.hbc.seq with
  | none => s
  | some q =>
    if q.ended then
      let s := s.withHbc { s.hbc with seq := none }
      if q.abandoned then s else headStepsDone s
    else s

/-! ### The slot examination as a whole -/

/-- R28, R34: the slot of an OFF channel: nothing is examined, and the record shows it OFF and missing. -/
def passSlot (ch : Channel) (s : State) : State :=
  s.withHbc { s.hbc with slot := slotOf ch, record := s.hbc.record.set ch (some ⟨.off, none⟩) }

/-- An examined slot: the head, its alarm point, the value handed over, the head-ready event, the reports. HEAD ABSENT moves
before the alarm points of a COMMIT in the same slot (R33, R39, R51; log entry 10). -/
def examinedSlot (ch : Channel) (w : Option UplinkWord) (s : State) : State :=
  let x := examineSlot s.hbc ch w
  let was := (s.hbc.heads.get ch).state
  let s := absentAlarm ch was x.head.state (s.withHbc (applyExam s.hbc ch w x))
  let s := handValue ch x.value s
  let s := if x.readied then headReadyEvent ch s else s
  (endSequence (reportPhase s)).settleDrive

/-- The slots of a cycle pass in order (R25): a slot already passed is not examined again. -/
def slotOpen (ch : Channel) (s : State) : Bool := decide (s.hbc.slot < slotOf ch)

/-- The examination of the slot of a channel. The slots between a controller restart and its RESET are examined like any
other (R43; log entry 32). -/
def uplinkSlot (ch : Channel) (w : Option UplinkWord) (s : State) : State :=
  if !slotOpen ch s then s
  else if (s.hbc.heads.get ch).state = .off then passSlot ch s
  else examinedSlot ch w s

/-- The examination takes the head into ABSENT with a cause. -/
def slotLoses (cause : AbsentCause) (ch : Channel) (w : Option UplinkWord) (s : State) : Bool :=
  let x := examineSlot s.hbc ch w
  (s.hbc.heads.get ch).state != .absent && (s.hbc.heads.get ch).state != .off &&
  x.head.state == .absent && x.head.cause == cause

/-- The examination in which a head is lost for a cause. -/
def losingSlot (cause : AbsentCause) (ch : Channel) (w : Option UplinkWord) (s : State) : State :=
  if slotLoses cause ch w s then uplinkSlot ch w s else s

/-! ### The start of a cycle (R26) -/

/-- R30: one channel under the change of the applied mask. A head that goes OFF has missing run 0 (R28), and good count 0,
which no rule gives (log entry 16). -/
def maskHead (old new : Bool) (hd : Head) : Head :=
  if new && !old then { headProbing with cause := hd.cause }
  else if old && !new then { headOff with cause := hd.cause }
  else hd

/-- R30: a disabled channel is taken out of the sequence in flight. -/
def maskEntry (h : Hbc) (new : PerChan Bool) (s : Option Sequence) (c : RefChan) : Option Sequence :=
  if h.mask.get c.chan && !new.get c.chan then s.map (fun q => { q with entries := q.entries.set c none }) else s

def mapChan (f : Channel → Head) : PerChan Head := ⟨f .edge, f .beta, f .irw, f .cal, f .temp⟩

/-- R33: HEAD ABSENT is returned for every head that leaves ABSENT between two records of the heads. -/
def returnAbsents (was : PerChan Head) (s : State) : State :=
  allChannels.foldl (fun s ch => absentAlarm ch (was.get ch).state (s.hbc.heads.get ch).state s) s

/-- R45: the mask enables a channel of BETA, IRW and CAL whose reference is unset. -/
def enablesUnset (old new : PerChan Bool) (refs : PerRef (Option (BitVec 16))) : Bool :=
  allRefChans.any (fun c => !old.get c.chan && new.get c.chan && (refs.get c).isNone)

/-- R30: the common bank's mask becomes the applied mask. HEAD ABSENT is returned before a COMMIT in the same event moves its
own points (log entry 10). -/
def applyMask (s : State) : State :=
  let h := s.hbc
  let new := s.rbs.common.mask
  if new = h.mask then s
  else
    let s := s.withHbc { h with
      mask := new
      heads := mapChan (fun ch => maskHead (h.mask.get ch) (new.get ch) (h.heads.get ch))
      seq := allRefChans.foldl (maskEntry h new) h.seq }
    let s := returnAbsents h.heads s
    let s := if enablesUnset h.mask new s.scv.refs then unsetEvent s else s
    endSequence (reportPhase s)

/-- R42: the RESET on the heads. -/
def resetHead (enabled : Bool) (hd : Head) : Head := if enabled then { headProbing with cause := hd.cause } else hd

/-- R55: the head steps are aborted by a RESET. The interlock is released: the pending plan is applied, and the
standardization is taken again at once, or the next motion. -/
def resetHeadSteps (s : State) : State :=
  let s := applyPendingPlan (resetOsqStep s)
  if osqTakes s then retakeStd s else nextMove s

/-- R42, R55: a pending RESET is applied. -/
def applyReset (s : State) : State :=
  let h := s.hbc
  let s := s.withHbc { h with
    heads := mapChan (fun ch => resetHead (h.mask.get ch) (h.heads.get ch))
    seq := none
    heldRef := none
    resetPending := false
    downlink := .reset }
  let s := returnAbsents h.heads s
  if s.osq.step = .reference ∨ s.osq.step = .fetch then resetHeadSteps s else s

/-- R35: the named channels whose heads are READY. -/
def addressedSet (h : Hbc) (named : PerRef Bool) : PerRef Bool :=
  let f (c : RefChan) : Bool := named.get c && (h.heads.get c.chan).state == .ready
  ⟨f .beta, f .irw, f .cal⟩

def freshEntry (addressed : Bool) : Option SeqEntry :=
  if addressed then some ⟨.awaitingAck, none, none, false⟩ else none

/-- R35: the held REFERENCE goes out, or the OSQ is told that no head is addressed (R49). -/
def sendReference (named : PerRef Bool) (s : State) : State :=
  let set := addressedSet s.hbc named
  if set.any id then
    s.withHbc { s.hbc with
      heldRef := none
      downlink := .reference set
      seq := some ⟨s.hbc.cycle, false, set.map freshEntry, false⟩ }
  else headStepsDone (s.withHbc { s.hbc with heldRef := none, downlink := .idle })

/-- R38: the lowest-slot channel asked for and still DONE SEEN. -/
def nextFetch (q : Sequence) : Option RefChan :=
  if q.abandoned then none
  else allRefChans.find? (fun c => (q.entries.get c).elim false (fun e => e.asked && e.phase == .doneSeen))

/-- R38: its FETCH goes out. -/
def sendFetch (q : Sequence) (c : RefChan) (s : State) : State :=
  let e := (q.entries.get c).map (fun e => { e with phase := .awaitingStatus, fetchCycle := some s.hbc.cycle })
  s.withHbc { s.hbc with downlink := .fetch c, seq := some { q with entries := q.entries.set c e } }

/-- R27: the downlink command of a cycle without RESET. -/
def chooseDownlink (s : State) : State :=
  match s.hbc.seq, s.hbc.heldRef with
  | some q, _ =>
    match nextFetch q with
    | some c => sendFetch q c s
    | none => s.withHbc { s.hbc with downlink := .idle }
  | none, some named => sendReference named s
  | none, none => s.withHbc { s.hbc with downlink := .idle }

/-- R26.1, R26.2: the cycle is numbered and the snapshot taken. -/
def numberCycle (s : State) : State :=
  s.withHbc { s.hbc with
    cycle := s.hbc.cycle + 1
    slot := 0
    record := ⟨none, none, none, none, none⟩
    snapshot := ⟨s.cmu.position, s.cmu.state, s.cmu.direction⟩ }

/-- R26: a cycle begins. A sequence that the mask ends (R30) has ended before the downlink command is chosen, so a REFERENCE
held behind it goes out in this cycle (R35; log entry 39). -/
def beginCycle (s : State) : State :=
  let s := applyMask (numberCycle s)
  (if s.hbc.resetPending then applyReset s else chooseDownlink s).settleDrive

/-! ### The meanings -/

/-- CYCLE_START (R26): 500 µs have passed since the start of the cycle before. -/
def execCycleStart (s : State) : Host.Outcome State Fault Refusal := whenReleased s (fun s => beginCycle s.tick)

/-- UPLINK_SAMPLE (R28). -/
def execUplinkSample (ch : Channel) (w : Option UplinkWord) (s : State) : Host.Outcome State Fault Refusal :=
  whenReleased s (uplinkSlot ch w)

/-- MISSING_RUN_LIMIT (R32). -/
def execMissingRunLimit (ch : Channel) (w : Option UplinkWord) (s : State) : Host.Outcome State Fault Refusal :=
  whenReleased s (losingSlot .missingRun ch w)

/-- ACK_WINDOW_EXPIRY (R36). -/
def execAckWindowExpiry (ch : Channel) (w : Option UplinkWord) (s : State) : Host.Outcome State Fault Refusal :=
  whenReleased s (losingSlot .noAck ch w)

/-- DONE_DEADLINE (R37). -/
def execDoneDeadline (ch : Channel) (w : Option UplinkWord) (s : State) : Host.Outcome State Fault Refusal :=
  whenReleased s (losingSlot .noDone ch w)

/-- ANSWER_WINDOW_EXPIRY (R38). -/
def execAnswerWindowExpiry (ch : Channel) (w : Option UplinkWord) (s : State) : Host.Outcome State Fault Refusal :=
  whenReleased s (losingSlot .noStatus ch w)

end Sys2Proof.Machine
end

