-- ==== Sys2Proof/Machine/Convert.lean ====
section
/-! DEFINITION. The Sample Converter: one measurement record from one cycle record (R59 … R74), and the forming of the
cycle record (R34). -/

namespace Sys2Proof.Machine

/-! ### Usable samples (R61) -/

/-- A channel's sample when its head is READY and the sample present. -/
def usable (r : SlotRecord) : Option UplinkWord :=
  match r.head with
  | .ready => r.sample
  | .off => none
  | .probing => none
  | .busy => none
  | .absent => none

/-- R62: SHEET. -/
def sheetOf (r : CycleRecord) : Option Bool := (usable r.chans.edge).map UplinkWord.sheet

/-- R67: the temperature in 0.1 °C. -/
def tempOf (r : CycleRecord) : Option Int := (usable r.chans.temp).map (fun w => (w.value.toNat : Int) - 2732)

/-! ### Ratio and calibration (R64 … R66) -/

/-- R64: the ratio, and whether it was capped. -/
def ratio (raw ref : Nat) : Nat × Bool :=
  let q := raw * 32768 / ref
  if 65536 ≤ q then (65535, true) else (q, false)

/-- R65: the value on one segment. -/
def onSegment (a b : Breakpoint) (q : Nat) : Nat :=
  ((a.y : Int) + roundHalfAway (((b.y : Int) - a.y) * ((q : Int) - a.x)) (b.x - a.x)).toNat

/-- R65: the value by the segment chosen, the last whose left end does not exceed the ratio. -/
def interpolate (q : Nat) : List Breakpoint → Nat
  | a :: b :: c :: rest => if b.x ≤ q then interpolate q (b :: c :: rest) else onSegment a b q
  | [a, b] => onSegment a b q
  | [a] => a.y
  | [] => 0

/-- R66: the calibrated value with the status of the side of the table. -/
def calibrate (t : List Breakpoint) (q : Nat) (capped : Bool) : Val :=
  let first := t.head?.getD ⟨0, 0⟩
  let last := t.getLast?.getD ⟨0, 0⟩
  if last.x < q then ⟨last.y, .highClamp⟩
  else if q < first.x then ⟨first.y, if capped then .highClamp else .lowClamp⟩
  else ⟨interpolate q t, if capped then .highClamp else .valid⟩

/-- R61, R64 … R66: a property taken by ratio. -/
def byRatio (t : List Breakpoint) (sample : Option UplinkWord) (ref : Option (BitVec 16)) : Option Val :=
  match sample, ref with
  | some w, some r =>
    let q := ratio w.value.toNat r.toNat
    some (calibrate t q.1 q.2)
  | _, _ => none

/-! ### Compensation (R68, R69) -/

/-- R68: the compensated water weight. -/
def compensate (kT tRef : Int) (w : Val) (t : Int) : Val :=
  let x := (w.value : Int) + roundHalfAway ((w.value : Int) * kT * (t - tRef)) 1048576
  if x < 0 then ⟨0, .lowClamp⟩
  else if 65535 < x then ⟨65535, .highClamp⟩
  else ⟨x.toNat, w.status⟩

/-- R68, R69: W_c, with or without a temperature. -/
def waterOf (kT tRef : Int) (w : Option Val) (t : Option Int) : Option Val :=
  match w, t with
  | some w, some t => some (compensate kT tRef w t)
  | some w, none => some w
  | none, _ => none

/-! ### Caliper, moisture and dry weight (R70 … R73) -/

/-- R70. A sample below the zero gap is LOW-CLAMP 0 under every gain, 0 included, where the product is 0 (log entry 40). -/
def caliper (gain : Nat) (raw ref : BitVec 16) : Val :=
  if raw.toNat < ref.toNat then ⟨0, .lowClamp⟩
  else
    let v := roundHalfUp ((raw.toNat - ref.toNat) * gain) 4096
    if 65535 < v then ⟨65535, .highClamp⟩ else ⟨v, .valid⟩

def caliperOf (gain : Nat) (sample : Option UplinkWord) (ref : Option (BitVec 16)) : Option Val :=
  match sample, ref with
  | some w, some r => some (caliper gain w.value r)
  | _, _ => none

/-- R73: the status a value takes from the two inputs that formed it. -/
def inherited (bw w : Val) : ValStatus := if w.status = .valid then bw.status else w.status

/-- R71. -/
def moisture (bw w : Val) : Option Val :=
  if bw.value = 0 then none
  else
    let x := roundHalfUp (10000 * w.value) bw.value
    if 10000 < x then some ⟨10000, .highClamp⟩ else some ⟨x, inherited bw w⟩

/-- R72. -/
def dryWeight (bw w : Val) : Val :=
  if bw.value < w.value then ⟨0, .lowClamp⟩ else ⟨bw.value - w.value, inherited bw w⟩

/-! ### The measurement record (R60, R63) -/

/-- The record of a cycle while no bank is active (R63). -/
def bareRecord (r : CycleRecord) : MRecord :=
  ⟨r.cycle, r.snap, sheetOf r, tempOf r, none, none, none, none, none, false⟩

/-- R59: the measurement record of a cycle record. -/
def convert (refs : PerRef (Option (BitVec 16))) (bank : Option GradeBank) (r : CycleRecord) : MRecord :=
  match bank with
  | none => bareRecord r
  | some b =>
    let bw := byRatio b.betaTable (usable r.chans.beta) refs.beta
    let w := waterOf b.kT b.tRef (byRatio b.irwTable (usable r.chans.irw) refs.irw) (tempOf r)
    { bareRecord r with
      bw := bw
      w := w
      cal := caliperOf b.gain (usable r.chans.cal) refs.cal
      moi := bw.bind (fun x => w.bind (fun y => moisture x y))
      dry := bw.bind (fun x => w.map (fun y => dryWeight x y))
      uncomp := w.isSome && (tempOf r).isNone }

/-! ### The cycle record (R34) -/

/-- R34: one channel of the record: what its slot left behind. A slot that no command examined shows its head as it is
and no sample (log entry 16). -/
def slotRecord (h : Hbc) (ch : Channel) : SlotRecord := (h.record.get ch).getD ⟨(h.heads.get ch).state, none⟩

/-- The cycle record of the cycle in progress. -/
def cycleRecord (h : Hbc) : CycleRecord :=
  ⟨h.cycle, h.snapshot, ⟨slotRecord h .edge, slotRecord h .beta, slotRecord h .irw, slotRecord h .cal, slotRecord h .temp⟩⟩

/-- R34, R59: the cycle record is formed and converted, and the measurement record handed to the PEN, EBM and MSM. -/
def formRecord (s : State) : State :=
  let m := convert s.scv.refs s.rbs.activeBank (cycleRecord s.hbc)
  (s.withScv { s.scv with
    toPen := s.scv.toPen ++ [m]
    toEbm := s.scv.toEbm ++ [m]
    toMsm := s.scv.toMsm ++ [m] }).withHbc { s.hbc with slot := 6, lastRecord := s.hbc.cycle }

/-- One record is formed per cycle: none while no cycle is in progress. -/
def cycleRecordFormed (s : State) : State := if s.hbc.slot < 6 then formRecord s else s

/-! ### The meanings -/

/-- CYCLE_RECORD_FORMED (R34). -/
def execCycleRecordFormed (s : State) : Host.Outcome State Fault Refusal := whenReleased s cycleRecordFormed

end Sys2Proof.Machine
end

