-- ==== Sys2Proof/Machine/Records.lean ====
section
/-! DEFINITION. A measurement record taken by the PEN (R108, R109, R128, R129), by the EBM (R92 … R95) and by the MSM
(R146, R147). Each takes its oldest record. -/

namespace Sys2Proof.Machine

/-! ### The PEN -/

/-- The machine states in which records count (R108, R128). -/
def sheetRunning (m : MachineState) : Bool := m == .run || m == .thread

/-- R109: a value added into an accumulator, which stops at a count of 65,535. -/
def addValue (v : Option Val) (a : Acc) : Acc :=
  match v with
  | none => a
  | some x =>
    if 65535 ≤ a.count then a
    else ⟨a.sum + x.value, a.count + 1, if x.status = .valid then a.clamp else a.clamp + 1⟩

/-- The profiled properties of a record. -/
def MRecord.profiled (r : MRecord) : PerProp (Option Val) := ⟨r.bw, r.moi, r.cal, r.dry⟩

/-- R109: the uncompensated count after one more record; its end is open (log entry 5). -/
def raiseUncomp (u : Nat) : Nat := if u = 4294967295 then (Config.openUncompensated u).toNat else u + 1

/-- R108: the bin a record is accepted into, if it is accepted. -/
def acceptedBin (machine : MachineState) (w : Window) (r : MRecord) : Option Nat :=
  if r.snap.state = .traverse ∧ sheetRunning machine then binOf w.ctx.map r.snap.position else none

/-- R109: an accepted record in its bin. -/
def accumulate (w : Window) (i : Nat) (r : MRecord) : Window :=
  { w with
    accs := PerProp.map2 (fun v as => as.modify i (addValue v)) r.profiled w.accs
    uncomp := if r.uncomp then raiseUncomp w.uncomp else w.uncomp }

/-- R108: the window takes a record. -/
def windowTake (machine : MachineState) (r : MRecord) (w : Window) : Window :=
  match acceptedBin machine w r with
  | some i => accumulate w i r
  | none => w

/-- R128: a value added into the fixed-point period. -/
def addFixed (v : Option Val) (a : FixedAcc) : FixedAcc := v.elim a (fun x => ⟨a.sum + x.value, a.count + 1⟩)

def fixedAverage (a : FixedAcc) : Option Nat := if a.count = 0 then none else some (roundHalfUp a.sum a.count)

/-- R128: one more record in the period. -/
def fixedAdd (machine : MachineState) (r : MRecord) (f : FixedPeriod) : FixedPeriod :=
  ⟨f.records + 1, if sheetRunning machine then PerProp.map2 addFixed r.profiled f.accs else f.accs⟩

/-- R129: the fixed-point record of a period, from its last record. -/
def fixedRecordOf (f : FixedPeriod) (r : MRecord) : FixedRecord :=
  ⟨r.snap.position, r.cycle, f.accs.map fixedAverage⟩

/-- R128, R129: the open period takes a record whose carriage state is FIXED. -/
def periodTake (machine : MachineState) (r : MRecord) (p : Pen) : Pen :=
  match p.period with
  | none => p
  | some f =>
    if r.snap.state = .fixed then
      let f' := fixedAdd machine r f
      if 2000 ≤ f'.records then { p with period := some fixedPeriodFresh, fixedRec := some (fixedRecordOf f' r) }
      else { p with period := some f' }
    else p

/-- The PEN takes a record. -/
def penTake (machine : MachineState) (r : MRecord) (p : Pen) : Pen :=
  periodTake machine r { p with window := p.window.map (windowTake machine r) }

/-- The PEN takes its oldest record. -/
def penTakeRecord (s : State) : State :=
  match s.scv.toPen with
  | [] => s
  | r :: rest => (s.withScv { s.scv with toPen := rest }).withPen (penTake s.msm.state r s.pen)

/-- R129: the oldest record completes the open period. -/
def completesPeriod (s : State) : Bool :=
  match s.scv.toPen, s.pen.period with
  | r :: _, some f => r.snap.state == .fixed && f.records == 1999
  | _, _ => false

/-- R129: the taking of the 2,000th record of a period. -/
def fixedPeriodComplete (s : State) : State := if completesPeriod s then penTakeRecord s else s

/-! ### The EBM -/

/-- R94, R95: a change of reading at a position; `sheet` is the new reading. A capture is frozen once taken: a change to
sheet that finds a leading capture, as one after a gap of 16 can, is an interior transition (log entry 35). -/
def takeChange (sheet : Bool) (p : Int) (w : EdgeWatch) : EdgeWatch :=
  if w.trailing.isSome || (sheet && w.leading.isSome) then { w with interior := satInc 65535 w.interior }
  else if sheet then { w with leading := some p }
  else { w with trailing := some p }

/-- R93: a watched record. -/
def watchReading (sheet : Option Bool) (p : Int) (w : EdgeWatch) : EdgeWatch :=
  match sheet with
  | none =>
    let g := satInc 16 w.gap
    { w with gap := g, previous := if g = 16 then none else w.previous }
  | some x =>
    let w := { w with gap := 0 }
    match w.previous with
    | none => { w with previous := some x, anyReading := true, coveredStart := if w.anyReading then w.coveredStart else x }
    | some y => if x = y then w else { takeChange x p w with previous := some x }

/-- R92: the EBM takes a record; it watches it when the watch is OPEN and the record was taken in TRAVERSE. -/
def ebmTake (r : MRecord) (w : EdgeWatch) : EdgeWatch :=
  if w.opened ∧ r.snap.state = .traverse then watchReading r.sheet r.snap.position w else w

/-- The EBM takes its oldest record. -/
def ebmTakeRecord (s : State) : State :=
  match s.scv.toEbm with
  | [] => s
  | r :: rest => (s.withScv { s.scv with toEbm := rest }).withEbm { s.ebm with watch := ebmTake r s.ebm.watch }

/-- R93: the oldest record brings the gap run to 16. -/
def reachesGap (s : State) : Bool :=
  match s.scv.toEbm with
  | [] => false
  | r :: _ => s.ebm.watch.opened && r.snap.state == .traverse && r.sheet.isNone && s.ebm.watch.gap == 15

/-- R93: the record at which the previous reading is forgotten. -/
def edgeGapLimit (s : State) : State := if reachesGap s then ebmTakeRecord s else s

/-! ### The MSM -/

/-- R146: a record lies strictly between the tracked edges. -/
def betweenEdges (ef eb : Option Int) (p : Int) : Bool :=
  match ef, eb with
  | some f, some b => decide (f < p) && decide (p < b)
  | _, _ => false

/-- R146: eligibility. -/
def eligibleRecord (e : Ebm) (r : MRecord) : Bool :=
  (r.snap.state == .traverse || r.snap.state == .fixed) && betweenEdges e.ef e.eb r.snap.position

/-- R146: the run after a sheet-clear record, SHEET LOST still to be decided. -/
def growRun (p : Int) : Option SheetRun → SheetRun
  | none => ⟨p, 1, 0, false⟩
  | some x => { x with length := satInc 4000 x.length, gap := 0 }

/-- R146: the run after a record with SHEET absent. -/
def gapRun (x : SheetRun) : Option SheetRun :=
  if 16 ≤ x.gap + 1 then none else some { x with gap := x.gap + 1 }

/-- R147: the run reaches the sheet-lost length. -/
def losesSheet (ls : Nat) (x : SheetRun) : Bool := !x.spent && decide (ls ≤ x.length)

/-- R147: the end of a run by SHEET set is a hole. -/
def isHole (x : SheetRun) : Bool := !x.spent && decide (8 ≤ x.length)

def setRun (x : Option SheetRun) (s : State) : State := s.withMsm { s.msm with run := x }

/-- R146, R147: a sheet-clear record. -/
def takeClear (r : MRecord) (o : OverrideOrder) (s : State) : State :=
  let x := growRun r.snap.position s.msm.run
  if losesSheet s.rbs.common.sheetLost x
  then takeCause .sheetLost x.start r.cycle .sheetLost o (setRun (some { x with spent := true }) s)
  else setRun (some x) s

/-- R147: a record with SHEET set. -/
def takeSet (s : State) : State :=
  match s.msm.run with
  | none => s
  | some x =>
    let s := setRun none s
    if isHole x then (s.withMsm { s.msm with holeSeen := true }).activate ptHole else s

/-- R146, R147: the MSM takes a record. -/
def msmTake (r : MRecord) (o : OverrideOrder) (s : State) : State :=
  if !eligibleRecord s.ebm r then setRun none s
  else
    match r.sheet with
    | some false => takeClear r o s
    | some true => takeSet s
    | none => setRun (s.msm.run.bind gapRun) s

/-- The MSM takes its oldest record. -/
def msmTakeRecord (o : OverrideOrder) (s : State) : State :=
  match s.scv.toMsm with
  | [] => s
  | r :: rest => (msmTake r o (s.withScv { s.scv with toMsm := rest })).settleDrive

/-- R147: the oldest record brings the run to the sheet-lost length. -/
def reachesLost (s : State) : Bool :=
  match s.scv.toMsm with
  | [] => false
  | r :: _ =>
    eligibleRecord s.ebm r && r.sheet == some false &&
    losesSheet s.rbs.common.sheetLost (growRun r.snap.position s.msm.run)

/-- R147: the taking of that record. -/
def sheetLost (o : OverrideOrder) (s : State) : State := if reachesLost s then msmTakeRecord o s else s

/-- R146: the oldest record brings the gap of the run to 16. -/
def reachesRunGap (s : State) : Bool :=
  match s.scv.toMsm, s.msm.run with
  | r :: _, some x => eligibleRecord s.ebm r && r.sheet == none && x.gap == 15
  | _, _ => false

/-- R146: the taking of that record. -/
def sheetRunGapLimit (s : State) : State := if reachesRunGap s then msmTakeRecord .overrideFirst s else s

/-! ### The meanings -/

/-- PEN_TAKE_RECORD (R108). -/
def execPenTakeRecord (s : State) : Host.Outcome State Fault Refusal := whenReleased s penTakeRecord

/-- FIXED_PERIOD_COMPLETE (R129). -/
def execFixedPeriodComplete (s : State) : Host.Outcome State Fault Refusal := whenReleased s fixedPeriodComplete

/-- EBM_WATCH_RECORD (R92, R93). -/
def execEbmWatchRecord (s : State) : Host.Outcome State Fault Refusal := whenReleased s ebmTakeRecord

/-- EDGE_GAP_LIMIT (R93). -/
def execEdgeGapLimit (s : State) : Host.Outcome State Fault Refusal := whenReleased s edgeGapLimit

/-- MSM_TAKE_RECORD (R146). -/
def execMsmTakeRecord (o : OverrideOrder) (s : State) : Host.Outcome State Fault Refusal :=
  whenReleased s (msmTakeRecord o)

/-- SHEET_LOST (R147). -/
def execSheetLost (o : OverrideOrder) (s : State) : Host.Outcome State Fault Refusal := whenReleased s (sheetLost o)

/-- SHEET_RUN_GAP_LIMIT (R146). -/
def execSheetRunGapLimit (s : State) : Host.Outcome State Fault Refusal := whenReleased s sheetRunGapLimit

end Sys2Proof.Machine
end

