-- ==== Sys2Proof/Machine/Events.lean ====
section
/-! DEFINITION. The events on lines, timers and link characters: reset and release (R1), the drive output's timers (R6,
R7), DRVFLT, HOME and the break lines (R8, R11, R142), the OSQ's timers (R48, R56), and the ports' receivers,
transmitters, silence and read streams (R188, R189, R194, R197, R198, R201, R203).

A command whose condition does not hold changes nothing. -/

namespace Sys2Proof.Machine

/-! ### Reset and release (R1) -/

/-- Every block takes its power-on value and is held at it; the queue of commands is not the part's. -/
def powerOnReset (s : State) : State := { State.reset with pending := s.pending }

def rateOf : Bool → Bool → Rate
  | false, false => .r115200
  | false, true => .r230400
  | true, false => .r460800
  | true, true => .r921600

/-- R45: at the release a standardization is due when one of BETA, IRW and CAL is enabled. -/
def dueAtRelease (s : State) : State :=
  if allRefChans.any (fun c => s.rbs.common.mask.get c.chan) then setDue s else s

/-- R1, R26, R188: the release of a power-on reset. -/
def release (rate1 rate0 : Bool) (s : State) : State :=
  beginCycle (dueAtRelease { s with held := false, rst := confirmLine 3 false s.rst, rate := rateOf rate1 rate0 })

/-! ### The drive output and the sampled lines of the CMU -/

/-- R6: the word is sent again. -/
def driveWordRepeat (s : State) : State := s.withDrive { s.drive with word := driveWord s.drive.out, sinceWord := 0 }

/-- R6: the dwell ends and the wanted command is sent. -/
def dwellEnd (s : State) : State :=
  if s.drive.dwell.isSome then (s.withDrive { s.drive with dwell := none }).settleDrive else s

/-- R7. -/
def stallTimeout (s : State) : State := if s.drive.stall.isSome then (enterFault .stall s).settleDrive else s

/-- R8, R11: a confirmation of DRVFLT. -/
def drvfltConfirmed (active : Bool) (s : State) : State :=
  let was := s.cmu.drvflt.confirmed
  let s := s.withCmu { s.cmu with drvflt := confirmLine 2 active s.cmu.drvflt }
  if was = some active then s
  else if active then (if was = some false then (enterFault .drive s).settleDrive else s)
  else if s.cmu.state = .unhomed then (enterHoming s).settleDrive
  else s

/-- R11: a confirmation of HOME. -/
def homeConfirmed (active : Bool) (s : State) : State :=
  let was := s.cmu.home.confirmed
  let s := s.withCmu { s.cmu with home := confirmLine 2 active s.cmu.home }
  if active ∧ was ≠ some true ∧ s.cmu.state = .homing then (arriveHome s).settleDrive else s

/-! ### The OSQ's timers -/

/-- R49: the channels of BETA, IRW and CAL enabled in the applied mask. -/
def enabledRefs (h : Hbc) : PerRef Bool := ⟨h.mask.beta, h.mask.irw, h.mask.cal⟩

/-- R48, R49: the settle timer expires. -/
def settleExpiry (s : State) : State :=
  if s.osq.step = .settle then
    (s.withOsq { s.osq with step := .reference, settle := none }).withHbc { s.hbc with heldRef := some (enabledRefs s.hbc) }
  else s

/-- R56: the due age, in whole seconds, is greater than the overdue time. -/
def isOverdue (s : State) : Bool := s.osq.due && decide (60 * s.rbs.common.overdueTime < dueSeconds s.osq)

/-- R56: the due age at which the overdue time is first exceeded, in units of 500 µs. -/
def overdueAge (s : State) : Nat := (60 * s.rbs.common.overdueTime + 1) * unitsPerSecond

/-- R56: the due age passes the overdue time. -/
def overdueExpiry (s : State) : State :=
  if s.osq.due ∧ !s.osq.overdue then
    (s.withOsq { s.osq with dueAge := max s.osq.dueAge (overdueAge s), overdue := true }).activate ptOverdue
  else s

/-! ### Break lines -/

/-- R142, R143: three agreeing samples of a break line. -/
def breakLineConfirmed (l : BreakLine) (high : Bool) (o : OverrideOrder) (s : State) : State :=
  let was := lineReading s.rbs.common s.msm l
  let s := s.withMsm { s.msm with lines := s.msm.lines.set l (confirmLine 3 high (s.msm.lines.get l)) }
  (readingChanged l was o s).settleDrive

/-! ### Silence (R179, R197) -/

/-- R197: the port's own part. -/
def silencePort (p : PortState) : PortState :=
  { p with
    silent := true
    inbound := []
    outbound := []
    handling := p.handling.map (fun h => { h with cancelled := true })
    stream := .idle }

/-- R179: the CTA's part. -/
def silenceToken (p : Port) (s : State) : State :=
  if s.cta.holder = some p then leaveToken p true s
  else s.withCta { s.cta with waiting := s.cta.waiting.erase p }

/-- R132, R197: the assemblies of a silent ACTUATOR port are discarded. -/
def dropAssemblies (a : Azm) : Azm := ⟨{ a.a with assembly := none }, { a.b with assembly := none }⟩

def silenceAzm (p : Port) (s : State) : State :=
  match p with
  | .actuator => s.withAzm (dropAssemblies s.azm)
  | .quality => s
  | .machine => s

/-- R197: a port becomes SILENT. -/
def becomeSilent (p : Port) (s : State) : State :=
  let s := s.updPort p silencePort
  let s := s.withPen { s.pen with pins := s.pen.pins.set p none }
  silenceAzm p ((silenceToken p s).activate (ptPortSilent p))

/-- R197: the silent timer reaches the silent time. -/
def portSilent (p : Port) (s : State) : State :=
  if !(s.ports.get p).silent ∧ s.rbs.common.silentTime ≠ 0 then becomeSilent p s else s

/-! ### Receiving (R189, R194, R198) -/

/-- R194: a valid message seeks a place in the inbound buffer. -/
def offerInbound (m : InMsg) (p : PortState) : PortState :=
  if p.inbound.length < 4 then { p with inbound := p.inbound ++ [m] } else { p with overruns := satInc 65535 p.overruns }

/-- R189: a count raised by several, that stops at 65,535. -/
def addCount (c n : Nat) : Nat := min 65535 (c + n)

/-- R189, R194: a message has become valid, with its noise events; the receiver has gone to `r`. -/
def validPort (r : Receiver) (noise : Nat) (p : PortState) : PortState :=
  { p with receiver := r, noise := addCount p.noise noise, silentTimer := 0, silent := false }

/-- R194, R198: the effects of a valid message. -/
def acceptMessage (p : Port) (r : Receiver) (m : InMsg) (noise : Nat) (s : State) : State :=
  let was := (s.ports.get p).silent
  let s := s.updPort p (validPort r noise)
  let s := if was then s.returnAlarm (ptPortSilent p) else s
  s.updPort p (offerInbound m)

/-- R189: a bad message; the receiver has gone to `r`. -/
def countBad (r : Receiver) (p : PortState) : PortState := { p with receiver := r, bad := satInc 65535 p.bad }

def setReceiver (r : Receiver) (p : PortState) : PortState := { p with receiver := r }

/-- R189: the characters of a message whose CRC passes. -/
def messageReceived (p : Port) (cs : List RxChar) (s : State) : State :=
  match receiveChars (s.ports.get p).receiver cs with
  | (r, [.valid m n]) => acceptMessage p r m n s
  | _ => s

/-- R189: the characters that make a message bad. -/
def badMessage (p : Port) (cs : List RxChar) (s : State) : State :=
  match receiveChars (s.ports.get p).receiver cs with
  | (r, [.bad]) => s.updPort p (countBad r)
  | _ => s

/-- R189: one character. -/
def characterReceived (p : Port) (c : RxChar) (s : State) : State :=
  match receiveChar (s.ports.get p).receiver c with
  | (r, .nothing) => s.updPort p (setReceiver r)
  | (r, .bad) => s.updPort p (countBad r)
  | (r, .valid m n) => acceptMessage p r m n s

/-- R189: the message in assembly is cut off by the time between two characters. -/
def intercharTimeout (p : Port) (s : State) : State :=
  match (s.ports.get p).receiver with
  | .hunting => s
  | .assembling _ _ => s.updPort p (countBad .hunting)

/-! ### Sending and streaming (R188, R201, R203) -/

/-- R188: the oldest message has been sent. -/
def messageSent (p : Port) (s : State) : State := s.updPort p (fun x => { x with outbound := x.outbound.drop 1 })

/-- R200: the bins one chunk carries. -/
def binsPerChunk (f : Form) (e : Encoding) : Nat :=
  match f, e with
  | .status, _ => 120
  | _, .wide => 60
  | _, .narrow => 120
  | _, .coarse => 240

/-- The generation of a scan number, if the store holds it. -/
def heldScan (p : Pen) (n : ScanNo) : Option Generation :=
  (List.finRange 3).findSome? (fun i => (p.slots[i]).bind (fun g => if g.scan = n then some g else none))

/-- R201: the number of bins of the next chunk of a stream. -/
def chunkCount (r : Stream) : Nat := min (binsPerChunk r.form r.enc) (r.lastBin + 1 - r.nextBin)

/-- R201: the chunk reaches the last bin. -/
def chunkLast (r : Stream) : Bool := decide (r.lastBin < r.nextBin + chunkCount r)

/-- R201: the chunk of a stream, as a message. -/
def chunkMessage (g : Generation) (r : Stream) : OutMsg :=
  ⟨.chunk, kChunk, r.tag, chunkPayload g r.prop r.form r.enc r.shift r.nextBin (chunkCount r) (chunkLast r)⟩

/-- R201: the port after the chunk. -/
def afterChunk (g : Generation) (r : Stream) (p : PortState) : PortState :=
  { p with
    outbound := p.outbound ++ [chunkMessage g r]
    stream := if chunkLast r then .idle else .running { r with nextBin := r.nextBin + chunkCount r } }

def unpin (p : Port) (s : State) : State := s.withPen { s.pen with pins := s.pen.pins.set p none }

/-- R201: the next chunk of a RUNNING stream. -/
def readChunk (p : Port) (s : State) : State :=
  match (s.ports.get p).stream with
  | .running r =>
    match heldScan s.pen r.scan with
    | some g =>
      if (s.ports.get p).admitsChunk then
        let s := s.updPort p (afterChunk g r)
        if chunkLast r then unpin p s else s
      else s
    | none => s
  | .idle => s
  | .ending _ => s

/-- R203: the final chunk of an ENDING stream. -/
def supersededMessage (r : Stream) : OutMsg := ⟨.chunk, kChunk, r.tag, supersededPayload r⟩

def supersededChunk (p : Port) (s : State) : State :=
  match (s.ports.get p).stream with
  | .ending r =>
    if (s.ports.get p).admitsChunk
    then s.updPort p (fun x => { x with outbound := x.outbound ++ [supersededMessage r], stream := .idle }) else s
  | .idle => s
  | .running _ => s

/-! ### The meanings -/

/-- POWER_ON (R1). -/
def execPowerOn (s : State) : Host.Outcome State Fault Refusal := .next (powerOnReset s)

/-- RST_CONFIRMED (R1). -/
def execRstConfirmed (s : State) : Host.Outcome State Fault Refusal :=
  .next ((powerOnReset s).withRst (confirmLine 3 true s.rst))

/-- RST_RELEASE (R1). -/
def execRstRelease (rate1 rate0 : Bool) (s : State) : Host.Outcome State Fault Refusal :=
  .next (if s.held then release rate1 rate0 s else s)

/-- DRIVE_WORD_REPEAT (R6). -/
def execDriveWordRepeat (s : State) : Host.Outcome State Fault Refusal := whenReleased s driveWordRepeat

/-- DWELL_END (R6). -/
def execDwellEnd (s : State) : Host.Outcome State Fault Refusal := whenReleased s dwellEnd

/-- STALL_TIMEOUT (R7). -/
def execStallTimeout (s : State) : Host.Outcome State Fault Refusal := whenReleased s stallTimeout

/-- DRVFLT_CONFIRMED (R8). -/
def execDrvfltConfirmed (active : Bool) (s : State) : Host.Outcome State Fault Refusal :=
  whenReleased s (drvfltConfirmed active)

/-- HOME_CONFIRMED (R11). -/
def execHomeConfirmed (active : Bool) (s : State) : Host.Outcome State Fault Refusal :=
  whenReleased s (homeConfirmed active)

/-- SETTLE_EXPIRY (R48). -/
def execSettleExpiry (s : State) : Host.Outcome State Fault Refusal := whenReleased s settleExpiry

/-- OVERDUE_EXPIRY (R56). -/
def execOverdueExpiry (s : State) : Host.Outcome State Fault Refusal := whenReleased s overdueExpiry

/-- BREAK_LINE_CONFIRMED (R142). -/
def execBreakLineConfirmed (l : BreakLine) (high : Bool) (o : OverrideOrder) (s : State) : Host.Outcome State Fault Refusal :=
  whenReleased s (breakLineConfirmed l high o)

/-- MESSAGE_RECEIVED (R189). -/
def execMessageReceived (p : Port) (cs : List RxChar) (s : State) : Host.Outcome State Fault Refusal :=
  whenReleased s (messageReceived p cs)

/-- BAD_MESSAGE (R189). -/
def execBadMessage (p : Port) (cs : List RxChar) (s : State) : Host.Outcome State Fault Refusal :=
  whenReleased s (badMessage p cs)

/-- INTERCHAR_TIMEOUT (R189). -/
def execIntercharTimeout (p : Port) (s : State) : Host.Outcome State Fault Refusal :=
  whenReleased s (intercharTimeout p)

/-- PORT_SILENT (R197). -/
def execPortSilent (p : Port) (s : State) : Host.Outcome State Fault Refusal := whenReleased s (portSilent p)

/-- MESSAGE_SENT (R188). -/
def execMessageSent (p : Port) (s : State) : Host.Outcome State Fault Refusal := whenReleased s (messageSent p)

/-- READ_CHUNK (R201). -/
def execReadChunk (p : Port) (s : State) : Host.Outcome State Fault Refusal := whenReleased s (readChunk p)

/-- SUPERSEDED_CHUNK (R203). -/
def execSupersededChunk (p : Port) (s : State) : Host.Outcome State Fault Refusal :=
  whenReleased s (supersededChunk p)

/-- CHARACTER_RECEIVED (R189). -/
def execCharacterReceived (p : Port) (c : RxChar) (s : State) : Host.Outcome State Fault Refusal :=
  whenReleased s (characterReceived p c)

end Sys2Proof.Machine
end

