-- ==== Sys2Proof/Machine/Requests.lean ====
section
/-! DEFINITION. How a port takes a request, checks it, passes it to its owner and queues the reply (R195, R196).

Every row of the request table goes through `request`; a row differs in the messages it accepts and in its owner. -/

namespace Sys2Proof.Machine

/-- The outbound entries a reply may need (R195). -/
def replyNeed (kind : Nat) : Nat :=
  match kind with
  | 2 => 2
  | 7 => 2
  | 8 => 3
  | 5 => 4
  | _ => 1

/-- The ports a request kind is permitted on (the request table of R195). -/
def permitted (p : Port) (kind : Nat) : Bool :=
  match kind with
  | 9 => p == .quality
  | 27 => p == .quality
  | 10 => p != .actuator
  | 11 => p != .actuator
  | 26 => p != .actuator
  | 12 => p == .actuator
  | 21 => p == .machine
  | 22 => p == .machine
  | 23 => p == .machine
  | _ => true

/-- The KIND is a request kind of the table. -/
def isRequestKind (kind : Nat) : Bool := decide (1 ≤ kind) && decide (kind ≤ 27)

/-- R195: the port's own checks, in order; the result code of the first that fails. -/
def portCheck (p : Port) (m : InMsg) : Option Byte :=
  let kind := m.kind.toNat
  if !isRequestKind kind then some rcUnknownKind
  else if !permitted p kind then some rcNotPermitted
  else if !lenOk kind m.payload then some rcBadField
  else none

/-- R195: the KIND of a reply. -/
def replyKind (kind : Byte) : Byte := if kind.toNat < 128 then kind + 0x80#8 else Config.openReplyKind kind

/-- The parts of a reply, as messages, in at most the reserved entries. -/
def replyMessages (m : InMsg) (parts : List (List Byte)) (reserved : Nat) : List OutMsg :=
  (parts.take reserved).map (fun b => ⟨.reply, replyKind m.kind, m.tag, b⟩)

/-- The reply is queued and the request in handling is then none; entries reserved and not used are freed. -/
def queueReply (m : InMsg) (parts : List (List Byte)) (reserved : Nat) (x : PortState) : PortState :=
  { x with handling := none, outbound := x.outbound ++ replyMessages m parts reserved }

/-- R195: the port takes its oldest message: no request is in handling and the entries its reply may need are free. -/
def mayTake (accepts : InMsg → Bool) (x : PortState) (m : InMsg) : Bool :=
  accepts m && x.handling.isNone && decide (replyNeed m.kind.toNat ≤ x.free)

/-- The message is out of the inbound buffer and refused by the port, or in handling with its entries reserved. -/
def takeInto (p : Port) (m : InMsg) (rest : List InMsg) (x : PortState) : PortState :=
  match portCheck p m with
  | some rc => queueReply m [[rc]] 1 { x with inbound := rest }
  | none => { x with inbound := rest, handling := some ⟨m, replyNeed m.kind.toNat, false⟩ }

/-- The port takes its oldest message, if the row accepts it. -/
def takeMessage (p : Port) (accepts : InMsg → Bool) (s : State) : State :=
  match (s.ports.get p).inbound with
  | [] => s
  | m :: rest => if mayTake accepts (s.ports.get p) m then s.updPort p (takeInto p m rest) else s

/-- What answers a request that has passed the port's checks: the state after it and the parts of the reply. -/
abbrev Owner := Port → InMsg → State → State × List (List Byte)

/-- R195, R197: the owner answers the request in handling, or the port answers for it when it has become SILENT since. -/
def answerHandled (p : Port) (accepts : InMsg → Bool) (owner : Owner) (s : State) : State :=
  match (s.ports.get p).handling with
  | none => s
  | some h =>
    if accepts h.msg then
      if h.cancelled then s.updPort p (queueReply h.msg [[rcWrongState]] h.reserved)
      else
        let r := owner p h.msg s
        r.1.updPort p (queueReply h.msg r.2 h.reserved)
    else s

/-- A row of the request table, in one step or in its two halves. -/
def request (g : Stage) (p : Port) (accepts : InMsg → Bool) (owner : Owner) (s : State) : State :=
  match g with
  | .take => takeMessage p accepts s
  | .answer => answerHandled p accepts owner s
  | .whole => if (s.ports.get p).handling.isSome then s else answerHandled p accepts owner (takeMessage p accepts s)

/-- R195, R199, R207: the taking of a row whose owner is the port itself is the whole row. -/
def portStage : Stage → Stage
  | .whole => .whole
  | .take => .whole
  | .answer => .answer

/-- A row of the request table that the port itself owns. -/
def requestAtPort (g : Stage) (p : Port) (accepts : InMsg → Bool) (owner : Owner) (s : State) : State :=
  request (portStage g) p accepts owner s

/-- The messages of one kind. -/
def ofKind (k : Nat) (m : InMsg) : Bool := m.kind.toNat == k

/-- The messages of one kind that carry one code of a set of codes, or no code of it: the port or the owner refuses the
latter alike for every row of the kind. -/
def ofCode (k code codes : Nat) (m : InMsg) : Bool :=
  ofKind k m && (m.payload.length != 1 || fieldAt m.payload 0 1 == code || decide (codes ≤ fieldAt m.payload 0 1))

/-- A reply of one part with a result code alone. -/
def code (rc : Byte) (s : State) : State × List (List Byte) := (s, [[rc]])

/-- R180: the requests that need the token. -/
def withToken (owner : Owner) : Owner := fun p m s => if s.cta.holder = some p then owner p m s else code rcNoToken s

/-- R195: a message whose KIND is no request kind. -/
def unknownKind (p : Port) (s : State) : State := takeMessage p (fun m => !isRequestKind m.kind.toNat) s

end Sys2Proof.Machine
end

