-- ==== Sys2Proof/Machine/Carriage.lean ====
section
/-! DEFINITION. The requests on the token and the carriage (rows 13 … 20 and 23): R10, R18 … R23, R46, R176, R177,
R181 … R184. -/

namespace Sys2Proof.Machine

/-! ### The token (R176, R177) -/

/-- R176: a place in the waiting list. -/
def joinWaiting (p : Port) (w : List Port) : List Port :=
  if p ∈ w then w else if p = .machine then p :: w else w ++ [p]

/-- R176. -/
def ownClaim : Owner := fun p _ s =>
  match s.cta.holder with
  | none => code rcOk (s.withCta { s.cta with holder := some p })
  | some q =>
    if q = p then code rcOk s else code rcDeferred (s.withCta { s.cta with waiting := joinWaiting p s.cta.waiting })

/-- R177. -/
def ownRelease : Owner := fun p _ s =>
  if s.cta.holder = some p then code rcOk (leaveToken p false s)
  else if p ∈ s.cta.waiting then code rcOk (s.withCta { s.cta with waiting := s.cta.waiting.erase p })
  else code rcNoToken s

/-! ### SET PLAN (R181 … R183, R23) -/

/-- R182: the carriage states in which a plan is applied at once. -/
def planAtOnce : CarriageState → Bool
  | .unhomed | .parked | .fixed | .held => true
  | .homing | .toPark | .toLimit | .traverse | .turning | .toFixed | .toStd | .atStd | .fault => false

/-- R23, HELD: a plan of mode SCAN leaves the carriage HELD, where a due standardization is taken (R47); one of mode PARK
or FIXED sends it on. -/
def actHeld (s : State) : State :=
  if s.cmu.plan.mode = .scan then osqOccasion s
  else if osqTakes s then takeStd s
  else
    let s := abortTraverse s
    nextMove (s.withCmu { s.cmu with turnOwed := false })

/-- R23: what the CMU does with a plan made active at once; `was` is the plan before it. -/
def actOnPlan (was : ScanPlan) (s : State) : State :=
  match s.cmu.state with
  | .parked => nextMove s
  | .fixed =>
    if s.cmu.plan.mode = .fixed ∧ s.cmu.plan.fixedPos = was.fixedPos then osqOccasion s else nextMove s
  | .held => actHeld s
  | .unhomed | .homing | .toPark | .toLimit | .traverse | .turning | .toFixed | .toStd | .atStd | .fault => s

/-- R182, R183: the plan is applied at once or becomes the pending plan. -/
def stagePlan (plan : ScanPlan) (s : State) : State :=
  if planAtOnce s.cmu.state then actOnPlan s.cmu.plan (applyPlan plan s)
  else s.withCta { s.cta with pending := some plan }

/-- R181: the result code. -/
def planCode (clamped applied : Bool) : Byte := if clamped then rcClamped else if applied then rcOk else rcDeferred

/-- R181, R182, after the token check. -/
def ownSetPlan : Owner := fun _ m s =>
  match planOf m.payload with
  | none => code rcBadField s
  | some asked =>
    let s := flushOverride s
    let plan := clampPlan s.rbs.common asked
    let applied := planAtOnce s.cmu.state
    ((stagePlan plan s).settleDrive,
      [[planCode (plan != asked) applied] ++ flagByte (!applied) ++ planBytes plan])

/-! ### HOLD, STEP and RESUME (R18, R19) -/

/-- R18: a HOLD in TRAVERSE. -/
def armHold (s : State) : State :=
  if isArmed s.cmu.hold then s else checkCommandPoint (s.withCmu { s.cmu with hold := .armed (holdStop s) })

/-- R18, R19: HOLD. -/
def takeHold (s : State) : State × List (List Byte) :=
  match s.cmu.state with
  | .traverse => code rcOk (armHold s).settleDrive
  | .toStd | .atStd => code rcDeferred (s.withCmu { s.cmu with hold := .owed .hold })
  | .unhomed | .homing | .toPark | .parked | .toLimit | .turning | .held | .toFixed | .fixed | .fault =>
    code rcWrongState s

/-- R19: a carriage HELD mid-traverse goes on, with a hold. -/
def resumeTraverse (h : Hold) (s : State) : State :=
  let s := setCarriage .traverse (s.withCmu { s.cmu with hold := h })
  checkTarget (want (dirSign s.cmu.direction * s.scanSpeed) s)

/-- R19: the turnaround owed is taken, with a hold. -/
def resumeTurn (h : Hold) (s : State) : State := turnaround (s.withCmu { s.cmu with hold := h, turnOwed := false })

/-- R19: RESUME. -/
def takeResume (s : State) : State × List (List Byte) :=
  match s.cmu.state with
  | .held => code rcOk (if s.cmu.turnOwed then resumeTurn .none s else resumeTraverse .none s).settleDrive
  | .traverse => if isArmed s.cmu.hold then code rcOk (s.withCmu { s.cmu with hold := .none }) else code rcWrongState s
  | .unhomed | .homing | .toPark | .parked | .toLimit | .turning | .toFixed | .fixed | .toStd | .atStd | .fault =>
    code rcWrongState s

/-- R19: STEP. -/
def takeStep (s : State) : State × List (List Byte) :=
  if s.cmu.state = .held then
    code rcOk (if s.cmu.turnOwed then resumeTurn (.owed .step) s else resumeTraverse (.armed (stepStop s)) s).settleDrive
  else code rcWrongState s

/-- R18, after the token check. -/
def ownHold : Owner := fun _ _ s => takeHold (flushOverride s)

/-- R19, after the token check. -/
def ownStep : Owner := fun _ _ s => takeStep (flushOverride s)

/-- R19, after the token check. -/
def ownResume : Owner := fun _ _ s => takeResume (flushOverride s)

/-! ### STANDARDIZE (R46) -/

/-- R46: the effect by step; a request already outstanding changes nothing. -/
def recordRequest (s : State) : State :=
  if s.osq.requested then s
  else
    match s.osq.step with
    | .idle =>
      let s := setDue s
      (osqOccasion (s.withOsq { s.osq with requested := true })).settleDrive
    | .travel | .settle => s.withOsq { s.osq with requested := true }
    | .reference | .fetch | .commit => s.withOsq { s.osq with renewal := some true }

/-- R46, after the token check. -/
def ownStandardize : Owner := fun _ _ s => code rcDeferred (recordRequest (flushOverride s))

/-! ### FAULT CLEAR (R10) -/

/-- R10, R21, R184: an accepted FAULT CLEAR. -/
def clearFault (s : State) : State :=
  let was := s.override
  let s := s.withCmu { s.cmu with skipCount := 0, faultCause := .none, motionFault := false }
  let s := overrideCleared was (s.returnAlarm ptMotionFault)
  (if s.cmu.homed then nextMove (applyPendingPlan s) else enterHoming s).settleDrive

/-- R10, R180: from the holder, or from any port while the token is free. -/
def ownFaultClear : Owner := fun p _ s =>
  if s.cta.holder.isSome ∧ s.cta.holder ≠ some p then code rcNoToken s
  else if s.cmu.state ≠ .fault then code rcWrongState s
  else if s.cmu.drvflt.confirmed = some true then code rcWrongState s
  else code rcOk (clearFault s)

/-! ### PARK (R20, R21) -/

/-- R20: the PARK source is set. -/
def setParkSource (s : State) : State := (takeOverride (s.withCmu { s.cmu with parkSource := true })).settleDrive

/-- R20, R21: the PARK source is cleared. -/
def clearParkSource (s : State) : State :=
  let s := flushOverride s
  (overrideCleared s.override (s.withCmu { s.cmu with parkSource := false })).settleDrive

/-- R20, R191: PARK by its action code. -/
def ownPark : Owner := fun _ m s =>
  match fieldAt m.payload 0 1 with
  | 0 => code rcOk (clearParkSource s)
  | 1 => code rcOk (setParkSource s)
  | _ => code rcBadField s

/-! ### The meanings -/

/-- Row 13, CLAIM. -/
def execClaim (p : Port) (g : Stage) (s : State) : Host.Outcome State Fault Refusal :=
  whenReleased s (request g p (ofKind 13) ownClaim)

/-- Row 14, RELEASE. -/
def execRelease (p : Port) (g : Stage) (s : State) : Host.Outcome State Fault Refusal :=
  whenReleased s (request g p (ofKind 14) ownRelease)

/-- Row 15, SET PLAN. -/
def execSetPlan (p : Port) (g : Stage) (s : State) : Host.Outcome State Fault Refusal :=
  whenReleased s (request g p (ofKind 15) (withToken ownSetPlan))

/-- Row 16, HOLD. -/
def execHold (p : Port) (g : Stage) (s : State) : Host.Outcome State Fault Refusal :=
  whenReleased s (request g p (ofKind 16) (withToken ownHold))

/-- Row 17, STEP. -/
def execStep (p : Port) (g : Stage) (s : State) : Host.Outcome State Fault Refusal :=
  whenReleased s (request g p (ofKind 17) (withToken ownStep))

/-- Row 18, RESUME. -/
def execResume (p : Port) (g : Stage) (s : State) : Host.Outcome State Fault Refusal :=
  whenReleased s (request g p (ofKind 18) (withToken ownResume))

/-- Row 19, STANDARDIZE. -/
def execStandardize (p : Port) (g : Stage) (s : State) : Host.Outcome State Fault Refusal :=
  whenReleased s (request g p (ofKind 19) (withToken ownStandardize))

/-- Row 20, FAULT CLEAR. -/
def execFaultClear (p : Port) (g : Stage) (s : State) : Host.Outcome State Fault Refusal :=
  whenReleased s (request g p (ofKind 20) ownFaultClear)

/-- Row 23 with action set. -/
def execParkSet (p : Port) (g : Stage) (s : State) : Host.Outcome State Fault Refusal :=
  whenReleased s (request g p (ofCode 23 1 2) ownPark)

/-- Row 23 with action clear. -/
def execParkClear (p : Port) (g : Stage) (s : State) : Host.Outcome State Fault Refusal :=
  whenReleased s (request g p (ofCode 23 0 2) ownPark)

end Sys2Proof.Machine
end

