-- ==== Sys2Proof/Machine/Reads.lean ====
section
/-! DEFINITION. The requests that read (rows 1 … 8), and SET DESCRIPTOR (row 25): R120, R121, R129, R140, R159, R174,
R192, R199, R200, R204. -/

namespace Sys2Proof.Machine

/-- R199: part code 720, silicon revision B, the port's name. -/
def ownIdentify : Owner := fun p _ s => (s, [[rcOk] ++ bytesBE 2 720 ++ bytesBE 1 0x42 ++ bytesBE 1 (portCode p)])

/-- R199: the state in two parts; the port's lost-notice count is then 0. -/
def ownReadState : Owner := fun p _ s =>
  (s.updPort p (fun x => { x with lost := 0 }), inParts [statePart1 s, statePart2 s p])

/-- R120: the generation a selector names, if the store holds it. The newest is the last published. -/
def resolve (p : Pen) : GenSelect → Option Generation
  | .latest => p.lastScan.bind (heldScan p)
  | .byNumber n => heldScan p n

/-- R200.1: the field values of a READ PROFILE: all but the range. -/
def profileFields (pl : List Byte) : Option (Prop4 × Form × Encoding × GenSelect) := do
  let prop ← propOfCode (fieldAt pl 0 1)
  let form ← formOfCode (fieldAt pl 1 1)
  let enc ← encOfCode (fieldAt pl 2 1)
  let sel ← genSelect pl 4
  if fieldAt pl 3 1 ≤ 7 then some (prop, form, enc, sel) else none

/-- R200.4: the first and last bin against a generation's bin count. -/
def cutRange (n : Option Nat) (first last : Nat) : Option (Nat × Nat) :=
  match n with
  | none => none
  | some n => if first < n ∧ first ≤ last then some (first, min last (n - 1)) else none

/-- R200: the chunks to follow. -/
def chunksToFollow (r : Stream) : Nat := ceilDiv (r.lastBin + 1 - r.nextBin) (binsPerChunk r.form r.enc)

/-- R200: the stream starts and the generation is pinned. -/
def startStream (p : Port) (r : Stream) (s : State) : State :=
  (s.withPen { s.pen with pins := s.pen.pins.set p (some r.scan) }).updPort p (fun x => { x with stream := .running r })

/-- R200, with the fields in range: stream, generation, range. In a request taken in two halves the stream is looked at in
the second (log entry 42). -/
def openStream (p : Port) (m : InMsg) (prop : Prop4) (form : Form) (enc : Encoding) (sel : GenSelect) (s : State) :
    State × List (List Byte) :=
  if (s.ports.get p).stream ≠ .idle then code rcBusy s
  else
    match resolve s.pen sel with
    | none => code rcNoSuch s
    | some g =>
      match cutRange g.map.n (fieldAt m.payload 9 2) (fieldAt m.payload 11 2) with
      | none => code rcBadField s
      | some (first, last) =>
        let r : Stream := ⟨m.tag, g.scan, prop, form, enc, fieldAt m.payload 3 1, first, last⟩
        (startStream p r s,
          [[rcOk] ++ bytesBE 4 g.scan.toNat ++ bytesBE 2 first ++ bytesBE 2 last ++ bytesBE 1 (chunksToFollow r)])

/-- R200. -/
def ownReadProfile : Owner := fun p m s =>
  match profileFields m.payload with
  | none => code rcBadField s
  | some (prop, form, enc, sel) => openStream p m prop form enc sel s

/-- R121. -/
def ownReadSummary : Owner := fun _ m s =>
  match genSelect m.payload 0 with
  | none => code rcBadField s
  | some sel =>
    match resolve s.pen sel with
    | none => code rcNoSuch s
    | some g => (s, [[rcOk] ++ summaryBody g])

def Azm.side (a : Azm) : MapName → ZoneSide
  | .a => a.a
  | .b => a.b

/-- R140. -/
def ownReadZones : Owner := fun _ m s =>
  match mapOfCode (fieldAt m.payload 0 1) with
  | none => code rcBadField s
  | some name =>
    match (s.azm.side name).active with
    | none => code rcNoSuch s
    | some z => (s, zonesReply name z (s.azm.side name))

/-- R129, R192: the fixed-point record as a reply. -/
def fixedReply (r : FixedRecord) : List Byte :=
  [rcOk] ++ posBytes (some r.position) ++ cycleBytes r.cycle ++ allProps.flatMap (fun p => optBytes4 (r.avgs.get p))

/-- R129. -/
def ownReadFixed : Owner := fun _ _ s =>
  match s.pen.fixedRec with
  | none => code rcNoSuch s
  | some r => (s, [fixedReply r])

/-- R174. -/
def ownReadAlarms : Owner := fun _ _ s => (s, alarmsReply s.rbs.common.levels s.rbs.common.ceiling s.alt)

/-- R159. -/
def ownReadBreakLog : Owner := fun _ _ s => (s, breakLogReply s.msm.log)

/-- R204. -/
def ownSetDescriptor : Owner := fun p m s =>
  match descriptorOf m.payload with
  | none => code rcBadField s
  | some (i, d) => code rcOk (s.updPort p (fun x => { x with descriptors := x.descriptors.set i d }))

/-! ### The meanings -/

/-- Row 1, IDENTIFY. -/
def execIdentify (p : Port) (g : Stage) (s : State) : Host.Outcome State Fault Refusal :=
  whenReleased s (requestAtPort g p (ofKind 1) ownIdentify)

/-- Row 2, READ STATE. -/
def execReadState (p : Port) (g : Stage) (s : State) : Host.Outcome State Fault Refusal :=
  whenReleased s (requestAtPort g p (ofKind 2) ownReadState)

/-- Row 3, READ PROFILE. -/
def execReadProfile (p : Port) (g : Stage) (s : State) : Host.Outcome State Fault Refusal :=
  whenReleased s (request g p (ofKind 3) ownReadProfile)

/-- Row 4, READ SUMMARY. -/
def execReadSummary (p : Port) (g : Stage) (s : State) : Host.Outcome State Fault Refusal :=
  whenReleased s (request g p (ofKind 4) ownReadSummary)

/-- Row 5, READ ZONES. -/
def execReadZones (p : Port) (g : Stage) (s : State) : Host.Outcome State Fault Refusal :=
  whenReleased s (request g p (ofKind 5) ownReadZones)

/-- Row 6, READ FIXED. -/
def execReadFixed (p : Port) (g : Stage) (s : State) : Host.Outcome State Fault Refusal :=
  whenReleased s (request g p (ofKind 6) ownReadFixed)

/-- Row 7, READ ALARMS. -/
def execReadAlarms (p : Port) (g : Stage) (s : State) : Host.Outcome State Fault Refusal :=
  whenReleased s (request g p (ofKind 7) ownReadAlarms)

/-- Row 8, READ BREAK LOG. -/
def execReadBreakLog (p : Port) (g : Stage) (s : State) : Host.Outcome State Fault Refusal :=
  whenReleased s (request g p (ofKind 8) ownReadBreakLog)

/-- Row 25, SET DESCRIPTOR. -/
def execSetDescriptor (p : Port) (g : Stage) (s : State) : Host.Outcome State Fault Refusal :=
  whenReleased s (requestAtPort g p (ofKind 25) ownSetDescriptor)

/-- UNKNOWN_KIND (R195). -/
def execUnknownKind (p : Port) (s : State) : Host.Outcome State Fault Refusal := whenReleased s (unknownKind p)

end Sys2Proof.Machine
end

