-- ==== Sys2Proof/Machine/Restart.lean ====
section
/-! DEFINITION. The requests of the machine and of the alarm table (rows 21, 22, 24) and the two restarts (rows 26, 27):
R24, R41, R43, R58, R76, R90, R106, R130, R141, R144, R145, R158, R160, R170, R171, R175, R187, R207, R208. -/

namespace Sys2Proof.Machine

/-! ### SPEED and DECLARE (R144, R145) -/

/-- R144. -/
def ownSpeed (o : OverrideOrder) : Owner := fun _ m s =>
  let v := fieldAt m.payload 0 2
  if 3000 < v then code rcBadField s
  else code rcOk (compareSpeed .speed o (s.withMsm { s.msm with speed := v })).settleDrive

/-- R145: DECLARE DOWN. -/
def declareDown (o : OverrideOrder) (s : State) : State × List (List Byte) :=
  match s.msm.state with
  | .down => code rcOk s
  | .brk | .thread | .run => code rcOk (changeState .down .declare o s).settleDrive

/-- R145: DECLARE THREADING. -/
def declareThreading (s : State) : State × List (List Byte) :=
  match s.msm.state with
  | .brk => code rcOk (changeState .thread .declare .overrideFirst s).settleDrive
  | .thread => code rcOk s
  | .down | .run => code rcWrongState s

/-- R145: DECLARE SHEET ON. -/
def declareSheetOn (s : State) : State × List (List Byte) :=
  match s.msm.state with
  | .brk | .thread => code rcOk (changeState .run .declare .overrideFirst s).settleDrive
  | .run => code rcOk s
  | .down => code rcWrongState s

/-- R145: DECLARE BREAK. -/
def declareBreak (o : OverrideOrder) (s : State) : State × List (List Byte) :=
  match s.msm.state with
  | .down => code rcWrongState s
  | .brk | .thread | .run => code rcOk (takeCause .declare s.cmu.position s.hbc.cycle .declare o s).settleDrive

/-- R145: DECLARE by its name. -/
def ownDeclare (o : OverrideOrder) : Owner := fun _ m s =>
  match fieldAt m.payload 0 1 with
  | 0 => declareDown o s
  | 1 => declareThreading s
  | 2 => declareSheetOn s
  | 3 => declareBreak o s
  | _ => code rcBadField s

/-! ### ACK ALARM (R158, R170, R171) -/

/-- R158: the newest record is marked. -/
def markAcked (p : Port) (r : BreakRecord) : BreakRecord := if r.ackedBy.isNone then { r with ackedBy := some p } else r

/-- R158: an acknowledgement of BREAK reaches the MSM. -/
def ackBreak (i : PointNo) (p : Port) (s : State) : State :=
  if i = ptBreak then s.withMsm (updNewest (markAcked p) s.msm) else s

/-- R171: the ACKED notice to every port but one. -/
def ackedNotices (p : Port) (payload : List Byte) (s : State) : State :=
  (allPorts.filter (fun q => q != p)).foldl (fun s q => s.notify q kAcked payload) s

/-- R170, R171: an accepted acknowledgement. -/
def acceptAck (p : Port) (i : PointNo) (ap : AltPorts) (s : State) : State :=
  let s := ackBreak i p (s.withAlarms ap)
  ackedNotices p (ackedPayload i (s.alt.points[i]).state p s.alt.floor) s

/-- R170. -/
def ownAckAlarm : Owner := fun p m s =>
  if h : fieldAt m.payload 0 1 < 30 then
    match ackPoint s.alarmCtx ⟨fieldAt m.payload 0 1, h⟩ s.alarms with
    | none => code rcNotUnacked s
    | some ap => code rcOk (acceptAck p ⟨fieldAt m.payload 0 1, h⟩ ap s)
  else code rcBadField s

/-! ### RESTART (R207), block by block -/

/-- R24, but for the carriage state. -/
def restartCmu (c : Cmu) : Cmu := { c with skipCount := 0, hold := .none, turnOwed := false, overrideWait := 0 }

/-- R90. -/
def restartRbs (r : Rbs) : Rbs := { r with pending := none }

/-- R130. -/
def restartPen (p : Pen) : Pen :=
  { penPowerOn with
    counter := p.counter
    lastScan := p.lastScan
    filter := { p.filter with bins := p.filter.bins.map (List.map (fun _ => none)) } }

/-- R141. -/
def restartZone (z : ZoneSide) : ZoneSide :=
  { z with outs := z.outs.map (fun _ => .none), lastScan := none, frozen := false, assembly := none }

def restartAzm (a : Azm) : Azm := ⟨restartZone a.a, restartZone a.b⟩

/-- R160. -/
def restartMsm (m : Msm) : Msm :=
  { m with state := .down, speed := 0, source := true, run := none, holeSeen := false, widthPasses := 0 }

/-- R175. -/
def restartAlt (ceiling : Nat) (a : Alt) : Alt :=
  ⟨a.points.map (fun p => { p with state := .normal, annunciated := false, suppressed := false }), ceiling, []⟩

/-- R207, R208. -/
def restartPort (p : PortState) : PortState := { p with outbound := [], stream := .idle }

/-- R43: RESET pending. -/
def restartHbc (h : Hbc) : Hbc := { h with resetPending := true }

/-- The blocks in their restart states; the carriage has not moved yet. The abort of a standardization leaves every head in
the state it had, as R43 gives (log entry 32). -/
def restartBlocks (s : State) : State :=
  let s := abortStdWith abandonUntilReset (abortTraverse s)
  let s := s.withCmu (restartCmu s.cmu)
  let s := s.withHbc (restartHbc s.hbc)
  let s := s.withRbs (restartRbs s.rbs)
  let s := s.withEbm ebmPowerOn
  let s := s.withPen (restartPen s.pen)
  let s := s.withAzm (restartAzm s.azm)
  let s := s.withMsm (restartMsm s.msm)
  let s := s.withAlt (restartAlt s.rbs.common.ceiling s.alt)
  let s := s.withCta ctaPowerOn
  s.withPorts (s.ports.map restartPort)

/-- R24, R58: the conditions whose owners activate them again at once, MOTION FAULT first (log entries 10 and 24). -/
def reactivate (s : State) : State :=
  let s := if s.cmu.state = .fault then s.activate ptMotionFault else s
  let late := isOverdue s
  let s := s.withOsq { s.osq with overdue := late }
  if late then s.activate ptOverdue else s

/-- R24: the carriage states a restart sends TO_PARK. -/
def restartMoves : CarriageState → Bool
  | .traverse | .turning | .toLimit | .toFixed | .fixed | .held | .toStd | .atStd => true
  | .unhomed | .homing | .toPark | .parked | .fault => false

/-- R207: the controller restart. -/
def controllerRestart (s : State) : State :=
  let s := reactivate (restartBlocks s)
  (if restartMoves s.cmu.state then goPark nextMove s else s).settleDrive

/-- R207. -/
def ownRestart : Owner := fun _ _ s => code rcOk (controllerRestart s)

/-- R41. -/
def ownHeadRestart : Owner := fun _ _ s => code rcOk (s.withHbc { s.hbc with resetPending := true })

/-! ### The meanings -/

/-- Row 21, SPEED. -/
def execSpeed (p : Port) (g : Stage) (o : OverrideOrder) (s : State) : Host.Outcome State Fault Refusal :=
  whenReleased s (request g p (ofKind 21) (ownSpeed o))

/-- Row 22 naming DOWN. -/
def execDeclareDown (p : Port) (g : Stage) (o : OverrideOrder) (s : State) : Host.Outcome State Fault Refusal :=
  whenReleased s (request g p (ofCode 22 0 4) (ownDeclare o))

/-- Row 22 naming THREADING. -/
def execDeclareThreading (p : Port) (g : Stage) (s : State) : Host.Outcome State Fault Refusal :=
  whenReleased s (request g p (ofCode 22 1 4) (ownDeclare .overrideFirst))

/-- Row 22 naming SHEET ON. -/
def execDeclareSheetOn (p : Port) (g : Stage) (s : State) : Host.Outcome State Fault Refusal :=
  whenReleased s (request g p (ofCode 22 2 4) (ownDeclare .overrideFirst))

/-- Row 22 naming BREAK. -/
def execDeclareBreak (p : Port) (g : Stage) (o : OverrideOrder) (s : State) : Host.Outcome State Fault Refusal :=
  whenReleased s (request g p (ofCode 22 3 4) (ownDeclare o))

/-- Row 24, ACK ALARM. -/
def execAckAlarm (p : Port) (g : Stage) (s : State) : Host.Outcome State Fault Refusal :=
  whenReleased s (request g p (ofKind 24) ownAckAlarm)

/-- Row 26, RESTART. -/
def execRestart (p : Port) (g : Stage) (s : State) : Host.Outcome State Fault Refusal :=
  whenReleased s (requestAtPort g p (ofKind 26) ownRestart)

/-- Row 27, HEAD RESTART. -/
def execHeadRestart (p : Port) (g : Stage) (s : State) : Host.Outcome State Fault Refusal :=
  whenReleased s (request g p (ofKind 27) ownHeadRestart)

end Sys2Proof.Machine
end

