-- ==== Sys2Proof/Machine/Writes.lean ====
section
/-! DEFINITION. The requests that write recipes and zone maps (rows 9 … 12): R78 … R80, R82, R84, R85, R132. -/

namespace Sys2Proof.Machine

/-! ### WRITE BANK (R82) -/

/-- R82.2: a bank active or pending. -/
def bankInUse (r : Rbs) (k : BankNo) : Bool := r.active == some k || r.pending.map Prod.fst == some k

/-- R82. -/
def ownWriteBank : Owner := fun _ m s =>
  match bankOfCode (fieldAt m.payload 0 1) with
  | none => code rcBadField s
  | some k =>
    if bankInUse s.rbs k then code rcBankInUse s
    else if !bankOk (bankFieldsOf m.payload) then code rcBadField s
    else code rcOk (s.withRbs { s.rbs with banks := s.rbs.banks.set k (some (bankFieldsOf m.payload)) })

/-! ### WRITE COMMON (R78 … R80) -/

/-- R78.2: the rest states of a WRITE COMMON. -/
def restForWrite : CarriageState → Bool
  | .parked | .unhomed | .fault => true
  | .homing | .toPark | .toLimit | .traverse | .turning | .held | .toFixed | .fixed | .toStd | .atStd => false

/-- R79. -/
def fieldsOk (s : State) (es : List (Nat × Nat)) : Bool :=
  commonWriteOk s.rbs.common es &&
  (!s.cmu.homed || inWindow (writeEntries s.rbs.common es).pMax s.cmu.position)

/-- R144: the crawl speed has changed. -/
def crawlEffect (old : CommonBank) (s : State) : State :=
  if s.rbs.common.crawl = old.crawl then s else compareSpeed .crawlChange .overrideFirst s

/-- R173: levels or the ceiling have changed. -/
def levelEffect (old : CommonBank) (s : State) : State :=
  if s.rbs.common.levels = old.levels ∧ s.rbs.common.ceiling = old.ceiling then s else s.relevel

/-- R197: a port whose running timer stands at or above the silent time. -/
def timerOver (s : State) (p : Port) : Bool :=
  let x := s.ports.get p
  !x.silent && s.rbs.common.silentTime != 0 && decide (s.rbs.common.silentTime * unitsPerSecond ≤ x.silentTimer)

/-- R197: the silent time has been written. Ports it silences go SILENT in the order QUALITY, MACHINE, ACTUATOR (log entry
10). -/
def silenceEffect (named : Bool) (s : State) : State :=
  if named then allPorts.foldl (fun s p => if timerOver s p then becomeSilent p s else s) s else s

/-- R56: the overdue time stands anew against the due age. -/
def overdueEffect (s : State) : State :=
  if isOverdue s ∧ !s.osq.overdue then (s.withOsq { s.osq with overdue := true }).activate ptOverdue
  else if s.osq.overdue ∧ !isOverdue s then (s.withOsq { s.osq with overdue := false }).returnAlarm ptOverdue
  else s

/-- R143: a line whose reading the write turns absent is a line cause. -/
def lineEffect (old : CommonBank) (s : State) (l : BreakLine) : State :=
  if lineReading s.rbs.common s.msm l = .absent ∧ lineReading old s.msm l ≠ .absent then lineCause l .overrideFirst s else s

/-- R143, R150: enables and polarities have changed; `was` is the machine state the write was taken in. Lines turned absent
are causes in the order BL0 … BL3 (log entry 10). -/
def linesEffect (old : CommonBank) (was : MachineState) (s : State) : State :=
  if s.rbs.common.lineEnable = old.lineEnable ∧ s.rbs.common.lineLow = old.lineLow then s
  else
    let s := allLines.foldl (lineEffect old) s
    if was = .brk ∧ s.msm.state = .brk then testLines s else s

/-- R80: the fields of an accepted write reach the blocks that use them. -/
def applyCommon (es : List (Nat × Nat)) (s : State) : State :=
  let old := s.rbs.common
  let was := s.msm.state
  let s := s.withRbs { s.rbs with common := writeEntries old es }
  let s := levelEffect old (crawlEffect old s)
  let s := overdueEffect (silenceEffect ((es.map Prod.fst).contains 41) s)
  (linesEffect old was s).settleDrive

/-- R78, after the token check. -/
def ownWriteCommon : Owner := fun _ m s =>
  let es := commonEntries m.payload 1 (fieldAt m.payload 0 1)
  if !restForWrite s.cmu.state then code rcWrongState s
  else if !fieldsOk s es then code rcBadField s
  else code rcOk (applyCommon es s)

/-! ### SELECT GRADE (R84, R85) -/

/-- R84: the carriage is where a grade is applied at once. -/
def gradeAtOnce (c : Cmu) : Bool :=
  match c.state with
  | .parked | .fixed | .unhomed | .fault => true
  | .held => c.turnOwed
  | .homing | .toPark | .toLimit | .traverse | .turning | .toFixed | .toStd | .atStd => false

/-- R85, R196: the requester of a pending grade is told what took its place; a SILENT one loses the notice, uncounted (log
entry 34). -/
def gradeNotice (k : BankNo) (p : Port) (was : Option (BankNo × Port)) (s : State) : State :=
  match was with
  | none => s
  | some (_, q) => s.notify q kGrade (gradePayload k p)

/-- R85: the pending grade becomes this bank with this requester. -/
def pendGrade (k : BankNo) (p : Port) (s : State) : State :=
  if s.rbs.pending = some (k, p) then s
  else gradeNotice k p s.rbs.pending (s.withRbs { s.rbs with pending := some (k, p) })

/-- R84. -/
def ownSelectGrade : Owner := fun p m s =>
  match bankOfCode (fieldAt m.payload 0 1) with
  | none => code rcBadField s
  | some k =>
    if (s.rbs.banks[k]).isNone then code rcNoSuch s
    else if s.rbs.active = some k then
      code rcOk (gradeNotice k p s.rbs.pending (s.withRbs { s.rbs with pending := none }))
    else if s.rbs.active.isNone || gradeAtOnce s.cmu then code rcOk (applyGrade k s)
    else code rcDeferred (pendGrade k p s)

/-! ### WRITE ZONE MAP (R132) -/

/-- R132.4: the assembly a part joins. -/
def joinAssembly (z : ZoneSide) (prop : Prop4) (count first : Nat) : Option Assembly :=
  if first = 0 then some ⟨prop, count, []⟩
  else z.assembly.filter (fun a => a.prop == prop && a.count == count && a.spans.length == first)

/-- R132.2 to R132.6: the assembly after a part that passes the checks. -/
def partAssembly (z : ZoneSide) (pl : List Byte) : Option Assembly := do
  let prop ← propOfCode (fieldAt pl 1 1)
  let count := fieldAt pl 2 1
  let first := fieldAt pl 3 1
  let spans := spansOf pl 4 ((pl.length - 4) / 4)
  let a ← joinAssembly z prop count first
  if 1 ≤ count ∧ count ≤ 96 ∧ first + spans.length ≤ count ∧ spansOrdered a.spans.getLast? spans
  then some { a with spans := a.spans ++ spans } else none

/-- R132: one part on one map, with the reply. -/
def takePart (z : ZoneSide) (pl : List Byte) : ZoneSide × Byte :=
  match partAssembly z pl with
  | none => ({ z with assembly := none }, rcBadField)
  | some a =>
    if a.spans.length = a.count then ({ z with assembly := none, staged := some ⟨a.prop, a.spans⟩ }, rcDeferred)
    else ({ z with assembly := some a }, rcOk)

/-- R132. -/
def ownWriteZoneMap : Owner := fun _ m s =>
  match mapOfCode (fieldAt m.payload 0 1) with
  | none => code rcBadField s
  | some .a =>
    let r := takePart s.azm.a m.payload
    code r.2 (s.withAzm { s.azm with a := r.1 })
  | some .b =>
    let r := takePart s.azm.b m.payload
    code r.2 (s.withAzm { s.azm with b := r.1 })

/-! ### The meanings -/

/-- Row 9, WRITE BANK. -/
def execWriteBank (p : Port) (g : Stage) (s : State) : Host.Outcome State Fault Refusal :=
  whenReleased s (request g p (ofKind 9) ownWriteBank)

/-- Row 10, WRITE COMMON. -/
def execWriteCommon (p : Port) (g : Stage) (s : State) : Host.Outcome State Fault Refusal :=
  whenReleased s (request g p (ofKind 10) (withToken ownWriteCommon))

/-- Row 11, SELECT GRADE. -/
def execSelectGrade (p : Port) (g : Stage) (s : State) : Host.Outcome State Fault Refusal :=
  whenReleased s (request g p (ofKind 11) ownSelectGrade)

/-- Row 12, WRITE ZONE MAP. -/
def execWriteZoneMap (p : Port) (g : Stage) (s : State) : Host.Outcome State Fault Refusal :=
  whenReleased s (request g p (ofKind 12) ownWriteZoneMap)

end Sys2Proof.Machine
end

