-- ==== Sys2Proof/Machine/Dispatch.lean ====
section
/-! DEFINITION. The dispatch of a command to its meaning: one arm per command of the table. -/

namespace Sys2Proof.Machine

/-- The effect of a command on everything but the queue. -/
def exec (i : Instr) (s : State) : Host.Outcome State Fault Refusal :=
  match i with
  | .powerOn => Sys2Proof.Machine.execPowerOn s
  | .rstConfirmed => Sys2Proof.Machine.execRstConfirmed s
  | .rstRelease rate1 rate0 => Sys2Proof.Machine.execRstRelease rate1 rate0 s
  | .encoderCount d => Sys2Proof.Machine.execEncoderCount d s
  | .encoderSkip => Sys2Proof.Machine.execEncoderSkip s
  | .driveWordRepeat => Sys2Proof.Machine.execDriveWordRepeat s
  | .dwellEnd => Sys2Proof.Machine.execDwellEnd s
  | .stallTimeout => Sys2Proof.Machine.execStallTimeout s
  | .drvfltConfirmed active => Sys2Proof.Machine.execDrvfltConfirmed active s
  | .homeConfirmed active => Sys2Proof.Machine.execHomeConfirmed active s
  | .cycleStart => Sys2Proof.Machine.execCycleStart s
  | .uplinkSample ch w => Sys2Proof.Machine.execUplinkSample ch w s
  | .missingRunLimit ch w => Sys2Proof.Machine.execMissingRunLimit ch w s
  | .ackWindowExpiry ch w => Sys2Proof.Machine.execAckWindowExpiry ch w s
  | .doneDeadline ch w => Sys2Proof.Machine.execDoneDeadline ch w s
  | .answerWindowExpiry ch w => Sys2Proof.Machine.execAnswerWindowExpiry ch w s
  | .cycleRecordFormed => Sys2Proof.Machine.execCycleRecordFormed s
  | .penTakeRecord => Sys2Proof.Machine.execPenTakeRecord s
  | .fixedPeriodComplete => Sys2Proof.Machine.execFixedPeriodComplete s
  | .ebmWatchRecord => Sys2Proof.Machine.execEbmWatchRecord s
  | .edgeGapLimit => Sys2Proof.Machine.execEdgeGapLimit s
  | .msmTakeRecord o => Sys2Proof.Machine.execMsmTakeRecord o s
  | .sheetLost o => Sys2Proof.Machine.execSheetLost o s
  | .sheetRunGapLimit => Sys2Proof.Machine.execSheetRunGapLimit s
  | .settleExpiry => Sys2Proof.Machine.execSettleExpiry s
  | .overdueExpiry => Sys2Proof.Machine.execOverdueExpiry s
  | .breakLineConfirmed l high o => Sys2Proof.Machine.execBreakLineConfirmed l high o s
  | .messageReceived p cs => Sys2Proof.Machine.execMessageReceived p cs s
  | .badMessage p cs => Sys2Proof.Machine.execBadMessage p cs s
  | .intercharTimeout p => Sys2Proof.Machine.execIntercharTimeout p s
  | .portSilent p => Sys2Proof.Machine.execPortSilent p s
  | .messageSent p => Sys2Proof.Machine.execMessageSent p s
  | .readChunk p => Sys2Proof.Machine.execReadChunk p s
  | .supersededChunk p => Sys2Proof.Machine.execSupersededChunk p s
  | .unknownKind p => Sys2Proof.Machine.execUnknownKind p s
  | .identify p g => Sys2Proof.Machine.execIdentify p g s
  | .readState p g => Sys2Proof.Machine.execReadState p g s
  | .readProfile p g => Sys2Proof.Machine.execReadProfile p g s
  | .readSummary p g => Sys2Proof.Machine.execReadSummary p g s
  | .readZones p g => Sys2Proof.Machine.execReadZones p g s
  | .readFixed p g => Sys2Proof.Machine.execReadFixed p g s
  | .readAlarms p g => Sys2Proof.Machine.execReadAlarms p g s
  | .readBreakLog p g => Sys2Proof.Machine.execReadBreakLog p g s
  | .writeBank p g => Sys2Proof.Machine.execWriteBank p g s
  | .writeCommon p g => Sys2Proof.Machine.execWriteCommon p g s
  | .selectGrade p g => Sys2Proof.Machine.execSelectGrade p g s
  | .writeZoneMap p g => Sys2Proof.Machine.execWriteZoneMap p g s
  | .claim p g => Sys2Proof.Machine.execClaim p g s
  | .release p g => Sys2Proof.Machine.execRelease p g s
  | .setPlan p g => Sys2Proof.Machine.execSetPlan p g s
  | .hold p g => Sys2Proof.Machine.execHold p g s
  | .step p g => Sys2Proof.Machine.execStep p g s
  | .resume p g => Sys2Proof.Machine.execResume p g s
  | .standardize p g => Sys2Proof.Machine.execStandardize p g s
  | .faultClear p g => Sys2Proof.Machine.execFaultClear p g s
  | .speed p g o => Sys2Proof.Machine.execSpeed p g o s
  | .declareDown p g o => Sys2Proof.Machine.execDeclareDown p g o s
  | .declareThreading p g => Sys2Proof.Machine.execDeclareThreading p g s
  | .declareSheetOn p g => Sys2Proof.Machine.execDeclareSheetOn p g s
  | .declareBreak p g o => Sys2Proof.Machine.execDeclareBreak p g o s
  | .parkSet p g => Sys2Proof.Machine.execParkSet p g s
  | .parkClear p g => Sys2Proof.Machine.execParkClear p g s
  | .ackAlarm p g => Sys2Proof.Machine.execAckAlarm p g s
  | .setDescriptor p g => Sys2Proof.Machine.execSetDescriptor p g s
  | .restart p g => Sys2Proof.Machine.execRestart p g s
  | .headRestart p g => Sys2Proof.Machine.execHeadRestart p g s
  | .characterReceived p c => Sys2Proof.Machine.execCharacterReceived p c s

end Sys2Proof.Machine
end

