-- ==== Sys2Proof/Safety.lean ====
section
/-! DEFINITION. What counts as a safe state of the FP-720: the rules of the manual that hold of every state a run
reaches, each over the fields of one block or of two that must agree. -/

namespace Sys2Proof.Safety

open Sys2Proof.Machine

/-! ### Link ports (R194, R196) -/

/-- R194, R196: at most 4 inbound messages; at most 32 outbound entries occupied or reserved, at most 24 push reports. -/
def portQueuesOk (p : PortState) : Prop :=
  p.inbound.length ≤ 4 ∧ p.outbound.length + p.reserved ≤ 32 ∧ p.pushes ≤ 24

def queuesOk (s : State) : Prop := ∀ p : Port, portQueuesOk (s.ports.get p)

/-! ### The token, silence and pins (R176, R179, R203) -/

/-- R176: the waiting list is empty while the token is free, names no port twice and not the holder. -/
def waitingOk (c : Cta) : Prop :=
  (c.holder = none → c.waiting = []) ∧ c.waiting.Nodup ∧ ∀ p, c.holder = some p → p ∉ c.waiting

/-- R197, R198: a SILENT port has no message waiting and no request its owner may still take. -/
def silentIdle (p : PortState) : Prop :=
  p.silent = true → p.inbound = [] ∧ p.stream = .idle ∧ ∀ h, p.handling = some h → h.cancelled = true

/-- R179: a SILENT port holds neither the token, nor a waiting claim, nor a pin. -/
def silentHoldsNothing (s : State) (p : Port) : Prop :=
  (s.ports.get p).silent = true → s.cta.holder ≠ some p ∧ p ∉ s.cta.waiting ∧ s.pen.pins.get p = none

def tokenOk (s : State) : Prop :=
  waitingOk s.cta ∧ ∀ p : Port, silentIdle (s.ports.get p) ∧ silentHoldsNothing s p

/-- A scan is held in a slot of the store. -/
def inStore (p : Pen) (n : ScanNo) : Prop := ∃ i : Fin 3, ∃ g : Generation, p.slots[i] = some g ∧ g.scan = n

/-- R120, R203: a port has a pin exactly while its stream is RUNNING, on the scan of the stream, which is in the
store. -/
def pinOk (s : State) (p : Port) : Prop :=
  match (s.ports.get p).stream with
  | .running r => s.pen.pins.get p = some r.scan ∧ inStore s.pen r.scan
  | .idle => s.pen.pins.get p = none
  | .ending _ => s.pen.pins.get p = none

def pinsOk (s : State) : Prop := ∀ p : Port, pinOk s p

/-! ### Alarm table (R167) -/

/-- R167: F is the smaller of the ceiling and the lowest level among the annunciated points that wait for an
acknowledgement, but for those of level 7 that have returned (R173). -/
def floorOk (s : State) : Prop :=
  s.alt.floor ≤ s.rbs.common.ceiling ∧
  (∀ i : PointNo, (s.alt.points[i]).holdsFloor (levelOf s.rbs.common.levels i) = true → s.alt.floor ≤ levelOf s.rbs.common.levels i) ∧
  (s.alt.floor = s.rbs.common.ceiling ∨
    ∃ i : PointNo, (s.alt.points[i]).holdsFloor (levelOf s.rbs.common.levels i) = true ∧ s.alt.floor = levelOf s.rbs.common.levels i)

/-! ### Break log (R155, R157) -/

/-- R155: at most four subsequent causes, no two of the causes alike. -/
def recordOk (r : BreakRecord) : Prop :=
  r.later.length ≤ 4 ∧ (r.first.kind :: r.later.map LaterCause.kind).Nodup

/-- R155, R157: at most eight records, each in order; only the newest may be open, and none is in RUN. -/
def logOk (m : Msm) : Prop :=
  m.log.length ≤ 8 ∧ (∀ r ∈ m.log, recordOk r) ∧ (∀ r ∈ m.log.tail, r.isOpen = false) ∧
  (m.state = .run → ∀ r ∈ m.log, r.isOpen = false)

/-! ### The carriage and the blocks that follow it -/

/-- R32, R36 … R38: a channel whose head is ABSENT is FINISHED in the sequence in flight. -/
def absentFinished (h : Hbc) : Prop :=
  ∀ (q : Sequence) (k : RefChan) (e : SeqEntry), h.seq = some q → q.entries.get k = some e →
    (h.heads.get k.chan).state = .absent → e.phase = .finished

/-- R48, R53: the carriage travels TO_STD in TRAVEL, stands AT_STD from SETTLE to FETCH, and is in neither state
otherwise; the settle timer runs in SETTLE alone; COMMIT is one event. R44: the scan count stops at 255. -/
def standardizeOk (s : State) : Prop :=
  (s.osq.step = .travel ↔ s.cmu.state = .toStd) ∧
  ((s.osq.step = .settle ∨ s.osq.step = .reference ∨ s.osq.step = .fetch) ↔ s.cmu.state = .atStd) ∧
  (s.osq.settle.isSome = true ↔ s.osq.step = .settle) ∧
  s.osq.step ≠ .commit ∧ s.osq.scanCount ≤ 255 ∧ absentFinished s.hbc

/-- R91, R107, R128, R16, R19: the accumulation window and the edge watch are OPEN exactly while a traverse is in
progress, the fixed-point period exactly in FIXED. -/
def traverseOk (s : State) : Prop :=
  (s.pen.window.isSome = true ↔ s.cmu.inTraverse = true) ∧
  (s.ebm.watch.opened = true ↔ s.cmu.inTraverse = true) ∧
  (s.pen.period.isSome = true ↔ s.cmu.state = .fixed)

/-- R9, R10, R24: the motion-fault source of park override is set exactly in FAULT. -/
def faultOk (s : State) : Prop := s.cmu.motionFault = true ↔ s.cmu.state = .fault

/-- R20, R153: the MSM's source is set exactly in DOWN and BREAK; under active park override the carriage is in none of the
states that park override sends TO_PARK, but for an override that waits while the CMU takes encoder counts (R22, R127). -/
def overrideOk (s : State) : Prop :=
  (s.msm.source = true ↔ (s.msm.state = .down ∨ s.msm.state = .brk)) ∧
  (s.cmu.overrideUntaken = true → s.msm.source = true) ∧
  (s.override = true → s.cmu.overrideUntaken = false → overrideMoves s.cmu.state = false)

/-- The carriage state and the blocks that follow it agree. -/
def carriageOk (s : State) : Prop := overrideOk s ∧ standardizeOk s ∧ traverseOk s ∧ faultOk s

/-- R6, R7: the word the drive last took is the command in force; the stall timer runs exactly while that command is not
zero; it is zero through a dwell, and with no dwell it is the command the carriage state calls for. -/
def driveOk (d : Drive) : Prop :=
  d.word = driveWord d.out ∧ (d.stall.isSome = true ↔ d.out ≠ 0) ∧ (d.dwell.isSome = true → d.out = 0) ∧
  (d.dwell = none → d.out = d.wanted)

/-! ### The terms the statements use -/

/-- R6: no command waits for the drive: with no dwell running, the command in force is the one wanted. -/
abbrev driveSettled (s : State) : Prop := s.drive.dwell = none → s.drive.out = s.drive.wanted

/-- R195: `m` is the oldest message of a port that may take it: the part is released, no request is in handling, and
`need` outbound entries are free. -/
abbrev waits (s : State) (p : Port) (m : InMsg) (need : Nat) : Prop :=
  s.held = false ∧ (s.ports.get p).inbound.head? = some m ∧ (s.ports.get p).handling = none ∧
  (s.ports.get p).outbound.length + need ≤ 32

/-- R190, R195: one part of the reply to a request. -/
def replyTo (m : InMsg) (body : List Byte) : OutMsg := ⟨.reply, m.kind + 0x80#8, m.tag, body⟩

/-- R195: the ports after `m` has been taken and answered on a port: the message is out of the inbound buffer, and the
parts of the reply stand last in the outbound queue. -/
def answeredPorts (s : State) (p : Port) (m : InMsg) (bodies : List (List Byte)) : PerPort PortState :=
  s.ports.set p { s.ports.get p with
    inbound := (s.ports.get p).inbound.drop 1
    outbound := (s.ports.get p).outbound ++ bodies.map (replyTo m) }

/-- The state that differs from another in nothing but the answer to `m`. -/
def answered (s : State) (p : Port) (m : InMsg) (bodies : List (List Byte)) : State :=
  { s with ports := answeredPorts s p m bodies }

/-- The message a port has answered is gone, and its reply, of one part that begins with a result code, is the last
message queued. -/
def repliedWith (t : State) (p : Port) (m : InMsg) (rc : Byte) : Prop :=
  (t.ports.get p).handling = none ∧ ∃ rest, (t.ports.get p).outbound.getLast? = some (replyTo m (rc :: rest))

/-- An alarm point is active. -/
abbrev alarmActive (s : State) (i : PointNo) : Prop :=
  (s.alt.points[i]).state = .activeUnack ∨ (s.alt.points[i]).state = .activeAck

/-- R96: the tracked edge and the jump count of one side after a capture, or none, under the edge tolerance of the active
bank, if there is one. -/
def sideTracked (tolerance : Option Nat) (capture before : Option Int) (jumps : Nat) (after : Option Int) (jumps' : Nat) :
    Prop :=
  (capture = none → after = before ∧ jumps' = jumps) ∧
  (∀ c, capture = some c → (before = none ∨ tolerance = none) → after = some c ∧ jumps' = 0) ∧
  ∀ (c e : Int) (tol : Nat), capture = some c → before = some e → tolerance = some tol →
    ((c - e).natAbs ≤ tol → after = some c ∧ jumps' = 0) ∧
    (tol < (c - e).natAbs → jumps < 2 → after = before ∧ jumps' = jumps + 1) ∧
    (tol < (c - e).natAbs → 2 ≤ jumps → after = some c ∧ jumps' = 0)

/-- R9, R22, R54: what the entry into FAULT leaves, from the state before it. -/
def faultEntered (s t : State) (cause : FaultCause) : Prop :=
  t.cmu.state = .fault ∧ t.cmu.faultCause = cause ∧ t.drive.out = 0 ∧ t.drive.wanted = 0 ∧ t.drive.dwell = none ∧
  t.drive.stall = none ∧ t.cmu.hold = .none ∧ t.cmu.turnOwed = false ∧ t.cmu.motionFault = true ∧
  alarmActive t ptMotionFault ∧ t.osq.step = .idle ∧ t.scv.refs = s.scv.refs ∧ t.pen.counter = s.pen.counter ∧
  t.pen.slots = s.pen.slots ∧ t.hbc = (if s.osq.step = .idle then s.hbc else abandonSeq s.hbc) ∧
  (s.cmu.inTraverse = true → t.pen.window = none ∧ t.ebm.watch.opened = false ∧ t.cmu.retraverseOwed = true)

/-- R149, R153, R155: what the entry into BREAK from RUN or THREAD leaves, with its first-out cause. -/
def breakEntered (s t : State) (kind : CauseKind) (pos : Int) (c : Cycle) : Prop :=
  t.msm.state = .brk ∧ t.msm.source = true ∧ t.msm.widthPasses = 0 ∧
  t.msm.log.head? = some ⟨s.msm.nextBreak, ⟨kind, pos, s.pen.counter, c⟩, [], 0, none, none, none, true⟩ ∧
  t.msm.log.length = min 8 (s.msm.log.length + 1) ∧ t.msm.nextBreak = s.msm.nextBreak + 1 ∧
  (t.alt.points[ptBreak]).state = .activeUnack ∧ (t.alt.points[ptBreak]).annunciated = true ∧
  (t.alt.points[ptBreak]).count = min 65535 ((s.alt.points[ptBreak]).count + 1)

/-- R33: what the loss of a head leaves. -/
def headLost (t : State) (ch : Channel) (cause : AbsentCause) : Prop :=
  (t.hbc.heads.get ch).state = .absent ∧ (t.hbc.heads.get ch).cause = cause ∧ alarmActive t (ptHeadAbsent ch)

/-- The rows of the request table of R195: the request kind, the code the command names where two or more commands share
the kind, and the command (one that carries an override order, with it). -/
def requestTable (o : OverrideOrder) : List (Nat × Option Nat × (Port → Stage → Instr)) :=
  [(1, none, .identify), (2, none, .readState), (3, none, .readProfile), (4, none, .readSummary), (5, none, .readZones),
   (6, none, .readFixed), (7, none, .readAlarms), (8, none, .readBreakLog), (9, none, .writeBank),
   (10, none, .writeCommon), (11, none, .selectGrade), (12, none, .writeZoneMap), (13, none, .claim),
   (14, none, .release), (15, none, .setPlan), (16, none, .hold), (17, none, .step), (18, none, .resume),
   (19, none, .standardize), (20, none, .faultClear), (21, none, (.speed · · o)), (22, some 0, (.declareDown · · o)),
   (22, some 1, .declareThreading), (22, some 2, .declareSheetOn), (22, some 3, (.declareBreak · · o)),
   (23, some 0, .parkClear), (23, some 1, .parkSet), (24, none, .ackAlarm), (25, none, .setDescriptor),
   (26, none, .restart), (27, none, .headRestart)]

/-- A message is one for a row of the request table: it has the row's kind, and where the row names a code, a payload of
one byte is that code. -/
abbrev forRow (n : Nat) (named : Option Nat) (m : InMsg) : Prop :=
  m.kind = BitVec.ofNat 8 n ∧ ∀ k, named = some k → m.payload.length = 1 → m.payload = [BitVec.ofNat 8 k]

/-- R191: the payload of a WRITE BANK that carries a grade bank. -/
def bankBytes (k : BankNo) (b : GradeBank) : List Byte :=
  let table (t : List Breakpoint) : List Byte := bytesBE 1 t.length ++ t.flatMap (fun e => bytesBE 2 e.x ++ bytesBE 2 e.y)
  let highLow (l : Limits) : List Byte := bytesBE 2 l.high ++ bytesBE 2 l.low
  bytesBE 1 (k.val + 1) ++ bytesBE 4 b.width ++ bytesBE 2 b.n ++ bytesBE 2 b.guard ++ bytesBE 2 b.tolerance ++
  bytesBE 1 b.minSamples ++ bytesBE 2 b.weight ++ table b.betaTable ++ table b.irwTable ++ bytesBE 2 b.gain ++
  intBE 2 b.kT ++ intBE 2 b.tRef ++ highLow b.limits.bw ++ highLow b.limits.moi ++ highLow b.limits.cal ++
  highLow b.limits.dry ++ bytesBE 2 b.limits.bw.spread ++ bytesBE 2 b.limits.moi.spread ++
  bytesBE 2 b.limits.cal.spread ++ bytesBE 2 b.limits.dry.spread ++ bytesBE 1 b.settle

/-- The fields of a grade bank that R81 bounds by their width alone. -/
def bankFits (b : GradeBank) : Prop :=
  (∀ e ∈ b.betaTable ++ b.irwTable, e.x ≤ 65535 ∧ e.y ≤ 65535) ∧ -32768 ≤ b.kT ∧ b.kT ≤ 32767 ∧
  ∀ q, (b.limits.get q).spread ≤ 65535

/-- R181: the checks on the fields of a scan plan. -/
def planInRange (p : ScanPlan) : Prop :=
  (match p.policy with
   | .fixedLimits lf lb => lf < lb ∧ lb ≤ 120000 ∧ 1000 ≤ lb - lf
   | .edgeFollow m => m ≤ 5000) ∧
  50 ≤ p.speed ∧ p.speed ≤ 600 ∧ p.fixedPos ≤ 120000

/-- The fields of a scan plan fit the bytes of R191. -/
def planFits (p : ScanPlan) : Prop :=
  (match p.policy with
   | .fixedLimits lf lb => lf < 2 ^ 32 ∧ lb < 2 ^ 32
   | .edgeFollow m => m < 65536) ∧
  p.speed < 65536 ∧ p.interval < 256 ∧ p.fixedPos < 2 ^ 32

/-- The generation of a scan number is in the store, in one slot. -/
def inSlot (p : Pen) (g : Generation) : Prop :=
  ∃ i : Fin 3, p.slots[i] = some g ∧ ∀ (j : Fin 3) (h : Generation), p.slots[j] = some h → h.scan = g.scan → j = i

/-! ### Kept by every step -/

/-- A property that every step keeps. -/
def Kept (inv : State → Prop) : Prop := ∀ s t : State, inv s → step s = .next t → inv t

end Sys2Proof.Safety
end

