-- ==== Sys2Proof/Certificates/Slice0/Obligations.lean ====
section
/-! DEFINITION. The statements about the FP-720, from the numbered rules of its manual.

Each names the commands it speaks of. Where it gives the whole next state as an equation, everything the equation does
not name is unchanged. -/

open Sys2Proof Sys2Proof.Machine Sys2Proof.Safety

/-! ### The step, the reset and the release -/

/-- A step runs the command at the front of the queue on the state with the queue's rest. -/
def Obligations.StepRunsTheFrontCommand : Prop :=
  ∀ (s : State) (c : Instr) (rest : List Instr), s.pending = c :: rest → step s = exec c { s with pending := rest }

/-- Every invariant of this package holds in the power-on state. -/
def Obligations.InvariantsHoldAtReset : Prop :=
  queuesOk State.reset ∧ tokenOk State.reset ∧ pinsOk State.reset ∧ floorOk State.reset ∧ logOk State.reset.msm ∧
  carriageOk State.reset ∧ driveOk State.reset.drive

/-- R24, R43, R58, R76, R77, R90, R106, R130, R141, R160, R175, R187, R208: the power-on column of the restart tables, and
the power-on values of the common bank. -/
def Obligations.ResetHasThePowerOnValues : Prop :=
  let s := State.reset
  (s.cmu.state = .unhomed ∧ s.cmu.position = 0 ∧ s.cmu.homed = false ∧ s.cmu.direction = .fwd ∧
    s.cmu.plan = ⟨.park, .fixedLimits 4000 106000, 300, 20, 55000, true⟩ ∧ s.cmu.limF = 4000 ∧ s.cmu.limB = 106000 ∧
    s.cmu.skipCount = 0 ∧ s.cmu.hold = .none ∧ s.cmu.turnOwed = false ∧ s.cmu.retraverseOwed = false ∧
    s.cmu.faultCause = .none ∧ s.cmu.parkSource = false ∧ s.cmu.drvflt.confirmed = none ∧ s.cmu.home.confirmed = none ∧
    s.cmu.compareTarget = none ∧ s.cmu.motionFault = false) ∧
  (s.drive.out = 0 ∧ s.drive.dwell = none ∧ s.drive.stall = none) ∧
  ((∀ ch, (s.hbc.heads.get ch).state = .probing ∧ (s.hbc.heads.get ch).good = 0 ∧ (s.hbc.heads.get ch).missing = 0 ∧
      (s.hbc.heads.get ch).cause = .none ∧ s.hbc.mask.get ch = true) ∧
    s.hbc.seq = none ∧ s.hbc.heldRef = none ∧ s.hbc.resetPending = true) ∧
  (s.osq.step = .idle ∧ s.osq.requested = false ∧ s.osq.renewal = none ∧ s.osq.scanCount = 0 ∧ s.osq.settle = none ∧
    ∀ c, s.osq.candidates.get c = none ∧ s.scv.refs.get c = none) ∧
  (s.rbs.active = none ∧ s.rbs.pending = none ∧ s.rbs.settle = 0 ∧ ∀ k : BankNo, s.rbs.banks[k] = none) ∧
  (let b := s.rbs.common
   b.pMax = 110000 ∧ b.parkPos = 800 ∧ b.stdPos = 2500 ∧ b.homeSpeed = 50 ∧ b.maxSpeed = 600 ∧ b.crawl = 50 ∧
   (∀ ch, b.mask.get ch = true) ∧ (∀ c, b.drift.get c = 20) ∧ b.ceiling = 8 ∧ b.silentTime = 10 ∧ b.overdueTime = 30 ∧
   (∀ l, b.lineEnable.get l = false ∧ b.lineLow.get l = false) ∧ b.sheetLost = 1000 ∧
   b.levels.toList = [0] ++ List.replicate 5 2 ++ List.replicate 3 3 ++ List.replicate 8 4 ++ List.replicate 6 5 ++ [1, 4] ++
     List.replicate 3 3 ++ [5, 6]) ∧
  (s.ebm.watch.opened = false ∧ s.ebm.ef = none ∧ s.ebm.eb = none ∧ s.ebm.jumpF = 0 ∧ s.ebm.jumpB = 0 ∧
    s.ebm.map = none ∧ s.ebm.report = none) ∧
  (s.pen.window = none ∧ s.pen.carry.n = none ∧ (∀ i : Fin 3, s.pen.slots[i] = none) ∧ (∀ p, s.pen.pins.get p = none) ∧
    s.pen.counter = 1 ∧ s.pen.lastScan = none ∧ s.pen.filter.n = none ∧ s.pen.period = none ∧ s.pen.fixedRec = none) ∧
  (∀ z ∈ [s.azm.a, s.azm.b], z.active = none ∧ z.staged = none ∧ z.assembly = none ∧ z.lastScan = none ∧
    z.outs = [] ∧ z.frozen = false) ∧
  (s.msm.state = .down ∧ s.msm.speed = 0 ∧ s.msm.source = true ∧ s.msm.run = none ∧ s.msm.holeSeen = false ∧
    s.msm.widthPasses = 0 ∧ s.msm.log = [] ∧ s.msm.nextBreak = 1 ∧ ∀ l, (s.msm.lines.get l).confirmed = none) ∧
  ((∀ i : PointNo, (s.alt.points[i]).state = .normal ∧ (s.alt.points[i]).annunciated = false ∧
      (s.alt.points[i]).suppressed = false ∧ (s.alt.points[i]).count = 0 ∧ (s.alt.points[i]).lastCycle = none) ∧
    s.alt.order = [] ∧ s.alt.floor = s.rbs.common.ceiling) ∧
  (s.cta.holder = none ∧ s.cta.waiting = [] ∧ s.cta.pending = none) ∧
  (∀ p, (s.ports.get p).receiver = .hunting ∧ (s.ports.get p).inbound = [] ∧ (s.ports.get p).handling = none ∧
    (s.ports.get p).outbound = [] ∧ (s.ports.get p).silent = false ∧ (s.ports.get p).stream = .idle ∧
    (∀ i : Fin 4, ((s.ports.get p).descriptors[i]).active = false ∧ ((s.ports.get p).descriptors[i]).missed = 0) ∧
    (s.ports.get p).noise = 0 ∧ (s.ports.get p).bad = 0 ∧ (s.ports.get p).overruns = 0 ∧ (s.ports.get p).lost = 0)

/-- POWER_ON, RST_CONFIRMED; R1. Both give every block its power-on value, and a part held in a power-on reset takes no
other command than a release. That other commands then change nothing is the model's reading of "held" (log entry 1). -/
def Obligations.PowerOnResetHoldsThePart : Prop :=
  (∀ s : State,
    exec .powerOn s = .next { State.reset with pending := s.pending } ∧
    exec .rstConfirmed s = .next { State.reset with pending := s.pending, rst := ⟨some true, 3, some true⟩ }) ∧
  ∀ (c : Instr) (s : State), s.held = true → c ≠ .powerOn → c ≠ .rstConfirmed → (∀ a b, c ≠ .rstRelease a b) →
    exec c s = .next s

/-- RST_RELEASE; R1, R26, R42, R45, R188. That a release of a part already released changes nothing is the model's choice
(log entry 1). -/
def Obligations.ReleaseStartsTheFirstCycle : Prop :=
  ∀ (queue : List Instr) (line : Sampled) (rate1 rate0 : Bool),
    (∃ t, exec (.rstRelease rate1 rate0) { State.reset with pending := queue, rst := line } = .next t ∧
      t.held = false ∧ t.rst = ⟨some false, 3, some false⟩ ∧
      t.rate = (if rate1 then (if rate0 then Rate.r921600 else .r460800) else if rate0 then .r230400 else .r115200) ∧
      t.hbc.cycle = 1 ∧ t.hbc.downlink = .reset ∧ t.hbc.resetPending = false ∧
      (∀ ch, (t.hbc.heads.get ch).state = .probing ∧ (t.hbc.heads.get ch).good = 0) ∧
      t.osq.due = true ∧ t.osq.dueAge = 0 ∧ t.cmu.state = .unhomed ∧ t.drive.out = 0 ∧ t.pending = queue) ∧
    ∀ s : State, s.held = false → exec (.rstRelease rate1 rate0) s = .next s

/-! ### The carriage -/

/-- ENCODER_COUNT; R3, R6, R7, R13, R14, R15, R17, R18, R48, R128. A count that meets no arrival, no window fault and no
command point moves the position by one in its direction, steps the phase pair, and restarts the stall timer and the quiet
time of a dwell; a count at which a travelling carriage arrives at rest, turns from inside, or reaches the command point of an
armed hold, does that too. That an override may wait for more counts than one is the model's choice (log entry 7). -/
def Obligations.CountWithoutArrivalMovesThePosition : Prop :=
  (stepPhase .fwd ⟨false, false⟩ = ⟨false, true⟩ ∧ stepPhase .fwd ⟨false, true⟩ = ⟨true, true⟩ ∧
    stepPhase .fwd ⟨true, true⟩ = ⟨true, false⟩ ∧ stepPhase .fwd ⟨true, false⟩ = ⟨false, false⟩ ∧
    ∀ p, stepPhase .rev (stepPhase .fwd p) = p) ∧
  ∀ (d : Dir) (s : State),
    let pos := s.cmu.position + dirSign d
    let moved : Cmu := { s.cmu with phase := stepPhase d s.cmu.phase, position := pos }
    let inside := s.cmu.homed = true ∧ -500 ≤ pos ∧ pos ≤ (s.rbs.common.pMax : Int) + 500
    let arrives := reached s.cmu.travelDir pos s.cmu.travelTarget
    let targetMet := ∃ target, s.cmu.compareTarget = some target ∧ reached s.cmu.direction pos target = true
    let osqTakesNone := s.osq.due = false ∨ s.osq.step ≠ .idle
    let plan := s.cta.pending.getD s.cmu.plan
    s.held = false →
    (s.cmu.overrideWait ≠ 1 → driveSettled s →
      (s.cmu.homed = false ∨
        (inside ∧
          (s.cmu.state ∈ [CarriageState.unhomed, .homing, .parked, .held, .fixed, .atStd, .fault] ∨
            (s.cmu.state ∈ [CarriageState.toPark, .toFixed, .toStd, .toLimit] ∧ arrives = false) ∨
            (s.cmu.state = .turning ∧ d ≠ s.cmu.travelDir) ∨
            (s.cmu.state = .traverse ∧ ¬targetMet ∧
              ∀ x, s.cmu.hold = .armed (some x) → reached s.cmu.direction pos x.command = false)))) →
      exec (.encoderCount d) s = .next { s with
        cmu := { moved with overrideWait := s.cmu.overrideWait - 1 }
        drive := { s.drive with
          stall := s.drive.stall.map (fun _ => 0)
          dwell := s.drive.dwell.map (fun w => { w with sinceCount := 0 }) } }) ∧
    (inside → s.cmu.overrideUntaken = false →
      (s.cmu.state = .toPark → arrives = true → ∃ t, exec (.encoderCount d) s = .next t ∧ t.cmu.position = pos ∧
        t.cmu.plan = plan ∧ t.cta.pending = none ∧ t.rbs.pending = none ∧
        (s.osq.due = true → s.osq.step = .idle → t.cmu.state ∈ [CarriageState.toStd, .atStd] ∧
          t.osq.step ∈ [OsqStep.travel, .settle]) ∧
        (osqTakesNone → s.cta.pending = none →
          ((s.override = true ∨ plan.mode = .park) → t.cmu = { moved with state := .parked, skipCount := 0 } ∧
            t.drive.wanted = 0) ∧
          (s.override = false → plan.mode = .fixed → t.cmu.state ∈ [CarriageState.toFixed, .fixed]) ∧
          (s.override = false → plan.mode = .scan → t.cmu.state ∈ [CarriageState.toLimit, .turning]))) ∧
      (s.cmu.state = .toFixed → arrives = true → s.cta.pending = none → s.override = false → plan.mode = .fixed →
        (osqTakesNone ∨ s.osq.requested = false) → ∃ t, exec (.encoderCount d) s = .next t ∧
          t.cmu = { moved with state := .fixed, skipCount := 0 } ∧ t.drive.wanted = 0 ∧ t.rbs.pending = none ∧
          t.pen.period = some ⟨0, ⟨⟨0, 0⟩, ⟨0, 0⟩, ⟨0, 0⟩, ⟨0, 0⟩⟩⟩) ∧
      (s.cmu.state = .toStd → arrives = true → ∃ t, exec (.encoderCount d) s = .next t ∧
        t.cmu = { moved with state := .atStd, skipCount := 0 } ∧ t.drive.wanted = 0 ∧
        t.osq = { s.osq with step := .settle, settle := some 0 } ∧ t.cta = s.cta ∧ t.rbs = s.rbs ∧ t.pen = s.pen) ∧
      (s.cmu.state = .toLimit → s.cmu.approach = .inside → arrives = true → ∃ t, exec (.encoderCount d) s = .next t ∧
        t.cmu = { moved with state := .turning, travelDir := dirOpp s.cmu.travelDir } ∧
        t.drive.wanted = dirSign (dirOpp s.cmu.travelDir) * min s.cmu.plan.speed s.rbs.common.maxSpeed ∧
        t.pen = s.pen ∧ t.ebm = s.ebm) ∧
      (∀ x, s.cmu.state = .traverse → ¬targetMet → s.cmu.hold = .armed (some x) →
        reached s.cmu.direction pos x.command = true → osqTakesNone → ∃ t, exec (.encoderCount d) s = .next t ∧
          t.cmu = { moved with state := .held, hold := .none, turnOwed := false } ∧ t.drive.wanted = 0 ∧
          t.pen = s.pen ∧ t.ebm = s.ebm))

/-- ENCODER_COUNT, ENCODER_SKIP; R4, R5, R9. A homed position outside the window, and the fourth skip of a window, put the
carriage in FAULT with cause ENCODER and clear the homed flag; in FAULT the recorded cause stays. That a carriage already in
FAULT loses its homed flag outside the window, and that a skip there turns the phase pair alone, is the model's reading (log
entry 14), and so is that a REFERENCE still held outlives the entry into FAULT (log entry 8). -/
def Obligations.EncoderFaultsStopTheCarriage : Prop :=
  (∀ (d : Dir) (s : State),
    let pos := s.cmu.position + dirSign d
    s.held = false → s.cmu.homed = true → (pos < -500 ∨ (s.rbs.common.pMax : Int) + 500 < pos) →
    (s.cmu.state ≠ .fault → ∃ t, exec (.encoderCount d) s = .next t ∧ faultEntered s t .encoder ∧ t.cmu.homed = false ∧
      t.cmu.position = pos) ∧
    (s.cmu.state = .fault → s.cmu.overrideUntaken = false → driveSettled s →
      exec (.encoderCount d) s = .next { s with
        cmu := { s.cmu with phase := stepPhase d s.cmu.phase, position := pos, homed := false }
        drive := { s.drive with
          stall := s.drive.stall.map (fun _ => 0)
          dwell := s.drive.dwell.map (fun w => { w with sinceCount := 0 }) } })) ∧
  ∀ s : State, s.held = false →
    (s.cmu.state = .fault →
      exec .encoderSkip s = .next { s with cmu := { s.cmu with phase := ⟨!s.cmu.phase.enca, !s.cmu.phase.encb⟩ } }) ∧
    (s.cmu.state ≠ .fault → s.cmu.skipCount < 3 →
      exec .encoderSkip s = .next { s with
        cmu := { s.cmu with phase := ⟨!s.cmu.phase.enca, !s.cmu.phase.encb⟩, skipCount := s.cmu.skipCount + 1 } }) ∧
    (s.cmu.state ≠ .fault → s.cmu.skipCount = 3 →
      ∃ t, exec .encoderSkip s = .next t ∧ faultEntered s t .encoder ∧ t.cmu.homed = false ∧
        t.cmu.position = s.cmu.position)

/-- ENCODER_COUNT; R14, R16, R17, R18, R19, R86, R91, R100, R101, R107. The arrival from outside in TO_LIMIT, and the first count in
the new direction in TURNING; an owed hold is armed by its kind against the new map. That a command point already reached at
that count stops the carriage in the same event is the model's reading (log entry 17), and so is that the count of the start
is not compared with the compare target (log entry 37). -/
def Obligations.TraverseStartOpensTheTraverse : Prop :=
  ∀ (d : Dir) (s : State),
    let pos := s.cmu.position + dirSign d
    let dir := s.cmu.travelDir
    s.held = false → s.cmu.homed = true → -500 ≤ pos → pos ≤ (s.rbs.common.pMax : Int) + 500 →
    s.cmu.overrideUntaken = false →
    (s.cmu.hold = .none ∨ ((∃ k, s.cmu.hold = .owed k) ∧ (s.osq.due = false ∨ s.osq.step ≠ .idle))) →
    ((s.cmu.state = .toLimit ∧ s.cmu.approach = .outside ∧ reached dir pos s.cmu.travelTarget = true) ∨
      (s.cmu.state = .turning ∧ d = dir)) →
    ∃ t w, exec (.encoderCount d) s = .next t ∧ t.cmu.position = pos ∧ t.cmu.direction = dir ∧
      (let stop := match s.cmu.hold with
         | .owed .hold => holdStop t
         | .owed .step => stepStop t
         | _ => none
       let stops := ∃ x, stop = some x ∧ reached dir pos x.command = true
       (¬stops → t.cmu.state = .traverse ∧ t.drive.wanted = dirSign dir * min s.cmu.plan.speed s.rbs.common.maxSpeed ∧
         t.cmu.hold = if s.cmu.hold = .none then .none else .armed stop) ∧
       (stops → t.cmu.state = .held ∧ t.drive.wanted = 0 ∧ t.cmu.hold = .none ∧ t.cmu.turnOwed = false)) ∧
      t.cmu.skipCount = 0 ∧ t.cmu.compareTarget = some (match dir with | .fwd => s.cmu.limB | .rev => s.cmu.limF) ∧
      t.cmu.retraverseOwed = false ∧ t.cmu.limF = s.cmu.limF ∧ t.cmu.limB = s.cmu.limB ∧
      t.rbs.pending = none ∧ t.msm.holeSeen = false ∧ t.ebm.watch = { watchClosed with opened := true, dir := dir } ∧
      t.ebm.map = some (buildMap t.rbs.activeBank s.ebm.ef s.ebm.eb) ∧ t.pen.window = some w ∧
      w.ctx.startCycle = s.hbc.cycle ∧ w.ctx.dir = dir ∧ w.ctx.retraverse = s.cmu.retraverseOwed ∧
      w.ctx.bank = t.rbs.active ∧ w.ctx.refs = s.scv.refs ∧ t.ebm.map = some w.ctx.map ∧ w.uncomp = 0 ∧
      (∀ q, w.accs.get q = List.replicate (w.ctx.map.n.getD 0) ⟨0, 0, 0⟩) ∧
      t.pen.counter = s.pen.counter ∧ t.pen.slots = s.pen.slots ∧ t.scv = s.scv ∧
      (s.rbs.pending = none → t.rbs = s.rbs) ∧
      (∀ k q b, s.rbs.pending = some (k, q) → s.rbs.banks[k] = some b →
        t.rbs = { s.rbs with pending := none, active := some k, settle := b.settle }) ∧
      (t.rbs.activeBank = none →
        t.ebm.map = some ⟨none, none, s.ebm.ef, s.ebm.eb, none, none, none, false, .noBank⟩) ∧
      (∀ b, t.rbs.activeBank = some b → (s.ebm.ef = none ∨ s.ebm.eb = none) →
        t.ebm.map = some ⟨some b.n, some b.guard, s.ebm.ef, s.ebm.eb, none, none, none, false, .edgeUnset⟩) ∧
      (∀ b ef eb, t.rbs.activeBank = some b → s.ebm.ef = some ef → s.ebm.eb = some eb →
        let start := ef + b.guard
        let stop := eb - b.guard
        let ok := 10 * (b.n : Int) ≤ stop - start
        t.ebm.map = some ⟨some b.n, some b.guard, some ef, some eb, some start, some stop, some (stop - start), decide ok,
          if ok then .none else .narrow⟩) ∧
      (w.ctx.map.valid = false → alarmActive t ptNarrowMap) ∧
      (w.ctx.map.valid = true → (t.alt.points[ptNarrowMap]).state ∈ [PointState.normal, .returnUnack])

/-- ENCODER_COUNT; R14, R17, R22, R44, R88, R91, R93, R96, R98, R111, R116, R117, R118, R119, R127, R133, R148, R151, R172,
R203, R205. The first count at which the position reaches the compare target publishes the traverse under the scan-number
counter's value into the slot that R119 gives, breaking the pins on the generation it held, tracks the edges and closes the
edge watch, and hands the generation to the zones, the limit evaluation, the width test and the push descriptors; the carriage
then takes the first destination of R17. An override that the CMU has not yet taken, raised by a change to BREAK or DOWN, stops
none of this and sends the carriage TO_PARK after it. The order of these effects among the blocks is the model's choice (log
entry 10), and so is that the override is taken at once after this count (log entry 7). -/
def Obligations.TraverseEndPublishesTheScan : Prop :=
  ∀ (d : Dir) (s : State) (w : Window) (target : Int),
    let pos := s.cmu.position + dirSign d
    s.held = false → s.osq.scanCount ≤ 255 → s.cmu.homed = true → -500 ≤ pos → pos ≤ (s.rbs.common.pMax : Int) + 500 →
    (s.cmu.overrideUntaken = true → s.override = true ∧ s.msm.state ∈ [MachineState.brk, .down]) →
    s.cmu.state = .traverse → s.cmu.compareTarget = some target →
    reached s.cmu.direction pos target = true → s.pen.window = some w →
    let i : Fin 3 := takeSlot s.pen
    ∃ t g, exec (.encoderCount d) s = .next t ∧ t.cmu.position = pos ∧ t.cmu.state ≠ .traverse ∧
      t.pen.window = none ∧ t.ebm.watch.opened = false ∧ t.pen.counter = s.pen.counter + 1 ∧
      t.pen.lastScan = some s.pen.counter ∧ t.osq.scanCount = min 255 (s.osq.scanCount + 1) ∧ t.scv = s.scv ∧
      t.pen.slots[i] = some g ∧ (∀ j : Fin 3, j ≠ i → t.pen.slots[j] = s.pen.slots[j]) ∧
      (∀ p, let broken := ∃ old, s.pen.slots[i] = some old ∧ s.pen.pins.get p = some old.scan
        (broken → t.pen.pins.get p = none ∧
          ∀ x, (s.ports.get p).stream = .running x → (t.ports.get p).stream = .ending x) ∧
        (¬broken → t.pen.pins.get p = s.pen.pins.get p ∧ (t.ports.get p).stream = (s.ports.get p).stream)) ∧
      (let plan := s.cta.pending.getD s.cmu.plan
       let takes := s.osq.step = .idle ∧
         (s.osq.due = true ∨ (plan.interval ≠ 0 ∧ plan.interval ≤ min 255 (s.osq.scanCount + 1)))
       let armed := ∃ x, s.cmu.hold = .armed x
       let v : Int := (min plan.speed s.rbs.common.maxSpeed : Nat)
       let dir := s.cmu.direction
       t.cta.pending = none ∧ t.cmu.overrideUntaken = false ∧ t.cmu.retraverseOwed = s.cmu.retraverseOwed ∧
       (armed → t.cmu.hold = .none) ∧
       (takes → t.cmu.state = (if pos = s.rbs.common.stdPos then .atStd else .toStd) ∧
         t.osq.step = (if pos = s.rbs.common.stdPos then .settle else .travel)) ∧
       (¬takes → s.cmu.overrideUntaken = true →
         t.cmu.state = (if pos = s.rbs.common.parkPos then .parked else .toPark) ∧ t.cmu.plan = plan) ∧
       (¬takes → s.override = false → t.cmu.plan = plan ∧
         (armed → t.cmu.state = .held ∧ t.cmu.turnOwed = true ∧ t.drive.wanted = 0) ∧
         (¬armed → plan.mode = .park → t.cmu.state = if pos = s.rbs.common.parkPos then .parked else .toPark) ∧
         (¬armed → plan.mode = .fixed →
           t.cmu.state = if pos = (min plan.fixedPos s.rbs.common.pMax : Nat) then .fixed else .toFixed) ∧
         (¬armed → plan.mode = .scan → (t.cmu.limF, t.cmu.limB) = limitsOf t ∧
           (dir = .fwd → t.cmu.limF < pos → t.cmu.state = .turning ∧ t.cmu.travelDir = .rev ∧ t.drive.wanted = -v) ∧
           (dir = .rev → pos < t.cmu.limB → t.cmu.state = .turning ∧ t.cmu.travelDir = .fwd ∧ t.drive.wanted = v) ∧
           (dir = .fwd → pos ≤ t.cmu.limF → t.cmu.travelDir = .fwd ∧ t.drive.wanted = v ∧
             t.cmu.state = if pos < t.cmu.limF then .toLimit else .turning) ∧
           (dir = .rev → t.cmu.limB ≤ pos → t.cmu.limF < pos → t.cmu.travelDir = .rev ∧ t.drive.wanted = -v ∧
             t.cmu.state = if t.cmu.limB < pos then .toLimit else .turning)))) ∧
      g.scan = s.pen.counter ∧ g.dir = w.ctx.dir ∧ g.startCycle = w.ctx.startCycle ∧ g.endCycle = s.hbc.cycle ∧
      g.machine = s.msm.state ∧ g.bank = w.ctx.bank ∧ g.refs = w.ctx.refs ∧ g.map = w.ctx.map ∧
      g.retraverse = w.ctx.retraverse ∧ g.uncomp = w.uncomp ∧ g = (formGeneration s w).1 ∧
      t.pen.carry = (formGeneration s w).2.2 ∧ (s.rbs.pending = none → t.pen.filter = (formGeneration s w).2.1) ∧
      t.azm = azmPublish g s.azm ∧
      let w0 := s.ebm.watch
      let fwd := w0.dir = .fwd
      let front := if fwd then w0.leading else w0.trailing
      let back := if fwd then w0.trailing else w0.leading
      let atEnd := decide (w0.previous = some true)
      (let tolerance := s.rbs.activeBank.map GradeBank.tolerance
       sideTracked tolerance front s.ebm.ef s.ebm.jumpF t.ebm.ef t.ebm.jumpF ∧
       sideTracked tolerance back s.ebm.eb s.ebm.jumpB t.ebm.eb t.ebm.jumpB) ∧
      t.ebm.watch = { w0 with opened := false, coveredEnd := atEnd } ∧
      (∃ r, t.ebm.report = some r ∧ r.dir = w0.dir ∧ r.front = front ∧ r.back = back ∧ r.interior = w0.interior ∧
        r.frontCovered = (if fwd then w0.coveredStart else atEnd) ∧
        r.backCovered = (if fwd then atEnd else w0.coveredStart)) ∧
      (s.msm.holeSeen = false → (t.alt.points[ptHole]).state ∈ [PointState.normal, .returnUnack]) ∧
      (s.rbs.pending = none →
        t.rbs = { s.rbs with settle := if s.msm.state = .run then s.rbs.settle - 1 else s.rbs.settle } ∧
        let evaluated (q : Prop4) := s.msm.state = .run ∧ s.rbs.settle = 0 ∧ s.rbs.activeBank ≠ none ∧
          (g.stats.get q).poor = false
        let follows (i : PointNo) (exceeded : Prop) := (exceeded → alarmActive t i) ∧
          (¬exceeded → (t.alt.points[i]).state ∈ [PointState.normal, .returnUnack])
        (∀ q b a sp, evaluated q → s.rbs.activeBank = some b → (g.stats.get q).avg = some a →
          (g.stats.get q).spread = some sp → follows (ptHigh q) ((b.limits.get q).high < a) ∧
            follows (ptLow q) (a < (b.limits.get q).low) ∧ follows (ptSpread q) ((b.limits.get q).spread < sp)) ∧
        ∀ q, ¬evaluated q → ∀ i ∈ [ptHigh q, ptLow q, ptSpread q],
          (t.alt.points[i]).state = (s.alt.points[i]).state) ∧
      (let wide := ∃ f e b, front = some f ∧ back = some e ∧ s.rbs.activeBank = some b ∧
         9 * (b.width : Int) ≤ (e - f) * 10
       (s.msm.state ≠ .thread → t.msm = s.msm) ∧
       (s.msm.state = .thread → ¬wide → t.msm = { s.msm with widthPasses := 0 }) ∧
       (s.msm.state = .thread → wide → s.msm.widthPasses = 0 → t.msm = { s.msm with widthPasses := 1 }) ∧
       (s.msm.state = .thread → wide → s.msm.widthPasses ≠ 0 →
         t.msm.state = .run ∧ t.msm.widthPasses = 0 ∧ t.msm.source = false)) ∧
      ∀ p, ∃ (served : PortState) (earlier later : List OutMsg),
        served.silent = (s.ports.get p).silent ∧ served.descriptors = (s.ports.get p).descriptors ∧
        served.handling = (s.ports.get p).handling ∧ served.outbound = (s.ports.get p).outbound ++ earlier ∧
        (∀ o ∈ earlier ++ later, o.cls = .notice) ∧
        (t.ports.get p).descriptors = (servePort g t.azm served).descriptors ∧
        (t.ports.get p).outbound = (servePort g t.azm served).outbound ++ later

/-- DRIVE_WORD_REPEAT, DWELL_END; R6, R7. The word is sent again every 10 ms; the end of a dwell sends the command wanted;
a command of the opposite sign is not sent directly but starts a dwell at zero; a command of the same sign is. That DWELL_END
with no dwell changes nothing is the model's choice (log entry 2). -/
def Obligations.DriveOutputSendsTheCommand : Prop :=
  (∀ s : State, s.held = false →
    exec .driveWordRepeat s = .next { s with
      drive := { s.drive with word := BitVec.ofInt 12 s.drive.out, sinceWord := 0 } } ∧
    (s.drive.dwell = none → exec .dwellEnd s = .next s) ∧
    (s.drive.dwell ≠ none → s.drive.out = 0 → s.drive.wanted = 0 →
      exec .dwellEnd s = .next { s with drive := { s.drive with dwell := none } }) ∧
    (s.drive.dwell ≠ none → s.drive.out = 0 → s.drive.wanted ≠ 0 →
      exec .dwellEnd s = .next { s with
        drive := ⟨s.drive.wanted, s.drive.wanted, none, some 0, BitVec.ofInt 12 s.drive.wanted, 0⟩ })) ∧
  ∀ d : Drive, d.dwell = none →
    (d.wanted * d.out < 0 → d.settle = ⟨d.wanted, 0, some ⟨0, 0⟩, none, 0, 0⟩) ∧
    (0 < d.wanted * d.out → d.wanted ≠ d.out →
      d.settle = ⟨d.wanted, d.wanted, none, d.stall, BitVec.ofInt 12 d.wanted, 0⟩) ∧
    (d.out = 0 → d.wanted ≠ 0 → d.settle = ⟨d.wanted, d.wanted, none, some 0, BitVec.ofInt 12 d.wanted, 0⟩) ∧
    (d.wanted = 0 → d.out ≠ 0 → d.settle = ⟨0, 0, none, none, 0, 0⟩)

/-- STALL_TIMEOUT, DRVFLT_CONFIRMED; R7, R8, R9, R11. A stall and a change of DRVFLT to active are FAULTs; the first
confirmation is no change, and an active level leaves a carriage in FAULT as it is; an inactive level lets an UNHOMED carriage
home, at once where HOME is active already, and else only changes the level. That STALL_TIMEOUT with the timer stopped changes
nothing is the model's choice (log entry 2); that a REFERENCE still held outlives the entry into FAULT is its reading (log
entry 8). -/
def Obligations.StallAndDriveFaults : Prop :=
  ∀ s : State, s.held = false →
    (s.drive.stall ≠ none → s.cmu.state ≠ .fault →
      ∃ t, exec .stallTimeout s = .next t ∧ faultEntered s t .stall ∧ t.cmu.homed = s.cmu.homed ∧
        t.cmu.position = s.cmu.position) ∧
    (s.drive.stall = none → exec .stallTimeout s = .next s) ∧
    (s.cmu.drvflt.confirmed = some false → s.cmu.state ≠ .fault →
      ∃ t, exec (.drvfltConfirmed true) s = .next t ∧ faultEntered s t .drive ∧ t.cmu.homed = s.cmu.homed ∧
        t.cmu.drvflt = ⟨some true, 2, some true⟩) ∧
    ((s.cmu.drvflt.confirmed ≠ some false ∨ (s.cmu.state = .fault ∧ driveSettled s)) →
      exec (.drvfltConfirmed true) s = .next { s with cmu := { s.cmu with drvflt := ⟨some true, 2, some true⟩ } }) ∧
    ((s.cmu.state ≠ .unhomed ∨ s.cmu.drvflt.confirmed = some false) →
      exec (.drvfltConfirmed false) s = .next { s with cmu := { s.cmu with drvflt := ⟨some false, 2, some false⟩ } }) ∧
    (s.cmu.state = .unhomed → s.cmu.drvflt.confirmed ≠ some false → s.cmu.home.confirmed ≠ some true →
      ∃ t, exec (.drvfltConfirmed false) s = .next t ∧ t.cmu.state = .homing ∧ t.cmu.position = s.cmu.position ∧
        t.cmu.homed = s.cmu.homed ∧ t.drive.wanted = -(s.rbs.common.homeSpeed : Int) ∧
        t.cmu.drvflt = ⟨some false, 2, some false⟩) ∧
    (s.cmu.state = .unhomed → s.cmu.drvflt.confirmed ≠ some false → s.cmu.home.confirmed = some true →
      ∃ t, exec (.drvfltConfirmed false) s = .next t ∧ t.cmu.state ∉ [CarriageState.unhomed, .homing] ∧
        t.cmu.position = 0 ∧ t.cmu.homed = true ∧ t.cmu.plan = s.cta.pending.getD s.cmu.plan ∧ t.cta.pending = none ∧
        t.cmu.drvflt = ⟨some false, 2, some false⟩)

/-- HOME_CONFIRMED; R11. HOME found in HOMING; a confirmation in any other state changes the level alone. -/
def Obligations.HomeFoundZeroesThePosition : Prop :=
  ∀ s : State, s.held = false →
    (s.cmu.state = .homing → s.cmu.home.confirmed ≠ some true →
      ∃ t, exec (.homeConfirmed true) s = .next t ∧ t.cmu.position = 0 ∧ t.cmu.homed = true ∧ t.cmu.skipCount = 0 ∧
        t.cmu.state ≠ .homing ∧ t.cmu.home = ⟨some true, 2, some true⟩ ∧ t.cta.pending = none ∧
        t.cmu.plan = s.cta.pending.getD s.cmu.plan ∧ t.hbc = s.hbc ∧ t.msm = s.msm) ∧
    (∀ active, (active = false ∨ s.cmu.home.confirmed = some true ∨ s.cmu.state ≠ .homing) →
      exec (.homeConfirmed active) s = .next { s with
        cmu := { s.cmu with home := ⟨some active, 2, some active⟩ } })

/-! ### The head bus and the standardization -/

/-- CYCLE_START; R3, R26, R30, R33, R42, R45, R55. A cycle is numbered, takes its snapshot of the CMU before anything else
changes, applies the common bank's mask to the heads and to the sequence in flight, and a pending RESET, which aborts a
standardization in its head steps and lets it be taken again with a fresh SETTLE. -/
def Obligations.CycleStartNumbersAndResets : Prop :=
  ∀ s : State, s.held = false →
    ∃ t, exec .cycleStart s = .next t ∧ t.hbc.cycle = s.hbc.cycle + 1 ∧
      t.hbc.snapshot = ⟨s.cmu.position, s.cmu.state, s.cmu.direction⟩ ∧ t.cmu.position = s.cmu.position ∧
      (∀ ch, t.hbc.record.get ch = none) ∧ t.hbc.slot = 0 ∧ t.hbc.lastRecord = s.hbc.lastRecord ∧
      t.hbc.resetPending = false ∧ t.hbc.mask = s.rbs.common.mask ∧
      (s.hbc.resetPending = true →
        t.hbc.downlink = .reset ∧ t.hbc.seq = none ∧ t.hbc.heldRef = none ∧
        ∀ ch, s.rbs.common.mask.get ch = true →
          (t.hbc.heads.get ch).state = .probing ∧ (t.hbc.heads.get ch).good = 0 ∧ (t.hbc.heads.get ch).missing = 0 ∧
          (t.hbc.heads.get ch).cause = (s.hbc.heads.get ch).cause) ∧
      (∀ ch,
        let enabled := s.rbs.common.mask.get ch = true ∧ s.hbc.mask.get ch = false
        let disabled := s.rbs.common.mask.get ch = false ∧ s.hbc.mask.get ch = true
        let cause := (s.hbc.heads.get ch).cause
        (enabled → (∀ q k, s.hbc.seq = some q → ch = RefChan.chan k → q.entries.get k = none) →
          t.hbc.heads.get ch = ⟨.probing, 0, 0, cause⟩) ∧
        (disabled → t.hbc.heads.get ch = ⟨.off, 0, 0, cause⟩ ∧
          ∀ q k, t.hbc.seq = some q → ch = RefChan.chan k → q.entries.get k = none) ∧
        (s.rbs.common.mask.get ch = s.hbc.mask.get ch → s.hbc.resetPending = false → s.hbc.seq = none →
          t.hbc.heads.get ch = s.hbc.heads.get ch) ∧
        (absentFinished s.hbc → (s.hbc.heads.get ch).state = .absent → (t.hbc.heads.get ch).state ≠ .absent →
          (t.alt.points[ptHeadAbsent ch]).state ∈ [PointState.normal, .returnUnack]) ∧
        ∀ k, ch = RefChan.chan k → enabled → s.scv.refs.get k = none →
          (s.osq.step ∈ [OsqStep.idle, .travel, .settle] → t.osq.due = true) ∧
          (s.osq.step ∈ [OsqStep.reference, .fetch] → t.osq.due = true ∨ t.osq.renewal ≠ none)) ∧
      (s.hbc.resetPending = true → s.rbs.common.mask = s.hbc.mask →
        (s.osq.step ∈ [OsqStep.idle, .travel, .settle] →
          t.osq.step = s.osq.step ∧ t.cmu = s.cmu ∧ t.cta = s.cta ∧ t.scv = s.scv) ∧
        (s.osq.step ∈ [OsqStep.reference, .fetch] → s.osq.due = true → s.cmu.state = .atStd →
          t.osq.step = .settle ∧ t.osq.settle = some 0 ∧ (∀ k, t.osq.candidates.get k = none) ∧ t.osq.due = true ∧
          t.osq.requested = (s.osq.requested || s.osq.renewal.getD false) ∧ t.osq.renewal = none ∧
          t.osq.scanCount = s.osq.scanCount ∧ t.cmu.state = .atStd ∧ t.cmu.position = s.cmu.position ∧
          t.drive.wanted = 0 ∧ t.cmu.plan = s.cta.pending.getD s.cmu.plan ∧ t.cta.pending = none ∧ t.scv = s.scv))

/-- CYCLE_START; R27, R35, R38. The downlink command of a cycle with no RESET pending and no change of the mask: IDLE, a
held REFERENCE to the READY channels it names, or the FETCH of the lowest-slot channel asked for and DONE SEEN. -/
def Obligations.DownlinkCommandIsChosen : Prop :=
  ∀ s : State, s.held = false → s.hbc.resetPending = false → s.rbs.common.mask = s.hbc.mask →
    let c := s.hbc.cycle + 1
    let begun : Hbc := { s.hbc with
      cycle := c
      slot := 0
      record := ⟨none, none, none, none, none⟩
      snapshot := ⟨s.cmu.position, s.cmu.state, s.cmu.direction⟩ }
    (s.hbc.seq = none → s.hbc.heldRef = none →
      ∃ t, exec .cycleStart s = .next t ∧ t.hbc = { begun with downlink := .idle } ∧ t.cmu = s.cmu ∧ t.rbs = s.rbs) ∧
    (∀ (named addressed : PerRef Bool), s.hbc.seq = none → s.hbc.heldRef = some named →
      (∀ k, addressed.get k = (named.get k && decide ((s.hbc.heads.get k.chan).state = .ready))) →
      (∃ k, addressed.get k = true) →
      ∃ t q, exec .cycleStart s = .next t ∧
        t.hbc = { begun with heldRef := none, downlink := .reference addressed, seq := some q } ∧ q.refCycle = c ∧
        q.abandoned = false ∧
        (∀ k, q.entries.get k = if addressed.get k then some ⟨.awaitingAck, none, none, false⟩ else none) ∧
        t.cmu = s.cmu ∧ t.rbs = s.rbs) ∧
    (∀ (q : Sequence) (k : RefChan) (e : SeqEntry), s.hbc.seq = some q → q.abandoned = false →
      q.entries.get k = some e → e.asked = true → e.phase = .doneSeen →
      (∀ j e', slotOf j.chan < slotOf k.chan → q.entries.get j = some e' → e'.asked = false ∨ e'.phase ≠ .doneSeen) →
      ∃ t, exec .cycleStart s = .next t ∧
        t.hbc = { begun with
          downlink := .fetch k
          seq := some { q with
            entries := q.entries.set k (some { e with phase := .awaitingStatus, fetchCycle := some c }) } } ∧
        t.cmu = s.cmu ∧ t.rbs = s.rbs)

/-- UPLINK_SAMPLE; R28, R31, R32, R33, R34. The slot of a head while no sequence is in flight: a good sample of a READY
head, a missing one (none at all, one of wrong parity, and one of right parity that shows BUSY and is missing by R28's BUSY
rule), the good samples that bring a PROBING head to READY, and the first good one of an ABSENT head. -/
def Obligations.SamplesOutsideASequence : Prop :=
  ∀ (ch : Channel) (w : UplinkWord) (s : State),
    let hd := s.hbc.heads.get ch
    let left (x : Head) (sample : Option UplinkWord) : State := { s with hbc := { s.hbc with
      slot := slotOf ch
      heads := s.hbc.heads.set ch x
      record := s.hbc.record.set ch (some ⟨x.state, sample⟩) } }
    s.held = false → s.hbc.slot < slotOf ch → s.hbc.seq = none → driveSettled s →
    bitsSet w % 2 = 0 → w.fault = false → w.busy = false →
    (hd.state = .ready → exec (.uplinkSample ch (some w)) s = .next (left { hd with missing := 0 } (some w))) ∧
    (hd.state = .ready → hd.missing < 15 →
      exec (.uplinkSample ch none) s = .next (left { hd with missing := hd.missing + 1 } none) ∧
      exec (.uplinkSample ch (some { w with parity := !w.parity })) s =
        .next (left { hd with missing := hd.missing + 1 } none) ∧
      exec (.uplinkSample ch (some { w with busy := true, parity := !w.parity })) s =
        .next (left { hd with missing := hd.missing + 1 } none)) ∧
    (hd.state = .probing → hd.good < 3 →
      exec (.uplinkSample ch (some w)) s = .next (left { hd with missing := 0, good := hd.good + 1 } (some w))) ∧
    (hd.state = .probing → hd.good = 3 → (∀ c, refChanOf ch = some c → s.scv.refs.get c ≠ none) →
      exec (.uplinkSample ch (some w)) s =
        .next (left { hd with state := .ready, missing := 0, good := 4 } (some w))) ∧
    (hd.state = .absent →
      ∃ t, exec (.uplinkSample ch (some w)) s = .next t ∧
        t.hbc = (left { hd with state := .probing, missing := 0, good := 1 } (some w)).hbc ∧
        (t.alt.points[ptHeadAbsent ch]).state ∈ [PointState.normal, .returnUnack]) ∧
    (hd.state = .off → exec (.uplinkSample ch (some w)) s = .next { s with hbc := { s.hbc with
      slot := slotOf ch
      record := s.hbc.record.set ch (some ⟨.off, none⟩) } })

/-- UPLINK_SAMPLE, MISSING_RUN_LIMIT, ACK_WINDOW_EXPIRY, DONE_DEADLINE, ANSWER_WINDOW_EXPIRY; R31, R32, R33, R36, R37, R38,
R39, R40, R49, R50. The slot in which a head is lost: it is ABSENT with the cause, its HEAD ABSENT point is active, and its
channel, if a sequence holds it, is FINISHED with outcome LOST (in the slots of cycles c and f too, which is the model's
reading, log entry 33); a 16th missing sample in the last slot of a window loses the head by its missing run, and a head that
STATUS makes READY is no event of R45, by its reading too (log entry 16). The slot in which a head answers: ACK makes it BUSY
and MEASURING, DONE makes its channel DONE SEEN and the last one lets the OSQ ask for its FETCHes, STATUS hands its value over
and the last one ends the sequence with COMMIT; in ABANDONED mode DONE and STATUS make the head READY and hand nothing on.
What an abort makes of a sequence. That an OSQ that does not wait for a sequence abandons it when its REFERENCE phase is
complete is the model's reading (log entry 8). -/
def Obligations.LostHeadsGoAbsent : Prop :=
  (∀ (h : Hbc) (q : Sequence), h.seq = some q →
    let waiting (e : SeqEntry) := e.phase = .doneSeen ∨ e.phase = .fetchWaiting
    ∃ heads entries seq,
      abandonSeq h = { h with heads := heads, seq := seq } ∧
      ((∀ k e, entries.get k = some e → e.phase = .finished) → seq = none) ∧
      ((∃ k e, entries.get k = some e ∧ e.phase ≠ .finished) →
        seq = some { q with abandoned := true, entries := entries }) ∧
      (∀ k, entries.get k = (q.entries.get k).map (fun e => if waiting e then { e with phase := .finished } else e)) ∧
      (∀ k e, q.entries.get k = some e → waiting e →
        heads.get k.chan = { h.heads.get k.chan with state := .ready }) ∧
      (∀ k, (∀ e, q.entries.get k = some e → ¬waiting e) → heads.get k.chan = h.heads.get k.chan) ∧
      heads.edge = h.heads.edge ∧ heads.temp = h.heads.temp) ∧
  ∀ (ch : Channel) (w : UplinkWord) (s : State),
    let hd := s.hbc.heads.get ch
    let inService := hd.state ∈ [HeadState.probing, .ready, .busy]
    let outOfSequence (t : State) := ∀ k q e, ch = k.chan → s.hbc.seq = some q → q.entries.get k = some e →
      e.phase ≠ .finished → ∀ q', t.hbc.seq = some q' →
        ∃ e', q'.entries.get k = some e' ∧ e'.phase = .finished ∧ e'.outcome = some .lost
    s.held = false → s.hbc.slot < slotOf ch →
    (inService → hd.missing = 15 →
      ∃ t, exec (.missingRunLimit ch none) s = .next t ∧ headLost t ch .missingRun ∧
        (t.hbc.heads.get ch).missing = 16 ∧ outOfSequence t) ∧
    (inService → bitsSet w % 2 = 0 → w.fault = true →
      ∃ t, exec (.uplinkSample ch (some w)) s = .next t ∧ headLost t ch .faultFlag ∧
        (t.hbc.heads.get ch).missing = 0 ∧ outOfSequence t) ∧
    ∀ (k : RefChan) (q : Sequence) (e : SeqEntry), ch = k.chan → s.hbc.seq = some q → q.entries.get k = some e →
      bitsSet w % 2 = 0 → w.fault = false →
      let c := s.hbc.cycle - q.refCycle
      let slot (x : Head) (seq : Option Sequence) : Hbc := { s.hbc with
        slot := slotOf ch
        heads := s.hbc.heads.set ch x
        seq := seq
        record := s.hbc.record.set ch (some ⟨x.state, some w⟩) }
      let good : Head := { hd with missing := 0 }
      let entered (e' : SeqEntry) : Sequence := { q with entries := q.entries.set k (some e') }
      let others (ok : SeqEntry → Prop) := ∀ j e', j ≠ k → q.entries.get j = some e' → ok e'
      let phaseDone (e' : SeqEntry) := e'.phase = .doneSeen ∨ e'.phase = .finished
      let finished (e' : SeqEntry) := e'.phase = .finished
      let end_ : SeqEntry := { e with phase := .finished }
      let ready : Head := { good with state := .ready }
      (hd.state = .ready → e.phase = .awaitingAck → w.busy = false →
        (driveSettled s → (c = 0 ∨ (c = 1 ∧ w.ack = false)) →
          exec (.uplinkSample ch (some w)) s = .next { s with hbc := slot good (some (entered e)) }) ∧
        (driveSettled s → (c = 1 ∨ c = 2) → w.ack = true →
          exec (.uplinkSample ch (some w)) s = .next { s with
            hbc := slot { good with state := .busy } (some (entered { e with phase := .measuring })) }) ∧
        (c = 2 → w.ack = false → ∃ t, exec (.ackWindowExpiry ch (some w)) s = .next t ∧ headLost t ch .noAck ∧
          outOfSequence t)) ∧
      (hd.state = .busy → e.phase = .measuring →
        (driveSettled s → w.done = false → c.toNat < 2000 →
          exec (.uplinkSample ch (some w)) s = .next { s with hbc := slot good (some (entered e)) }) ∧
        (w.done = false → c = 2000 → ∃ t, exec (.doneDeadline ch (some w)) s = .next t ∧ headLost t ch .noDone ∧
          outOfSequence t) ∧
        (driveSettled s → w.done = true → q.abandoned = false →
          let seen : SeqEntry := { e with phase := .doneSeen, outcome := some .done }
          (¬others phaseDone → exec (.uplinkSample ch (some w)) s = .next { s with
            hbc := slot good (some (entered seen)) }) ∧
          (others phaseDone → q.reported = false →
            (osqWaits s = true → ∃ entries,
              exec (.uplinkSample ch (some w)) s = .next { s with
                hbc := slot good (some { q with reported := true, entries := entries })
                osq := { s.osq with step := .fetch } } ∧
              ∀ j, entries.get j = ((entered seen).entries.get j).map (fun x => { x with asked := x.outcome = some .done })) ∧
            (osqWaits s = false → ∃ t, exec (.uplinkSample ch (some w)) s = .next t ∧ t.hbc.seq = none ∧
              t.hbc.heads.get ch = ready ∧ t.hbc.record.get ch = some ⟨.busy, some w⟩ ∧ t.osq = s.osq ∧
              t.scv = s.scv ∧ t.cmu = s.cmu))) ∧
        (driveSettled s → w.done = true → q.abandoned = true →
          (others finished → exec (.uplinkSample ch (some w)) s = .next { s with hbc := slot ready none }) ∧
          (¬others finished → exec (.uplinkSample ch (some w)) s = .next { s with
            hbc := slot ready (some (entered end_)) }))) ∧
      ∀ f : Cycle, hd.state = .busy → e.phase = .awaitingStatus → e.fetchCycle = some f →
        let n := s.hbc.cycle - f
        let told : SeqEntry := { end_ with outcome := some (.value w.value) }
        (driveSettled s → (n = 0 ∨ (n = 1 ∧ w.status = false)) →
          exec (.uplinkSample ch (some w)) s = .next { s with hbc := slot good (some (entered e)) }) ∧
        (n = 2 → w.status = false → ∃ t, exec (.answerWindowExpiry ch (some w)) s = .next t ∧ headLost t ch .noStatus ∧
          outOfSequence t) ∧
        ((n = 1 ∨ n = 2) → w.status = true → q.abandoned = false → q.reported = true → s.osq.step = .fetch →
          let taken : Osq := { s.osq with candidates := s.osq.candidates.set k (some w.value) }
          (driveSettled s → ¬others finished → exec (.uplinkSample ch (some w)) s = .next { s with
            hbc := slot ready (some (entered told)), osq := taken }) ∧
          (others finished → ∃ t, exec (.uplinkSample ch (some w)) s = .next t ∧ t.hbc = slot ready none ∧
            t.scv = { s.scv with refs := (commit { s with osq := taken }).scv.refs } ∧ t.osq.scanCount = 0 ∧
            t.osq.due = s.osq.renewal.isSome ∧ t.cta.pending = none ∧ t.cmu.plan = s.cta.pending.getD s.cmu.plan ∧
            (s.osq.renewal = none → t.osq.step = .idle ∧ t.cmu.state ∉ [CarriageState.toStd, .atStd]))) ∧
        (driveSettled s → (n = 1 ∨ n = 2) → w.status = true → q.abandoned = true →
          (others finished → exec (.uplinkSample ch (some w)) s = .next { s with hbc := slot ready none }) ∧
          (¬others finished → exec (.uplinkSample ch (some w)) s = .next { s with
            hbc := slot ready (some (entered end_)) }))

/-- CYCLE_RECORD_FORMED; R34, R59, R60, R61, R62, R63, R67, R69, R71, R72. One cycle record a cycle: its measurement record,
assembled from the samples of the channels whose heads their slots left READY, is handed to the PEN, the EBM and the MSM
alike. That a second one in a cycle changes nothing is the model's choice (log entry 2), and so is what the record shows of a
slot that no command examined (log entry 16). -/
def Obligations.CycleRecordIsHandedOn : Prop :=
  ∀ s : State, s.held = false →
    let chan (ch : Channel) : SlotRecord := (s.hbc.record.get ch).getD ⟨(s.hbc.heads.get ch).state, none⟩
    let record : CycleRecord :=
      ⟨s.hbc.cycle, s.hbc.snapshot, ⟨chan .edge, chan .beta, chan .irw, chan .cal, chan .temp⟩⟩
    let m := convert s.scv.refs s.rbs.activeBank record
    let sample (ch : Channel) : Option UplinkWord := if (chan ch).head = .ready then (chan ch).sample else none
    (m.cycle = s.hbc.cycle ∧ m.snap = s.hbc.snapshot ∧ m.sheet = (sample .edge).map UplinkWord.sheet ∧
      m.temp = (sample .temp).map (fun w => (w.value.toNat : Int) - 2732)) ∧
    (s.rbs.activeBank = none →
      m.bw = none ∧ m.w = none ∧ m.moi = none ∧ m.cal = none ∧ m.dry = none ∧ m.uncomp = false) ∧
    (∀ b, s.rbs.activeBank = some b →
      (m.bw = match sample .beta, s.scv.refs.beta with
        | some w, some r =>
          some (calibrate b.betaTable (ratio w.value.toNat r.toNat).1 (ratio w.value.toNat r.toNat).2)
        | _, _ => none) ∧
      (m.w = match sample .irw, s.scv.refs.irw with
        | some w, some r => waterOf b.kT b.tRef
            (some (calibrate b.irwTable (ratio w.value.toNat r.toNat).1 (ratio w.value.toNat r.toNat).2)) m.temp
        | _, _ => none) ∧
      (m.cal = match sample .cal, s.scv.refs.cal with
        | some w, some r => some (caliper b.gain w.value r)
        | _, _ => none) ∧
      (m.moi = match m.bw, m.w with
        | some x, some y => moisture x y
        | _, _ => none) ∧
      (m.dry = match m.bw, m.w with
        | some x, some y => some (dryWeight x y)
        | _, _ => none) ∧
      (m.uncomp = true ↔ m.w ≠ none ∧ m.temp = none)) ∧
    (s.hbc.slot < 6 → exec .cycleRecordFormed s = .next { s with
      scv := { s.scv with toPen := s.scv.toPen ++ [m], toEbm := s.scv.toEbm ++ [m], toMsm := s.scv.toMsm ++ [m] }
      hbc := { s.hbc with slot := 6, lastRecord := s.hbc.cycle } }) ∧
    (6 ≤ s.hbc.slot → exec .cycleRecordFormed s = .next s)

/-- R51, R54, R57. COMMIT, as the operation: each candidate is accepted by the drift check, with STD DRIFT returned, or leaves
the old reference, with STD DRIFT activated; STANDARDIZE OVERDUE is returned; and the scan count, the due flag, the due age
and the requested flag follow the renewal. That the overdue flag is clear afterwards is the model's choice: R56 gives the point
a condition, and the flag that says it has been activated is the model's own (log entry 21). -/
def Obligations.CommitAppliesTheDriftCheck : Prop :=
  ∀ s : State,
    (∀ c : RefChan, s.osq.candidates.get c = none → (commit s).scv.refs.get c = s.scv.refs.get c ∧
      ((commit s).alt.points[ptStdDrift c]).state = (s.alt.points[ptStdDrift c]).state) ∧
    (∀ (c : RefChan) (new : BitVec 16), s.osq.candidates.get c = some new →
      let accepted := new ≠ 0 ∧ ∀ old, s.scv.refs.get c = some old →
        ((new.toNat : Int) - old.toNat).natAbs * 1024 ≤ s.rbs.common.drift.get c * old.toNat
      (accepted → (commit s).scv.refs.get c = some new ∧
        ((commit s).alt.points[ptStdDrift c]).state ∈ [PointState.normal, .returnUnack]) ∧
      (¬accepted → (commit s).scv.refs.get c = s.scv.refs.get c ∧ alarmActive (commit s) (ptStdDrift c))) ∧
    ((commit s).alt.points[ptOverdue]).state ∈ [PointState.normal, .returnUnack] ∧
    (∀ i : PointNo, i ≠ ptOverdue → (∀ c, i ≠ ptStdDrift c) →
      ((commit s).alt.points[i]).state = (s.alt.points[i]).state) ∧
    (s.osq.renewal.isSome = true → (commit s).osq.dueAge = 0) ∧
    (commit s).osq.scanCount = 0 ∧ (commit s).osq.due = s.osq.renewal.isSome ∧
    (commit s).osq.requested = s.osq.renewal.getD false ∧ (commit s).osq.renewal = none ∧
    (∀ c, (commit s).osq.candidates.get c = none) ∧ (commit s).osq.overdue = false ∧
    (commit s).cmu = s.cmu ∧ (commit s).hbc = s.hbc ∧ (commit s).pen = s.pen

/-- SETTLE_EXPIRY, OVERDUE_EXPIRY; R48, R49, R56. Three clauses are the model's choices: that an expiry out of its condition
changes nothing (log entry 2), that OVERDUE_EXPIRY finds the due age above the overdue time (log entry 4), and the overdue flag,
which is the model's own (log entry 21). -/
def Obligations.StandardizationTimersExpire : Prop :=
  ∀ s : State, s.held = false →
    (s.osq.step = .settle → exec .settleExpiry s = .next { s with
      osq := { s.osq with step := .reference, settle := none }
      hbc := { s.hbc with heldRef := some ⟨s.hbc.mask.beta, s.hbc.mask.irw, s.hbc.mask.cal⟩ } }) ∧
    (s.osq.step ≠ .settle → exec .settleExpiry s = .next s) ∧
    (s.osq.due = true → s.osq.overdue = false →
      ∃ t, exec .overdueExpiry s = .next t ∧ alarmActive t ptOverdue ∧ t.osq.overdue = true ∧ t.osq.due = true ∧
        60 * s.rbs.common.overdueTime < dueSeconds t.osq ∧ t.cmu = s.cmu ∧ t.hbc = s.hbc) ∧
    ((s.osq.due = false ∨ s.osq.overdue = true) → exec .overdueExpiry s = .next s)

/-! ### Conversion -/

/-- R64. The ratio with its cap, and that it goes with its mark into the calibration step. -/
def Obligations.RatioIsFlooredAndCapped : Prop :=
  (∀ raw ref : Nat, raw ≤ 65535 → 1 ≤ ref → ref ≤ 65535 →
    raw * 32768 ≤ 2147450880 ∧ ((ratio raw ref).2 = true ↔ 2 * ref ≤ raw) ∧
    ((ratio raw ref).2 = true → (ratio raw ref).1 = 65535) ∧
    ((ratio raw ref).2 = false →
      (ratio raw ref).1 * ref ≤ raw * 32768 ∧ raw * 32768 < ((ratio raw ref).1 + 1) * ref)) ∧
  ∀ (t : List Breakpoint) (w : UplinkWord) (ref : BitVec 16),
    byRatio t (some w) (some ref) =
      some (calibrate t (ratio w.value.toNat ref.toNat).1 (ratio w.value.toNat ref.toNat).2)

/-- R65, R66. -/
def Obligations.CalibrationFollowsTheTable : Prop :=
  ∀ (t : List Breakpoint) (q : Nat) (capped : Bool), (ht : 2 ≤ t.length) → t.length ≤ 16 → ascending t = true →
    (∀ b ∈ t, b.x ≤ 65535 ∧ b.y ≤ 65535) → (capped = true → q = 65535) → q ≤ 65535 →
    (q < (t[0]).x → calibrate t q capped = ⟨(t[0]).y, .lowClamp⟩) ∧
    ((t[t.length - 1]).x < q → calibrate t q capped = ⟨(t[t.length - 1]).y, .highClamp⟩) ∧
    ∀ (k : Nat) (hk : k + 1 < t.length), (t[k]).x ≤ q → (q < (t[k + 1]).x ∨ k + 2 = t.length) →
      q ≤ (t[t.length - 1]).x →
      let a := t[k]
      let b := t[k + 1]
      let v : Int := a.y + roundHalfAway (((b.y : Int) - a.y) * ((q : Int) - a.x)) (b.x - a.x)
      0 ≤ v ∧ calibrate t q capped = ⟨v.toNat, if capped then .highClamp else .valid⟩ ∧
      min (a.y : Int) b.y ≤ v ∧ v ≤ max (a.y : Int) b.y ∧ (q = a.x → v = a.y) ∧ (q = b.x → v = b.y)

/-- R68, R69, R70, R71, R72, R73. The formulas of water weight, caliper, moisture and dry weight with their clamps
and statuses. That under gain 0 a sample below the zero gap is LOW-CLAMP, its product 0, is the model's reading (log entry
40). -/
def Obligations.PropertyFormulasClampAndMark : Prop :=
  (∀ (kT tRef t : Int) (w : Val),
    let x := (w.value : Int) + roundHalfAway ((w.value : Int) * kT * (t - tRef)) 1048576
    (x < 0 → waterOf kT tRef (some w) (some t) = some ⟨0, .lowClamp⟩) ∧
    (65535 < x → waterOf kT tRef (some w) (some t) = some ⟨65535, .highClamp⟩) ∧
    (0 ≤ x → x ≤ 65535 → waterOf kT tRef (some w) (some t) = some ⟨x.toNat, w.status⟩) ∧
    waterOf kT tRef (some w) none = some w ∧ waterOf kT tRef none (some t) = none ∧
    waterOf 0 tRef (some w) (some t) = (if 65535 < w.value then some ⟨65535, .highClamp⟩ else some w)) ∧
  (∀ (gain : Nat) (raw ref : BitVec 16),
    let x := ((raw.toNat : Int) - ref.toNat) * gain
    ((x < 0 ∨ raw.toNat < ref.toNat) → caliper gain raw ref = ⟨0, .lowClamp⟩) ∧
    (ref.toNat ≤ raw.toNat → x ≤ 268433407 → caliper gain raw ref = ⟨roundHalfUp x.toNat 4096, .valid⟩) ∧
    (268433407 < x → caliper gain raw ref = ⟨65535, .highClamp⟩)) ∧
  ∀ bw w : Val,
    let nearest := if w.status = .valid then bw.status else w.status
    (bw.value = 0 → moisture bw w = none) ∧
    (bw.value ≠ 0 → 10000 < roundHalfUp (10000 * w.value) bw.value → moisture bw w = some ⟨10000, .highClamp⟩) ∧
    (bw.value ≠ 0 → roundHalfUp (10000 * w.value) bw.value ≤ 10000 →
      moisture bw w = some ⟨roundHalfUp (10000 * w.value) bw.value, nearest⟩) ∧
    (bw.value < w.value → dryWeight bw w = ⟨0, .lowClamp⟩) ∧
    (w.value ≤ bw.value → dryWeight bw w = ⟨bw.value - w.value, nearest⟩)

/-! ### Measurement records taken: PEN, EBM, MSM -/

/-- PEN_TAKE_RECORD, FIXED_PERIOD_COMPLETE; R108, R109, R128, R129. A record is added into its bin when the carriage state
is TRAVERSE, the machine runs or threads and the map gives a bin, and adds nothing otherwise; a fixed-point period counts
the records of FIXED, and its 2,000th forms the fixed-point record. That FIXED_PERIOD_COMPLETE on an earlier record changes
nothing is the model's choice (log entry 2). -/
def Obligations.PenTakesRecords : Prop :=
  ∀ (s : State) (r : MRecord) (rest : List MRecord), s.held = false → s.scv.toPen = r :: rest →
    let taken : State := { s with scv := { s.scv with toPen := rest } }
    let running := s.msm.state = .run ∨ s.msm.state = .thread
    let present : PerProp (Option Val) := ⟨r.bw, r.moi, r.cal, r.dry⟩
    (∀ (w : Window) (i : Nat), s.pen.window = some w → s.pen.period = none → r.snap.state = .traverse → running →
      binOf w.ctx.map r.snap.position = some i → w.uncomp < 4294967295 →
      ∃ w' : Window, exec .penTakeRecord s = .next { taken with pen := { s.pen with window := some w' } } ∧
        w'.ctx = w.ctx ∧ w'.uncomp = w.uncomp + r.uncomp.toNat ∧
        ∀ q : Prop4, ∀ j : Nat, (w'.accs.get q)[j]? = (w.accs.get q)[j]?.map (fun a =>
          match present.get q with
          | none => a
          | some v =>
            if j = i ∧ a.count < 65535
            then ⟨a.sum + v.value, a.count + 1, a.clamp + (if v.status = .valid then 0 else 1)⟩ else a)) ∧
    (∀ w : Window, s.pen.window = some w → s.pen.period = none →
      (r.snap.state ≠ .traverse ∨ ¬running ∨ binOf w.ctx.map r.snap.position = none) →
      exec .penTakeRecord s = .next taken) ∧
    (∀ f : FixedPeriod, s.pen.window = none → s.pen.period = some f → r.snap.state = .fixed →
      ∃ accs : PerProp FixedAcc,
        (∀ q, accs.get q = match present.get q with
          | some v => if running then ⟨(f.accs.get q).sum + v.value, (f.accs.get q).count + 1⟩ else f.accs.get q
          | none => f.accs.get q) ∧
        (f.records < 1999 →
          exec .penTakeRecord s = .next { taken with pen := { s.pen with period := some ⟨f.records + 1, accs⟩ } } ∧
          exec .fixedPeriodComplete s = .next s) ∧
        (f.records = 1999 →
          ∃ avgs : PerProp (Option Nat),
            (∀ q, avgs.get q =
              if (accs.get q).count = 0 then none else some (roundHalfUp (accs.get q).sum (accs.get q).count)) ∧
            exec .fixedPeriodComplete s = .next { taken with pen := { s.pen with
              period := some ⟨0, ⟨⟨0, 0⟩, ⟨0, 0⟩, ⟨0, 0⟩, ⟨0, 0⟩⟩⟩
              fixedRec := some ⟨r.snap.position, r.cycle, avgs⟩ } } ∧
            exec .penTakeRecord s = exec .fixedPeriodComplete s))

/-- EBM_WATCH_RECORD, EDGE_GAP_LIMIT; R92, R93, R94, R95. A capture is frozen once taken; that a change to sheet which finds a
leading capture and no trailing one counts as an interior transition is the model's reading (log entry 35). -/
def Obligations.EdgeWatchReadsSheet : Prop :=
  ∀ (s : State) (r : MRecord) (rest : List MRecord), s.held = false → s.scv.toEbm = r :: rest →
    let w := s.ebm.watch
    let left (w' : EdgeWatch) : State :=
      { s with scv := { s.scv with toEbm := rest }, ebm := { s.ebm with watch := w' } }
    ((w.opened = false ∨ r.snap.state ≠ .traverse) → exec .ebmWatchRecord s = .next (left w)) ∧
    (w.opened = true → r.snap.state = .traverse →
      (r.sheet = none → w.gap < 15 → exec .ebmWatchRecord s = .next (left { w with gap := w.gap + 1 })) ∧
      (r.sheet = none → w.gap = 15 →
        exec .edgeGapLimit s = .next (left { w with gap := 16, previous := none })) ∧
      (r.sheet = none → (w.gap = 15 ∨ w.gap = 16) →
        exec .ebmWatchRecord s = .next (left { w with gap := 16, previous := none })) ∧
      (∀ x, r.sheet = some x → w.previous = none →
        exec .ebmWatchRecord s = .next (left { w with
          gap := 0
          previous := some x
          anyReading := true
          coveredStart := if w.anyReading then w.coveredStart else x })) ∧
      (∀ x, r.sheet = some x → w.previous = some x → exec .ebmWatchRecord s = .next (left { w with gap := 0 })) ∧
      (∀ x, r.sheet = some x → w.previous = some (!x) →
        (w.trailing = none → x = true → w.leading = none → exec .ebmWatchRecord s =
          .next (left { w with gap := 0, previous := some x, leading := some r.snap.position })) ∧
        (w.trailing = none → x = false → exec .ebmWatchRecord s =
          .next (left { w with gap := 0, previous := some x, trailing := some r.snap.position })) ∧
        ((w.trailing ≠ none ∨ (x = true ∧ w.leading ≠ none)) → exec .ebmWatchRecord s =
          .next (left { w with gap := 0, previous := some x, interior := min 65535 (w.interior + 1) }))))

/-- MSM_TAKE_RECORD, SHEET_RUN_GAP_LIMIT; R146, R147. -/
def Obligations.SheetRunsAreCounted : Prop :=
  ∀ (s : State) (o : OverrideOrder) (r : MRecord) (rest : List MRecord), s.held = false → driveSettled s →
    s.scv.toMsm = r :: rest →
    let left (run : Option SheetRun) : State :=
      { s with scv := { s.scv with toMsm := rest }, msm := { s.msm with run := run } }
    let eligible := (r.snap.state = .traverse ∨ r.snap.state = .fixed) ∧
      ∃ ef eb, s.ebm.ef = some ef ∧ s.ebm.eb = some eb ∧ ef < r.snap.position ∧ r.snap.position < eb
    (¬eligible → exec (.msmTakeRecord o) s = .next (left none)) ∧
    (eligible →
      (r.sheet = some false → s.msm.run = none → 1 < s.rbs.common.sheetLost →
        exec (.msmTakeRecord o) s = .next (left (some ⟨r.snap.position, 1, 0, false⟩))) ∧
      (∀ x, r.sheet = some false → s.msm.run = some x → (x.spent = true ∨ x.length + 1 < s.rbs.common.sheetLost) →
        exec (.msmTakeRecord o) s = .next (left (some { x with length := min 4000 (x.length + 1), gap := 0 }))) ∧
      (r.sheet = none → s.msm.run = none → exec (.msmTakeRecord o) s = .next (left none)) ∧
      (∀ x, r.sheet = none → s.msm.run = some x → x.gap < 15 →
        exec (.msmTakeRecord o) s = .next (left (some { x with gap := x.gap + 1 }))) ∧
      (∀ x, r.sheet = none → s.msm.run = some x → x.gap = 15 → exec .sheetRunGapLimit s = .next (left none)) ∧
      (r.sheet = some true → (∀ x, s.msm.run = some x → x.spent = true ∨ x.length < 8) →
        exec (.msmTakeRecord o) s = .next (left none)) ∧
      (∀ x, r.sheet = some true → s.msm.run = some x → x.spent = false → 8 ≤ x.length →
        ∃ t, exec (.msmTakeRecord o) s = .next t ∧ t.msm = { s.msm with run := none, holeSeen := true } ∧
          alarmActive t ptHole ∧ t.scv = { s.scv with toMsm := rest } ∧ t.cmu = s.cmu ∧ t.pen = s.pen))

/-- SHEET_LOST; R147, R149, R153, R155, R156. The record that brings an unspent run to the sheet-lost length, in RUN or
THREAD, in BREAK, and in DOWN. -/
def Obligations.SheetLostIsABreakCause : Prop :=
  ∀ (s : State) (o : OverrideOrder) (r : MRecord) (rest : List MRecord) (ef eb : Int) (x : SheetRun),
    s.held = false → s.scv.toMsm = r :: rest → (r.snap.state = .traverse ∨ r.snap.state = .fixed) →
    s.ebm.ef = some ef → s.ebm.eb = some eb → ef < r.snap.position → r.snap.position < eb → r.sheet = some false →
    s.msm.run = some x → x.spent = false → x.length < 4000 → s.rbs.common.sheetLost ≤ x.length + 1 →
    let spent : SheetRun := ⟨x.start, x.length + 1, 0, true⟩
    ((s.msm.state = .run ∨ s.msm.state = .thread) →
      ∃ t, exec (.sheetLost o) s = .next t ∧ breakEntered s t .sheetLost x.start r.cycle ∧ t.msm.run = some spent) ∧
    (s.msm.state = .down → driveSettled s →
      exec (.sheetLost o) s = .next { s with
        scv := { s.scv with toMsm := rest }, msm := { s.msm with run := some spent } }) ∧
    (∀ newest older, s.msm.state = .brk → driveSettled s → s.msm.log = newest :: older → newest.isOpen = true →
      newest.first.kind ≠ .sheetLost → (∀ c ∈ newest.later, c.kind ≠ .sheetLost) → newest.later.length < 4 →
      exec (.sheetLost o) s = .next { s with
        scv := { s.scv with toMsm := rest }
        msm := { s.msm with
          run := some spent
          log := { newest with later := newest.later ++ [⟨.sheetLost, x.start, r.cycle⟩] } :: older } })

/-- BREAK_LINE_CONFIRMED; R142, R143, R149, R153, R155, R156. -/
def Obligations.BreakLinesAreRead : Prop :=
  ∀ (s : State) (l : BreakLine) (high : Bool) (o : OverrideOrder), s.held = false →
    let confirmed : PerLine Sampled := s.msm.lines.set l ⟨some high, 3, some high⟩
    let was := (s.msm.lines.get l).confirmed
    ((s.rbs.common.lineEnable.get l = false ∨ was = some high) → driveSettled s →
      exec (.breakLineConfirmed l high o) s = .next { s with msm := { s.msm with lines := confirmed } }) ∧
    (s.rbs.common.lineEnable.get l = true → high = s.rbs.common.lineLow.get l → was ≠ some high →
      ((s.msm.state = .run ∨ s.msm.state = .thread) →
        ∃ t, exec (.breakLineConfirmed l high o) s = .next t ∧
          breakEntered s t (.line l) s.cmu.position s.hbc.cycle ∧ t.msm.lines = confirmed) ∧
      (s.msm.state = .down → driveSettled s →
        exec (.breakLineConfirmed l high o) s = .next { s with msm := { s.msm with lines := confirmed } }) ∧
      (∀ newest older, s.msm.state = .brk → driveSettled s → s.msm.log = newest :: older → newest.isOpen = true →
        newest.first.kind ≠ .line l → (∀ c ∈ newest.later, c.kind ≠ .line l) → newest.later.length = 4 →
        exec (.breakLineConfirmed l high o) s = .next { s with msm := { s.msm with
          lines := confirmed
          log := { newest with overflow := min 255 (newest.overflow + 1) } :: older } })) ∧
    (s.rbs.common.lineEnable.get l = true → high ≠ s.rbs.common.lineLow.get l → was ≠ some high → s.msm.state = .brk →
      (∀ k, s.rbs.common.lineEnable.get k = true → k ≠ l →
        (s.msm.lines.get k).confirmed = some (!s.rbs.common.lineLow.get k)) →
      ∃ t, exec (.breakLineConfirmed l high o) s = .next t ∧ t.msm.state = .thread ∧ t.msm.source = false ∧
        t.msm.lines = confirmed ∧ t.msm.nextBreak = s.msm.nextBreak)

/-! ### The map, the profile and the zones -/

/-- R102, R103. The bin of a position under a map, and the boundary points that bound the bins of a valid one; an invalid
map has neither. -/
def Obligations.BinsOfAMap : Prop :=
  (∀ m : BinMap, m.valid = false → boundaries m = [] ∧ ∀ p : Int, binOf m p = none) ∧
  ∀ (m : BinMap) (n : Nat) (start stop span : Int), m.n = some n → m.start = some start → m.stop = some stop →
    m.span = some span → span = stop - start → 16 ≤ n → 10 * (n : Int) ≤ span →
    (∀ p : Int, (p < start ∨ stop ≤ p) → binOf m p = none) ∧
    (m.valid = true →
      (∀ p : Int, start ≤ p → p < stop → ∃ i, binOf m p = some i ∧ i < n ∧
        (i : Int) * span ≤ (p - start) * n ∧ (p - start) * n < ((i : Int) + 1) * span) ∧
      (boundaries m).length = n + 1 ∧ (boundaries m)[0]? = some start ∧ (boundaries m)[n]? = some stop ∧
      ∀ (i : Nat) (a b : Int), (boundaries m)[i]? = some a → (boundaries m)[i + 1]? = some b →
        a < b ∧ span / n ≤ b - a ∧ b - a ≤ span / n + 1 ∧ ∀ p : Int, binOf m p = some i ↔ a ≤ p ∧ p < b)

/-- R111, R112, R124, R125. The bins, the carry record, the filtered profile and the filter copy that a publication makes of
the accumulators of a traverse, by the bank of its context. -/
def Obligations.BinsAreFinalizedAndFiltered : Prop :=
  ∀ (s : State) (w : Window) (n : Nat) (k : BankNo) (bank : GradeBank), w.ctx.map.n = some n → w.ctx.bank = some k →
    s.rbs.banks[k] = some bank →
    let g := (formGeneration s w).1
    let filter := (formGeneration s w).2.1
    let carry := (formGeneration s w).2.2
    carry.n = some n ∧ filter.n = s.pen.filter.n ∧
    ∀ q : Prop4,
      (∀ (i : Nat) (a : Acc), (w.accs.get q)[i]? = some a →
        let before := (s.pen.carry.bins.get q)[i]?
        let left (b : BinOut) (c : CarryBin) : Prop :=
          (g.bins.get q)[i]? = some b ∧ (carry.bins.get q)[i]? = some c
        (bank.minSamples ≤ a.count →
          left ⟨.valid, some (roundHalfUp a.sum a.count), a.clamp⟩ ⟨some (roundHalfUp a.sum a.count), 0⟩) ∧
        (a.count < bank.minSamples →
          (∀ v age, s.pen.carry.n = some n → before = some ⟨some v, age⟩ →
            (age < 3 → left ⟨.held, some v, a.clamp⟩ ⟨some v, age + 1⟩) ∧
            (3 ≤ age → left ⟨.invalid, none, a.clamp⟩ ⟨none, 0⟩)) ∧
          ((s.pen.carry.n ≠ some n ∨ before.bind CarryBin.value = none) →
            left ⟨.invalid, none, a.clamp⟩ ⟨none, 0⟩))) ∧
      ((g.stats.get q).frozen = false ↔
        s.msm.state = .run ∧ (g.stats.get q).poor = false ∧ w.ctx.map.valid = true) ∧
      ((g.stats.get q).frozen = true → filter.bins.get q = s.pen.filter.bins.get q) ∧
      ((g.stats.get q).frozen = false →
        ∀ (i : Nat) (b : BinOut) (f : Option Nat), (g.bins.get q)[i]? = some b →
          (s.pen.filter.bins.get q)[i]? = some f →
          (b.status ≠ .valid → (filter.bins.get q)[i]? = some f) ∧
          ∀ v, b.status = .valid → b.value = some v →
            (f = none → (filter.bins.get q)[i]? = some (some v)) ∧
            ∀ x, f = some x → bank.weight ≤ 256 →
              ∃ y : Nat, (y : Int) = x + roundHalfAway (((v : Int) - x) * bank.weight) 256 ∧ min x v ≤ y ∧ y ≤ max x v ∧
                (filter.bins.get q)[i]? = some (some y)) ∧
      ∃ copies, g.filter = some copies ∧ (copies.get q).bins = filter.bins.get q ∧
        let seeded := (filter.bins.get q).filterMap id
        (copies.get q).avg = if seeded = [] then none else some (roundHalfUp seeded.sum seeded.length)

/-- R113, R114, R115. The scan average, the spread and POOR of one property of a generation with a bin count, with the bounds
of the sum of squares and of the spread. -/
def Obligations.StatisticsOfTheValidBins : Prop :=
  (∀ n : Nat, floorSqrt n * floorSqrt n ≤ n ∧ n < (floorSqrt n + 1) * (floorSqrt n + 1)) ∧
  ∀ (n : Nat) (bins : List BinOut),
    let vs := bins.filterMap (fun b => if b.status = .valid then b.value else none)
    let st := statsOf (some n) bins
    st.nValid = vs.length ∧ (st.poor = true ↔ 2 * vs.length < n) ∧
    (vs = [] → st.avg = none ∧ st.spread = none) ∧
    (vs ≠ [] → ∃ a : Nat, st.avg = some a ∧ 2 * a * vs.length ≤ 2 * vs.sum + vs.length ∧
      2 * vs.sum < (2 * a + 1) * vs.length ∧
      let squares := (vs.map (fun v => ((v : Int) - a).natAbs ^ 2)).sum
      let variance := roundHalfUp squares vs.length
      st.spread = some (2 * floorSqrt variance) ∧
      (vs.length ≤ 600 → (∀ v ∈ vs, v ≤ 65535) → squares < 2600000000000 ∧ 2 * floorSqrt variance ≤ 131070))

/-- R131, R133, R134, R135, R136, R137. The centre of a bin lies in at most one zone of a map, and inside the binned width; a
publication activates a staged map, and computes the outputs of a map whose property's filter it updated. -/
def Obligations.ZonesTakeTheirBins : Prop :=
  (∀ (n i : Nat), 16 ≤ n → n ≤ 600 → i < n →
    54 ≤ centre n i ∧ centre n i ≤ 65481 ∧
    2 * n * centre n i ≤ (2 * i + 1) * 65536 ∧ (2 * i + 1) * 65536 < 2 * n * (centre n i + 1) ∧
    (∀ z : Zone, inZone n z i = true ↔ z.a ≤ centre n i ∧ centre n i < z.b) ∧
    ∀ (zs : List Zone) (j k : Nat) (a b : Zone), spansOrdered none zs = true → zs[j]? = some a → zs[k]? = some b →
      inZone n a i = true → inZone n b i = true → j = k) ∧
  ∀ (g : Generation) (azm : Azm) (before after : ZoneSide),
    ((before = azm.a ∧ after = (azmPublish g azm).a) ∨ (before = azm.b ∧ after = (azmPublish g azm).b)) →
    let outBefore (k : Nat) : ZoneOut := if before.staged = none then (before.outs[k]?).getD .none else .none
    after.staged = none ∧ after.assembly = before.assembly ∧
    after.active = (if before.staged = none then before.active else before.staged) ∧
    ∀ m : ZoneMap, after.active = some m →
      ((g.stats.get m.prop).frozen = true → after.frozen = true ∧
        (before.staged = none → after.outs = before.outs ∧ after.lastScan = before.lastScan) ∧
        (before.staged ≠ none → after.outs = List.replicate m.zones.length .none ∧ after.lastScan = none)) ∧
      ∀ (n avg : Nat) (copies : PerProp FilterCopy), (g.stats.get m.prop).frozen = false → g.map.n = some n →
        g.filter = some copies → (copies.get m.prop).avg = some avg →
        after.frozen = false ∧ after.lastScan = some g.scan ∧ after.outs.length = m.zones.length ∧
        ∀ (k : Nat) (z : Zone), m.zones[k]? = some z →
          let bins := (copies.get m.prop).bins
          let deviations : List Int := (List.range bins.length).filterMap (fun i =>
            if z.a ≤ centre n i ∧ centre n i < z.b then (bins[i]?).join.map (fun f => (f : Int) - avg) else none)
          (deviations ≠ [] → after.outs[k]? = some (.valid (roundHalfAway deviations.sum deviations.length))) ∧
          (deviations = [] →
            (outBefore k = .none → after.outs[k]? = some .none) ∧
            ∀ v, (outBefore k = .valid v ∨ outBefore k = .held v) → after.outs[k]? = some (.held v))

/-- R119. The slot a publication takes: an empty one, else the oldest unpinned one, else the oldest. -/
def Obligations.PublicationTakesTheOldestFreeSlot : Prop :=
  ∀ p : Pen,
    ((∃ i : Fin 3, p.slots[i] = none) → p.slots[takeSlot p] = none) ∧
    ∀ g : Fin 3 → Generation, (∀ i : Fin 3, p.slots[i] = some (g i)) →
      let pinned (i : Fin 3) : Prop := ∃ q : Port, p.pins.get q = some (g i).scan
      let age (i : Fin 3) : Nat := (p.counter - (g i).scan).toNat
      ((∃ i, ¬pinned i) → ¬pinned (takeSlot p) ∧ ∀ i, ¬pinned i → age i ≤ age (takeSlot p)) ∧
      ((∀ i, pinned i) → ∀ i, age i ≤ age (takeSlot p))

/-! ### The link ports -/

/-- MESSAGE_RECEIVED, BAD_MESSAGE; R189, R190, R194, R198. The characters of a whole message, with its CRC right, put it in
the inbound buffer; with any other CRC they are a bad message. -/
def Obligations.FramesAreReceived : Prop :=
  ∀ (s : State) (p : Port) (kind tag : Byte) (pl : List Byte), pl.length ≤ 250 → s.held = false →
    (s.ports.get p).receiver = .hunting → (s.ports.get p).noise ≤ 65535 →
    let ps := s.ports.get p
    let body : List Byte := [BitVec.ofNat 8 pl.length, kind, tag] ++ pl
    let clean := (frame ⟨.reply, kind, tag, pl⟩).map cleanChar
    (ps.silent = false → exec (.messageReceived p clean) s = .next { s with ports := s.ports.set p { ps with
      silentTimer := 0
      inbound := if ps.inbound.length < 4 then ps.inbound ++ [⟨kind, tag, pl⟩] else ps.inbound
      overruns := if ps.inbound.length < 4 then ps.overruns else min 65535 (ps.overruns + 1) } }) ∧
    (ps.silent = true → ∃ t, exec (.messageReceived p clean) s = .next t ∧ (t.ports.get p).silent = false ∧
      (t.ports.get p).silentTimer = 0 ∧ (t.ports.get p).descriptors = ps.descriptors ∧
      (t.ports.get p).inbound = (if ps.inbound.length < 4 then ps.inbound ++ [⟨kind, tag, pl⟩] else ps.inbound) ∧
      (t.alt.points[ptPortSilent p]).state ∈ [PointState.normal, .returnUnack] ∧ t.cta = s.cta ∧ t.pen = s.pen) ∧
    ∀ c1 c0 : Byte, (c1.toNat * 256 + c0.toNat) ≠ (crc16 body).toNat →
      exec (.badMessage p (([0xA5#8] ++ body ++ [c1, c0]).map cleanChar)) s = .next { s with
        ports := s.ports.set p { ps with bad := min 65535 (ps.bad + 1) } }

/-- CHARACTER_RECEIVED, BAD_MESSAGE, INTERCHAR_TIMEOUT; R188, R189. What one character makes of a receiver, and the time
between two characters: SYNC opens a message while hunting, and a stop-bit error, a LEN above 250 and a timeout end one. That
a SYNC with a low stop bit opens nothing, and that the noise events of SYNC are not counted, is the model's reading (log entry
15); that a timeout while hunting changes nothing is its choice (log entry 2). -/
def Obligations.ReceiverTakesCharacters : Prop :=
  ∀ (s : State) (p : Port) (c : RxChar), s.held = false →
    let ps := s.ports.get p
    let left (r : Receiver) : State := { s with ports := s.ports.set p { ps with receiver := r } }
    let bad : State := { s with ports := s.ports.set p { ps with receiver := .hunting, bad := min 65535 (ps.bad + 1) } }
    (∀ i, (majority c).getLsbD i =
      decide (2 ≤ (c.sub7.getLsbD i).toNat + (c.sub8.getLsbD i).toNat + (c.sub9.getLsbD i).toNat)) ∧
    (startOk c = false → exec (.characterReceived p c) s = .next s) ∧
    (startOk c = true →
      (ps.receiver = .hunting →
        (stopOk c = true → dataOf c = 0xA5#8 → exec (.characterReceived p c) s = .next (left (.assembling [] 0))) ∧
        ((stopOk c = false ∨ dataOf c ≠ 0xA5#8) → exec (.characterReceived p c) s = .next s)) ∧
      ∀ (bytes : List Byte) (noise : Nat), ps.receiver = .assembling bytes noise →
        (stopOk c = false →
          exec (.characterReceived p c) s = .next bad ∧ exec (.badMessage p [c]) s = .next bad) ∧
        (stopOk c = true → bytes = [] → 250 < (dataOf c).toNat → exec (.characterReceived p c) s = .next bad) ∧
        (stopOk c = true → bytes = [] → (dataOf c).toNat ≤ 250 →
          exec (.characterReceived p c) s = .next (left (.assembling [dataOf c] (noise + noiseOf c)))) ∧
        (∀ len rest, stopOk c = true → bytes = len :: rest → len.toNat ≤ 250 → rest.length + 2 < len.toNat + 5 →
          exec (.characterReceived p c) s = .next (left (.assembling (bytes ++ [dataOf c]) (noise + noiseOf c))))) ∧
    (∀ bytes noise, ps.receiver = .assembling bytes noise → exec (.intercharTimeout p) s = .next bad) ∧
    (ps.receiver = .hunting → exec (.intercharTimeout p) s = .next s)

/-- PORT_SILENT; R179, R197. That it changes nothing on a SILENT port and with a silent time of 0 is the model's choice (log
entry 2); that the silent timer keeps its value is its reading (log entry 28). -/
def Obligations.PortGoesSilent : Prop :=
  ∀ (s : State) (p : Port), s.held = false →
    let ps := s.ports.get p
    ((ps.silent = true ∨ s.rbs.common.silentTime = 0) → exec (.portSilent p) s = .next s) ∧
    (ps.silent = false → s.rbs.common.silentTime ≠ 0 → ∃ t, exec (.portSilent p) s = .next t ∧
      t.ports.get p = { ps with
        silent := true
        inbound := []
        outbound := []
        handling := ps.handling.map (fun h => { h with cancelled := true })
        stream := .idle } ∧
      t.pen = { s.pen with pins := s.pen.pins.set p none } ∧ alarmActive t (ptPortSilent p) ∧
      (s.cta.holder = some p → t.cta = ⟨s.cta.waiting.head?, s.cta.waiting.tail, none⟩ ∧
        (∀ k, s.cmu.hold = .owed k → t.cmu = { s.cmu with hold := .none }) ∧
        ((∀ k, s.cmu.hold ≠ .owed k) → t.cmu = s.cmu)) ∧
      (s.cta.holder ≠ some p → t.cta = { s.cta with waiting := s.cta.waiting.erase p } ∧ t.cmu = s.cmu) ∧
      (p = .actuator → t.azm = ⟨{ s.azm.a with assembly := none }, { s.azm.b with assembly := none }⟩) ∧
      (p ≠ .actuator → t.azm = s.azm) ∧ t.hbc = s.hbc ∧ t.osq = s.osq ∧ t.msm = s.msm ∧ t.drive = s.drive)

/-- MESSAGE_SENT, READ_CHUNK, SUPERSEDED_CHUNK; R122, R188, R190, R196, R201, R202, R203, R205, R206. The values of a form, their
encodings, the bytes of a chunk, and the push reports with which a port serves a publication, as the operations that the
traverse end uses; the sending of a message and of a chunk, as commands. -/
def Obligations.PortsSendAndStream : Prop :=
  ((∀ q, propCode q = match q with | .bw => 0 | .moi => 1 | .cal => 2 | .dry => 3) ∧
    (∀ f, formCode f = match f with
      | .raw => 0 | .deviation => 1 | .filtered => 2 | .filteredDeviation => 3 | .status => 4) ∧
    ∀ e, encCode e = match e with | .wide => 0 | .narrow => 1 | .coarse => 2) ∧
  (∀ (g : Generation) (q : Prop4),
    let st := g.stats.get q
    let copy := g.filter.map (fun c => c.get q)
    (∀ (i : Nat) (b : BinOut), (g.bins.get q)[i]? = some b →
      formValue g q .raw i = b.value.map (fun v => (v : Int)) ∧
      (formValue g q .deviation i = match b.value, st.avg with
        | some v, some a => some ((v : Int) - a)
        | _, _ => none) ∧
      statusBytes g q i = [BitVec.ofNat 8 ((match b.status with | .valid => 0 | .held => 1 | .invalid => 2) +
        if (copy.bind (fun c => (c.bins[i]?).join)).isSome then 16 else 0), BitVec.ofNat 8 (min b.clamp 255)]) ∧
    (∀ (i : Nat) (c : FilterCopy) (x : Option Nat), copy = some c → c.bins[i]? = some x →
      formValue g q .filtered i = x.map (fun v => (v : Int)) ∧
      formValue g q .filteredDeviation i = match x, c.avg with
        | some v, some a => some ((v : Int) - a)
        | _, _ => none) ∧
    (copy = none → ∀ i, formValue g q .filtered i = none ∧ formValue g q .filteredDeviation i = none) ∧
    ∀ (f : Form) (e : Encoding) (shift first n : Nat) (last : Bool),
      let noAverage := (f = .deviation ∧ st.avg = none) ∨ (f = .filteredDeviation ∧ copy.bind FilterCopy.avg = none)
      let flags := (if last then 1 else 0) + (if st.frozen then 4 else 0) + (if st.poor then 8 else 0) +
        (if noAverage then 16 else 0)
      chunkPayload g q f e shift first n last = bytesBE 4 g.scan.toNat ++
        [BitVec.ofNat 8 (propCode q * 8 + formCode f),
          BitVec.ofNat 8 (if f = .status then 0 else encCode e * 8 + shift)] ++
        bytesBE 2 first ++ [BitVec.ofNat 8 n, BitVec.ofNat 8 flags] ++
        (List.range n).flatMap (fun i => if f = .status then statusBytes g q (first + i)
          else encodeValue f e shift (formValue g q f (first + i)))) ∧
  (∀ (f : Form) (shift : Nat),
    (f ∈ [Form.raw, .filtered] →
      encodeValue f .wide shift none = [0xFF, 0xFF, 0xFF, 0xFF] ∧ encodeValue f .narrow shift none = [0xFF, 0xFF] ∧
      encodeValue f .coarse shift none = [0xFF] ∧
      ∀ v : Nat, v ≤ 65535 → encodeValue f .wide shift (some v) = bytesBE 4 v ∧
        encodeValue f .narrow shift (some v) = bytesBE 2 v ∧
        encodeValue f .coarse shift (some v) = [BitVec.ofNat 8 (min 255 (v / 2 ^ shift))]) ∧
    (f ∈ [Form.deviation, .filteredDeviation] →
      encodeValue f .wide shift none = [0x80, 0, 0, 0] ∧ encodeValue f .narrow shift none = [0x80, 0] ∧
      encodeValue f .coarse shift none = [0x80] ∧
      ∀ v : Int, -65535 ≤ v → v ≤ 65535 → encodeValue f .wide shift (some v) = bytesBE 4 (v % 2 ^ 32).toNat ∧
        encodeValue f .narrow shift (some v) = bytesBE 2 (max (-32768) (min 32767 v) % 2 ^ 16).toNat ∧
        encodeValue f .coarse shift (some v) = [BitVec.ofInt 8 (max (-128) (min 127 (v / 2 ^ shift)))])) ∧
  (∀ (g : Generation) (azm : Azm) (ps : PortState),
    let serve := serveDescriptor g azm
    (ps.silent = true → servePort g azm ps = ps) ∧
    (ps.silent = false → servePort g azm ps = serve (serve (serve (serve ps 0) 1) 2) 3) ∧
    ∀ i : Fin 4,
      let d := ps.descriptors[i]
      let admits := ps.outbound.length + ps.reserved ≤ 24 ∧ ps.outbound.countP (fun m => m.cls == .push) < 24
      let bins := g.map.n.getD 0
      let count := if d.first < bins then min d.last (bins - 1) + 1 - d.first else 0
      let body : List Byte := match d.form with
        | .summary => summaryBody g
        | .zoneA => zoneBody g.scan .a azm.a
        | .zoneB => zoneBody g.scan .b azm.b
        | .profile => chunkPayload g d.prop d.pform d.enc d.shift d.first count true
      let report : OutMsg := ⟨.push, match d.form with | .summary => 0x48 | .zoneA => 0x49 | .zoneB => 0x49 | .profile => 0x4A,
        0, [BitVec.ofNat 8 i.val, BitVec.ofNat 8 d.missed] ++ body⟩
      (d.active = false → serve ps i = ps) ∧
      (d.active = true → ¬admits →
        serve ps i = { ps with descriptors := ps.descriptors.set i { d with missed := min 255 (d.missed + 1) } }) ∧
      (d.active = true → admits → d.remaining ≠ 1 → serve ps i = { ps with
        outbound := ps.outbound ++ [report]
        descriptors := ps.descriptors.set i { d with missed := 0, remaining := d.remaining - 1 } }) ∧
      (d.active = true → admits → d.remaining = 1 → ps.silent = false → serve ps i = { ps with
        outbound := ps.outbound ++ [report, ⟨.notice, 0x46, 0, [BitVec.ofNat 8 i.val]⟩]
        descriptors := ps.descriptors.set i { d with missed := 0, remaining := 0, active := false } })) ∧
  ∀ (s : State) (p : Port), s.held = false →
    let ps := s.ports.get p
    let put (x : PortState) : PerPort PortState := s.ports.set p x
    exec (.messageSent p) s = .next { s with ports := put { ps with outbound := ps.outbound.tail } } ∧
    (∀ (r : Stream) (g : Generation), ps.stream = .running r → inSlot s.pen g → g.scan = r.scan →
      ps.outbound.length + ps.reserved ≤ 30 →
      let n := min (binsPerChunk r.form r.enc) (r.lastBin + 1 - r.nextBin)
      let chunk (last : Bool) : OutMsg :=
        ⟨.chunk, 0x40, r.tag, chunkPayload g r.prop r.form r.enc r.shift r.nextBin n last⟩
      (r.nextBin + n ≤ r.lastBin → exec (.readChunk p) s = .next { s with ports := put { ps with
        outbound := ps.outbound ++ [chunk false]
        stream := .running { r with nextBin := r.nextBin + n } } }) ∧
      (r.lastBin < r.nextBin + n → exec (.readChunk p) s = .next { s with
        pen := { s.pen with pins := s.pen.pins.set p none }
        ports := put { ps with outbound := ps.outbound ++ [chunk true], stream := .idle } })) ∧
    (∀ r : Stream, ps.stream = .ending r → ps.outbound.length + ps.reserved ≤ 30 →
      exec (.supersededChunk p) s = .next { s with ports := put { ps with
        outbound := ps.outbound ++ [⟨.chunk, 0x40, r.tag, supersededPayload r⟩], stream := .idle } }) ∧
    (30 < ps.outbound.length + ps.reserved →
      exec (.readChunk p) s = .next s ∧ exec (.supersededChunk p) s = .next s)

/-- UNKNOWN_KIND and every row of the request table; R180, R191, R195. The port's own checks in their order, and the token
check of the requests that need it. -/
def Obligations.PortsRefuseRequests : Prop :=
  ∀ (s : State) (p : Port) (m : InMsg), waits s p m (replyNeed m.kind.toNat) →
    let len := m.payload.length
    ((m.kind.toNat = 0 ∨ (28 ≤ m.kind.toNat ∧ m.kind.toNat < 128)) →
      exec (.unknownKind p) s = .next (answered s p m [[0x18]])) ∧
    ∀ (o : OverrideOrder) (n : Nat) (named : Option Nat) (row : Port → Stage → Instr),
      (n, named, row) ∈ requestTable o → forRow n named m →
      let allowed : List Port :=
        if n ∈ [9, 27] then [.quality] else if n ∈ [10, 11, 26] then [.quality, .machine]
        else if n = 12 then [.actuator] else if n ∈ [21, 22, 23] then [.machine] else [.quality, .machine, .actuator]
      let nB := fieldAt m.payload 14 1
      let needed : Prop :=
        if n = 9 then len = 47 + 4 * (nB + fieldAt m.payload (15 + 4 * nB) 1)
        else if n = 10 then 1 ≤ len ∧ len = 1 + 4 * fieldAt m.payload 0 1
        else if n = 12 then 8 ≤ len ∧ len ≤ 244 ∧ len % 4 = 0
        else if n = 3 then len = 13 else if n = 4 then len = 5 else if n ∈ [5, 11, 22, 23, 24] then len = 1
        else if n = 15 then len = 20 else if n = 21 then len = 2 else if n = 25 then len = 12 else len = 0
      (p ∉ allowed → exec (row p .whole) s = .next (answered s p m [[0x10]])) ∧
      (p ∈ allowed → ¬needed → exec (row p .whole) s = .next (answered s p m [[0x12]])) ∧
      (p ∈ allowed → needed → n ∈ [10, 15, 16, 17, 18, 19] → s.cta.holder ≠ some p →
        exec (row p .whole) s = .next (answered s p m [[0x11]])) ∧
      (∀ q, p ∈ allowed → needed → n = 20 → s.cta.holder = some q → q ≠ p →
        exec (row p .whole) s = .next (answered s p m [[0x11]]))

/-- Every row of the request table; R195, R197, R199, R207. A request is taken with its reply's entries reserved, or waits;
it is then answered by its owner, or by the port when that has become SILENT since; one command that does both leaves the
same. That a command may stand between the two is the model's reading (log entry 6). The rows whose owner is the port itself
(1, 2, 25, 26) are answered as they are taken. -/
def Obligations.RequestsAreTakenThenAnswered : Prop :=
  ∀ (o : OverrideOrder) (n : Nat) (named : Option Nat) (row : Port → Stage → Instr), (n, named, row) ∈ requestTable o →
    ∀ (s : State) (p : Port) (m : InMsg), s.held = false → forRow n named m →
      let ps := s.ports.get p
      let need := if n = 5 then 4 else if n = 8 then 3 else if n = 2 ∨ n = 7 then 2 else 1
      (ps.inbound.head? = some m → ps.handling = none →
        (n ∉ [1, 2, 25, 26] → portCheck p m = none → ps.outbound.length + need ≤ 32 →
          exec (row p .take) s = .next { s with ports := s.ports.set p { ps with
            inbound := ps.inbound.tail, handling := some ⟨m, need, false⟩ } }) ∧
        (32 < ps.outbound.length + need →
          exec (row p .take) s = .next s ∧ exec (row p .whole) s = .next s) ∧
        (n ∉ [1, 2, 25, 26] →
          ∀ t, exec (row p .take) s = .next t → exec (row p .whole) s = exec (row p .answer) t)) ∧
      (n ∈ [1, 2, 25, 26] → exec (row p .take) s = exec (row p .whole) s) ∧
      (ps.handling ≠ none → exec (row p .take) s = .next s ∧ exec (row p .whole) s = .next s) ∧
      (∀ k, ps.handling = some ⟨m, k, true⟩ → 1 ≤ k →
        exec (row p .answer) s = .next { s with ports := s.ports.set p { ps with
          handling := none, outbound := ps.outbound ++ [replyTo m [0x15]] } })

/-! ### Requests that read -/

/-- IDENTIFY, READ STATE, READ SUMMARY, READ ZONES, READ FIXED, READ ALARMS, READ BREAK LOG; R120, R121, R129, R140, R159,
R174, R192, R199. Each answers from the state as it stands and changes nothing else; READ STATE also sets the port's
lost-notice count to 0. -/
def Obligations.TablesAreRead : Prop :=
  ∀ (s : State) (p : Port) (m : InMsg),
    let part (i n : Nat) : List Byte := [0, BitVec.ofNat 8 i, BitVec.ofNat 8 n]
    (waits s p m 1 → m.kind = 1 → m.payload = [] → exec (.identify p .whole) s =
      .next (answered s p m [[0x00, 0x02, 0xD0, 0x42, match p with | .quality => 0 | .machine => 1 | .actuator => 2]])) ∧
    (waits s p m 2 → m.kind = 2 → m.payload = [] → exec (.readState p .whole) s =
      .next { s with ports := s.ports.set p { s.ports.get p with
        inbound := (s.ports.get p).inbound.tail
        outbound := (s.ports.get p).outbound ++
          [replyTo m (part 1 2 ++ statePart1 s), replyTo m (part 2 2 ++ statePart2 s p)]
        lost := 0 } }) ∧
    (waits s p m 1 → m.kind = 4 →
      (∀ n3 n2 n1 n0 g, m.payload = [0, n3, n2, n1, n0] → s.pen.lastScan = some g.scan → inSlot s.pen g →
        exec (.readSummary p .whole) s = .next (answered s p m [[0] ++ summaryBody g])) ∧
      (∀ g, m.payload = [1] ++ bytesBE 4 g.scan.toNat → inSlot s.pen g →
        exec (.readSummary p .whole) s = .next (answered s p m [[0] ++ summaryBody g])) ∧
      (∀ n : ScanNo, m.payload = [1] ++ bytesBE 4 n.toNat →
        (∀ (i : Fin 3) (g : Generation), s.pen.slots[i] = some g → g.scan ≠ n) →
        exec (.readSummary p .whole) s = .next (answered s p m [[0x17]])) ∧
      (∀ c n3 n2 n1 n0 : Byte, m.payload = [c, n3, n2, n1, n0] → 2 ≤ c.toNat →
        exec (.readSummary p .whole) s = .next (answered s p m [[0x12]]))) ∧
    (waits s p m 4 → m.kind = 5 →
      ∀ (name : MapName) (side : ZoneSide), (name = .a ∧ m.payload = [0] ∧ side = s.azm.a) ∨
          (name = .b ∧ m.payload = [1] ∧ side = s.azm.b) →
        (side.active = none → exec (.readZones p .whole) s = .next (answered s p m [[0x17]])) ∧
        (∀ z, side.active = some z → z.zones.length ≤ 96 →
          let n := max 1 ((z.zones.length + 23) / 24)
          exec (.readZones p .whole) s = .next (answered s p m
            ((List.range n).map (fun i => part (i + 1) n ++ zonesPart name z side (24 * i)))))) ∧
    (waits s p m 4 → m.kind = 5 → ∀ c : Byte, m.payload = [c] → 2 ≤ c.toNat →
      exec (.readZones p .whole) s = .next (answered s p m [[0x12]])) ∧
    (waits s p m 1 → m.kind = 6 → m.payload = [] →
      (s.pen.fixedRec = none → exec (.readFixed p .whole) s = .next (answered s p m [[0x17]])) ∧
      (∀ r, s.pen.fixedRec = some r → exec (.readFixed p .whole) s = .next (answered s p m
        [[0] ++ posBytes (some r.position) ++ bytesBE 4 r.cycle.toNat ++ optBytes4 r.avgs.bw ++ optBytes4 r.avgs.moi ++
          optBytes4 r.avgs.cal ++ optBytes4 r.avgs.dry]))) ∧
    (waits s p m 2 → m.kind = 7 → m.payload = [] →
      let head := bytesBE 1 s.alt.floor ++ bytesBE 1 s.rbs.common.ceiling
      let entry := alarmEntry s.rbs.common.levels s.alt
      exec (.readAlarms p .whole) s = .next (answered s p m
        [part 1 2 ++ head ++ ((List.finRange 30).take 15).flatMap entry,
         part 2 2 ++ head ++ ((List.finRange 30).drop 15).flatMap entry])) ∧
    (waits s p m 3 → m.kind = 8 → m.payload = [] → s.msm.log.length ≤ 8 →
      let n := max 1 ((s.msm.log.length + 2) / 3)
      exec (.readBreakLog p .whole) s = .next (answered s p m
        ((List.range n).map (fun i => part (i + 1) n ++ bytesBE 1 s.msm.log.length ++
          ((s.msm.log.drop (3 * i)).take 3).flatMap breakEntry))))

/-- READ PROFILE; R119, R120, R200. An accepted READ PROFILE pins its generation and starts the stream; the checks that
refuse one come in R200's order; that the code of the generation selector is checked with the other field values, before BUSY
and NO-SUCH, is the model's reading (log entry 27). -/
def Obligations.ReadProfileStartsAStream : Prop :=
  ∀ (s : State) (p : Port) (m : InMsg), waits s p m 1 → m.kind = 3 →
    let ps := s.ports.get p
    (∀ q f e sh se : Byte, ∀ rest, m.payload = [q, f, e, sh, se] ++ rest → rest.length = 8 →
      (3 < q.toNat ∨ 4 < f.toNat ∨ 2 < e.toNat ∨ 7 < sh.toNat ∨ 1 < se.toNat) →
      exec (.readProfile p .whole) s = .next (answered s p m [[0x12]])) ∧
    ∀ (q : Prop4) (f : Form) (e : Encoding) (shift first last : Nat) (latest : Bool) (scan : ScanNo), shift ≤ 7 →
      first < 65536 → last < 65536 →
      m.payload = [BitVec.ofNat 8 (propCode q), BitVec.ofNat 8 (formCode f), BitVec.ofNat 8 (encCode e),
        BitVec.ofNat 8 shift, if latest then 0 else 1] ++ bytesBE 4 scan.toNat ++ bytesBE 2 first ++ bytesBE 2 last →
      (ps.stream ≠ .idle → exec (.readProfile p .whole) s = .next (answered s p m [[0x14]])) ∧
      (ps.stream = .idle →
        ((if latest then s.pen.lastScan = none
          else ∀ (i : Fin 3) (g : Generation), s.pen.slots[i] = some g → g.scan ≠ scan) →
          exec (.readProfile p .whole) s = .next (answered s p m [[0x17]])) ∧
        ∀ g : Generation, inSlot s.pen g → (if latest then s.pen.lastScan = some g.scan else g.scan = scan) →
          ((∀ n, g.map.n = some n → n ≤ first ∨ last < first) →
            exec (.readProfile p .whole) s = .next (answered s p m [[0x12]])) ∧
          ∀ n, g.map.n = some n → first < n → first ≤ last →
            let stop := min last (n - 1)
            let perChunk := match f, e with
              | .status, _ => 120
              | _, .wide => 60
              | _, .narrow => 120
              | _, .coarse => 240
            let chunks := (stop + 1 - first + perChunk - 1) / perChunk
            exec (.readProfile p .whole) s = .next { s with
              pen := { s.pen with pins := s.pen.pins.set p (some g.scan) }
              ports := s.ports.set p { ps with
                inbound := ps.inbound.tail
                outbound := ps.outbound ++ [replyTo m ([0] ++ bytesBE 4 g.scan.toNat ++ bytesBE 2 first ++
                  bytesBE 2 stop ++ bytesBE 1 chunks)]
                stream := .running ⟨m.tag, g.scan, q, f, e, shift, first, stop⟩ } })

/-! ### Requests that write -/

/-- WRITE BANK, SET DESCRIPTOR; R81, R82, R191, R204. The record a request carries, laid out as R191 gives, is the record
stored, every field of it; a record out of range, a bank in use and an unknown index store nothing. That the fields a
descriptor form does not use are stored as zero is the model's choice (log entry 19). -/
def Obligations.BanksAndDescriptorsAreStored : Prop :=
  ∀ (s : State) (p : Port) (m : InMsg), waits s p m 1 →
    let ps := s.ports.get p
    (∀ (k : BankNo) (b : GradeBank), p = .quality → m.kind = 9 → m.payload = bankBytes k b →
      b.betaTable.length ≤ 16 → b.irwTable.length ≤ 16 →
      let inUse := s.rbs.active = some k ∨ ∃ q, s.rbs.pending = some (k, q)
      (inUse → exec (.writeBank p .whole) s = .next (answered s p m [[0x13]])) ∧
      (¬inUse → bankOk b = true → bankFits b → exec (.writeBank p .whole) s = .next { answered s p m [[0x00]] with
        rbs := { s.rbs with banks := s.rbs.banks.set k (some b) } }) ∧
      (¬inUse → bankFits b → b.tolerance < 65536 → b.n < 65536 → b.width < 2 ^ 32 →
        (b.width < 1000 ∨ 120000 < b.width ∨ b.n < 16 ∨ 600 < b.n ∨ b.tolerance < 10 ∨ 5000 < b.tolerance) →
        exec (.writeBank p .whole) s = .next (answered s p m [[0x12]]))) ∧
    (m.kind = 25 → ∀ (i : Fin 4) (active : Bool) (remaining : Nat), remaining < 256 →
      let head (form : Byte) : List Byte := [BitVec.ofNat 8 i.val, if active then 1 else 0, form]
      let store (d : Descriptor) : PerPort PortState := s.ports.set p { ps with
        inbound := ps.inbound.tail
        outbound := ps.outbound ++ [replyTo m [0x00]]
        descriptors := ps.descriptors.set i d }
      (∀ (form : DescForm) (unused : List Byte), form ≠ .profile → unused.length = 8 →
        m.payload = head (match form with | .summary => 0 | .zoneA => 1 | .zoneB => 2 | .profile => 3) ++ unused ++
          [BitVec.ofNat 8 remaining] →
        exec (.setDescriptor p .whole) s = .next { s with
          ports := store ⟨active, form, .bw, .raw, .wide, 0, 0, 0, remaining, 0⟩ }) ∧
      (∀ (q : Prop4) (f : Form) (e : Encoding) (shift first last : Nat), shift ≤ 7 → first < 65536 → last < 65536 →
        m.payload = head 3 ++ [BitVec.ofNat 8 (propCode q), BitVec.ofNat 8 (formCode f), BitVec.ofNat 8 (encCode e),
          BitVec.ofNat 8 shift] ++ bytesBE 2 first ++ bytesBE 2 last ++ [BitVec.ofNat 8 remaining] →
        let most := match f, e with
          | .status, _ => 119
          | _, .wide => 59
          | _, .narrow => 119
          | _, .coarse => 238
        (first ≤ last → last + 1 - first ≤ most → exec (.setDescriptor p .whole) s = .next { s with
          ports := store ⟨active, .profile, q, f, e, shift, first, last, remaining, 0⟩ }) ∧
        ((last < first ∨ most < last + 1 - first) →
          exec (.setDescriptor p .whole) s = .next (answered s p m [[0x12]])))) ∧
    (m.kind = 25 → ∀ (c : Byte) (rest : List Byte), m.payload = c :: rest → rest.length = 11 → 4 ≤ c.toNat →
      exec (.setDescriptor p .whole) s = .next (answered s p m [[0x12]]))

/-- WRITE ZONE MAP; R131, R132, R191. A part whose spans follow the parts before it joins them, and the part that completes
the count stages the map; a part that does not drops the assembly. -/
def Obligations.ZoneMapPartsAreAssembled : Prop :=
  ∀ (s : State) (m : InMsg) (name : MapName) (q : Prop4) (count : Nat) (before zs : List Zone),
    let p : Port := .actuator
    let side := match name with | .a => s.azm.a | .b => s.azm.b
    let left (z : ZoneSide) (rc : Byte) : State := { answered s p m [[rc]] with
      azm := match name with | .a => { s.azm with a := z } | .b => { s.azm with b := z } }
    waits s p m 1 → m.kind = 12 → 1 ≤ zs.length → zs.length ≤ 60 → 1 ≤ count → count ≤ 96 → before.length < 96 →
    (∀ z ∈ zs, z.a < 65536 ∧ 1 ≤ z.b ∧ z.b ≤ 65536) →
    m.payload = [match name with | .a => 0 | .b => 1, BitVec.ofNat 8 (propCode q), BitVec.ofNat 8 count,
      BitVec.ofNat 8 before.length] ++ zs.flatMap (fun z => bytesBE 2 z.a ++ bytesBE 2 (z.b - 1)) →
    (before = [] ∨ side.assembly = some ⟨q, count, before⟩) →
    (spansOrdered before.getLast? zs = true →
      (before.length + zs.length < count → exec (.writeZoneMap p .whole) s =
        .next (left { side with assembly := some ⟨q, count, before ++ zs⟩ } 0x00)) ∧
      (before.length + zs.length = count → exec (.writeZoneMap p .whole) s =
        .next (left { side with assembly := none, staged := some ⟨q, before ++ zs⟩ } 0x01))) ∧
    ((spansOrdered before.getLast? zs = false ∨ count < before.length + zs.length) →
      exec (.writeZoneMap p .whole) s = .next (left { side with assembly := none } 0x12))

/-- WRITE COMMON; R56, R78, R79, R80, R143, R144, R149, R150, R153, R173, R197. An accepted write stores its entries and is
answered OK. A silent time makes silent the ports whose timers stand at it or above, and the overdue time stands at once
against the due age. A write of positions, speeds, mask, drift tolerances or sheet-lost run has no other effect at once; one
of levels and the ceiling recomputes the floor and runs the annunciation pass; one of the crawl speed compares it with the
machine speed; one of line enables and polarities changes the lines' readings. That the park and standardize positions a write
does not name are checked too is the model's reading (log entry 18), and so is that the writing port's own timer counts like
any other (log entry 28). -/
def Obligations.CommonBankIsWritten : Prop :=
  ∀ (s : State) (p : Port) (m : InMsg) (es : List (Nat × Nat)), waits s p m 1 → m.kind = 10 → p ≠ .actuator →
    s.cta.holder = some p → es.length ≤ 62 → (∀ e ∈ es, e.1 < 256 ∧ e.2 < 2 ^ 24) →
    m.payload = bytesBE 1 es.length ++ es.flatMap (fun e => bytesBE 1 e.1 ++ bytesBE 3 e.2) →
    let atRest := s.cmu.state ∈ [CarriageState.parked, .unhomed, .fault]
    let b := writeEntries s.rbs.common es
    let ok := (es.map Prod.fst).Nodup ∧ (∀ e ∈ es, commonFieldOk b.pMax e.1 e.2 = true) ∧ b.parkPos ≤ b.pMax ∧
      b.stdPos ≤ b.pMax ∧ (s.cmu.homed = true → -500 ≤ s.cmu.position ∧ s.cmu.position ≤ (b.pMax : Int) + 500)
    (¬atRest → exec (.writeCommon p .whole) s = .next (answered s p m [[0x15]])) ∧
    (atRest → ¬ok → exec (.writeCommon p .whole) s = .next (answered s p m [[0x12]])) ∧
    (atRest → ok →
      (∃ t, exec (.writeCommon p .whole) s = .next t ∧ repliedWith t p m 0x00 ∧ t.rbs.common = b ∧
        t.rbs.banks = s.rbs.banks ∧ t.hbc = s.hbc ∧ t.scv = s.scv ∧ t.cmu.position = s.cmu.position ∧
        t.pen.slots = s.pen.slots ∧
        (∀ q,
          let ps := s.ports.get q
          let timedOut := 41 ∈ es.map Prod.fst ∧ b.silentTime ≠ 0 ∧ ps.silent = false ∧ b.silentTime * 2000 ≤ ps.silentTimer
          (¬timedOut → (t.ports.get q).silent = ps.silent) ∧
          (timedOut → (t.ports.get q).silent = true ∧ (t.ports.get q).stream = .idle ∧ t.pen.pins.get q = none ∧
            (waitingOk s.cta → t.cta.holder ≠ some q ∧ q ∉ t.cta.waiting) ∧ alarmActive t (ptPortSilent q) ∧
            (q ≠ p → (t.ports.get q).inbound = [] ∧ (t.ports.get q).outbound = []))) ∧
        t.osq.overdue = (s.osq.due && decide (60 * b.overdueTime < dueSeconds s.osq)) ∧
        (s.osq.overdue = false → t.osq.overdue = true → alarmActive t ptOverdue) ∧
        (s.osq.overdue = true → t.osq.overdue = false →
          (t.alt.points[ptOverdue]).state ∈ [PointState.normal, .returnUnack])) ∧
      (isOverdue s = s.osq.overdue →
        let only (codes : List Nat) := ∀ e ∈ es, e.1 ∈ codes
        let stored : State := { answered s p m [[0x00]] with rbs := { s.rbs with common := b } }
        let st := s.msm.state
        (driveSettled s → only [0, 1, 2, 3, 4, 6, 7, 8, 9, 51] → exec (.writeCommon p .whole) s = .next stored) ∧
        ((∀ e ∈ es, 10 ≤ e.1 ∧ e.1 ≤ 40) → driveSettled s → ∃ t, exec (.writeCommon p .whole) s = .next t ∧
          t.cmu = s.cmu ∧ t.msm = s.msm ∧ t.osq = s.osq ∧
          (∀ i : PointNo, (t.alt.points[i]).state = (s.alt.points[i]).state ∧
            (t.alt.points[i]).suppressed = (s.alt.points[i]).suppressed ∧
            (t.alt.points[i]).count = (s.alt.points[i]).count ∧
            ((s.alt.points[i]).annunciated = true → (t.alt.points[i]).annunciated = true)) ∧
          ((b.levels ≠ s.rbs.common.levels ∨ b.ceiling ≠ s.rbs.common.ceiling) → floorOk t ∧
            ∀ i ∈ s.alt.order, (t.alt.points[i]).state = .activeUnack → (t.alt.points[i]).annunciated = false →
              (t.alt.points[i]).suppressed = false → levelOf b.levels i ≤ 6 → t.alt.floor ≤ levelOf b.levels i)) ∧
        (only [5] →
          let below := s.msm.speed < b.crawl
          ((b.crawl = s.rbs.common.crawl ∨ (st = .down ↔ below)) → driveSettled s →
            exec (.writeCommon p .whole) s = .next stored) ∧
          (b.crawl ≠ s.rbs.common.crawl → st ≠ .down → below → ∃ t, exec (.writeCommon p .whole) s = .next t ∧
            t.msm.state = .down ∧ t.msm.source = true ∧ t.msm.log = s.msm.log ∧
            (t.alt.points[ptBreak]).state ∈ [PointState.normal, .returnUnack]) ∧
          (b.crawl ≠ s.rbs.common.crawl → st = .down → ¬below → ∃ t, exec (.writeCommon p .whole) s = .next t ∧
            (t.alt.points[ptBreak]).state = .activeUnack ∧
            t.msm.state = if lineCondition b s.msm then .thread else .brk)) ∧
        (only [43, 44, 45, 46, 47, 48, 49, 50] →
          let turned (l : BreakLine) := lineReading b s.msm l = .absent ∧ lineReading s.rbs.common s.msm l ≠ .absent
          let changed := b.lineEnable ≠ s.rbs.common.lineEnable ∨ b.lineLow ≠ s.rbs.common.lineLow
          let present := st = .brk ∧ changed ∧ lineCondition b s.msm = true
          ((st = .down ∨ ((∀ l, ¬turned l) ∧ ¬present)) → driveSettled s →
            exec (.writeCommon p .whole) s = .next stored) ∧
          (∀ l, st ∈ [MachineState.run, .thread] → turned l → (∀ k, turned k → k = l) →
            ∃ t, exec (.writeCommon p .whole) s = .next t ∧ breakEntered s t (.line l) s.cmu.position s.hbc.cycle) ∧
          ((∀ l, ¬turned l) → present → ∃ t, exec (.writeCommon p .whole) s = .next t ∧ t.msm.state = .thread ∧
            t.msm.source = false ∧ t.msm.nextBreak = s.msm.nextBreak))))

/-- SELECT GRADE; R84, R85, R87, R196. That a GRADE notice to a SILENT port is lost without a count, as R196 says, where R85 has
its loss counted as the ports chapter gives, is the model's reading (log entry 34). -/
def Obligations.GradesAreSelected : Prop :=
  ∀ (s : State) (p : Port) (m : InMsg), waits s p m 1 → m.kind = 11 → p ≠ .actuator →
    (∀ c : Byte, m.payload = [c] → (c = 0 ∨ 8 ≤ c.toNat) →
      exec (.selectGrade p .whole) s = .next (answered s p m [[0x12]])) ∧
    ∀ k : BankNo, m.payload = [BitVec.ofNat 8 (k.val + 1)] →
      let stands := s.cmu.state ∈ [CarriageState.parked, .fixed, .unhomed, .fault] ∨
        (s.cmu.state = .held ∧ s.cmu.turnOwed = true)
      let told (t : State) (q : Port) : Prop :=
        let occupied := (s.ports.get q).outbound.length + (s.ports.get q).reserved
        ((s.ports.get q).silent = false → occupied < 32 → (t.ports.get q).outbound = (s.ports.get q).outbound ++
          [⟨.notice, 0x44, 0, [BitVec.ofNat 8 (k.val + 1), BitVec.ofNat 8 (portCode p)]⟩]) ∧
        let more : PortState := { s.ports.get q with lost := min 65535 ((s.ports.get q).lost + 1) }
        ((s.ports.get q).silent = false → 32 ≤ occupied → t.ports.get q = more) ∧
        ((s.ports.get q).silent = true → t.ports.get q = s.ports.get q)
      (s.rbs.banks[k] = none → exec (.selectGrade p .whole) s = .next (answered s p m [[0x17]])) ∧
      ∀ b : GradeBank, s.rbs.banks[k] = some b →
        (s.rbs.active = some k → s.rbs.pending = none →
          exec (.selectGrade p .whole) s = .next (answered s p m [[0x00]])) ∧
        (∀ j q, s.rbs.active = some k → s.rbs.pending = some (j, q) → q ≠ p →
          ∃ t, exec (.selectGrade p .whole) s = .next t ∧ repliedWith t p m 0x00 ∧
            t.rbs = { s.rbs with pending := none } ∧ told t q) ∧
        (s.rbs.active ≠ some k → (s.rbs.active = none ∨ stands) →
          ∃ t, exec (.selectGrade p .whole) s = .next t ∧ repliedWith t p m 0x00 ∧
            t.rbs = { s.rbs with active := some k, settle := b.settle } ∧
            (∀ old, s.rbs.activeBank = some old → old.n = b.n → t.pen.filter = s.pen.filter) ∧
            ((∀ old, s.rbs.activeBank = some old → old.n ≠ b.n) →
              t.pen.filter = ⟨some b.n, PerProp.const (List.replicate b.n none)⟩) ∧
            (∀ i : PointNo, 9 ≤ i.val → i.val ≤ 20 → (t.alt.points[i]).state ∈ [PointState.normal, .returnUnack]) ∧
            t.pen.carry = s.pen.carry ∧ t.pen.slots = s.pen.slots ∧ t.cmu = s.cmu ∧ t.hbc = s.hbc) ∧
        (∀ old, s.rbs.active = some old → old ≠ k → ¬stands →
          ((s.rbs.pending = none ∨ s.rbs.pending = some (k, p)) →
            exec (.selectGrade p .whole) s = .next { answered s p m [[0x01]] with
              rbs := { s.rbs with pending := some (k, p) } }) ∧
          (∀ j q, s.rbs.pending = some (j, q) → q ≠ p →
            ∃ t, exec (.selectGrade p .whole) s = .next t ∧ repliedWith t p m 0x01 ∧
              t.rbs = { s.rbs with pending := some (k, p) } ∧ told t q))

/-! ### The token and the carriage's requests -/

/-- CLAIM, RELEASE; R176, R177, R178, R193. -/
def Obligations.TheTokenIsClaimedAndReleased : Prop :=
  ∀ (s : State) (p : Port) (m : InMsg), waits s p m 1 → m.payload = [] →
    let w := s.cta.waiting
    let unowed : Cmu := { s.cmu with hold := match s.cmu.hold with | .owed _ => .none | h => h }
    (m.kind = 13 →
      (s.cta.holder = none → exec (.claim p .whole) s = .next { answered s p m [[0x00]] with
        cta := { s.cta with holder := some p } }) ∧
      (s.cta.holder = some p → exec (.claim p .whole) s = .next (answered s p m [[0x00]])) ∧
      (∀ q, s.cta.holder = some q → q ≠ p → exec (.claim p .whole) s = .next { answered s p m [[0x01]] with
        cta := { s.cta with waiting := if p ∈ w then w else if p = .machine then p :: w else w ++ [p] } })) ∧
    (m.kind = 14 →
      (s.cta.holder = some p → w = [] → exec (.release p .whole) s = .next { answered s p m [[0x00]] with
        cta := ⟨none, [], none⟩, cmu := unowed }) ∧
      (∀ n rest, s.cta.holder = some p → w = n :: rest → n ≠ p →
        ∃ t, exec (.release p .whole) s = .next t ∧ repliedWith t p m 0x00 ∧ t.cta = ⟨some n, rest, none⟩ ∧
          t.cmu = unowed ∧
          ((s.ports.get n).silent = false → (s.ports.get n).outbound.length + (s.ports.get n).reserved < 32 →
            (t.ports.get n).outbound = (s.ports.get n).outbound ++
              [⟨.notice, 0x43, 0, [BitVec.ofNat 8 (portCode n), BitVec.ofNat 8 (portCode p), 0,
                BitVec.ofNat 8 rest.length] ++ rest.map (fun r => BitVec.ofNat 8 (portCode r))⟩])) ∧
      (s.cta.holder ≠ some p → p ∈ w → exec (.release p .whole) s = .next { answered s p m [[0x00]] with
        cta := { s.cta with waiting := w.erase p } }) ∧
      (s.cta.holder ≠ some p → p ∉ w → exec (.release p .whole) s = .next (answered s p m [[0x11]])))

/-- SET PLAN; R13, R14, R15, R23, R47, R181, R182, R183, R191. A plan made active at once sends a carriage PARKED, FIXED or HELD
where R23 says, a due standardization first. -/
def Obligations.PlansAreStagedOrApplied : Prop :=
  ∀ (s : State) (p : Port) (m : InMsg) (asked : ScanPlan), waits s p m 1 → m.kind = 15 → s.cta.holder = some p →
    planFits asked → m.payload = planBytes asked →
    let stored : ScanPlan :=
      { asked with speed := min asked.speed s.rbs.common.maxSpeed, fixedPos := min asked.fixedPos s.rbs.common.pMax }
    let atOnce := s.cmu.state ∈ [CarriageState.unhomed, .parked, .fixed, .held]
    let due := s.osq.due || (decide (stored.interval ≠ 0) && decide (stored.interval ≤ s.osq.scanCount))
    (¬planInRange asked → exec (.setPlan p .whole) s = .next (answered s p m [[0x12]])) ∧
    (planInRange asked → ¬atOnce → driveSettled s → s.cmu.overrideUntaken = false →
      exec (.setPlan p .whole) s = .next
        { answered s p m [[if stored = asked then 0x01 else 0x02, 0x01] ++ planBytes stored] with
          cta := { s.cta with pending := some stored } }) ∧
    (planInRange asked → s.cmu.state = .unhomed → driveSettled s → s.cmu.overrideUntaken = false →
      exec (.setPlan p .whole) s = .next
        { answered s p m [[if stored = asked then 0x00 else 0x02, 0x00] ++ planBytes stored] with
          cta := { s.cta with pending := none }
          cmu := { s.cmu with plan := stored }
          osq := { s.osq with due := due, dueAge := if due && !s.osq.due then 0 else s.osq.dueAge } }) ∧
    (planInRange asked → atOnce → s.cmu.overrideUntaken = false →
      ∃ t, exec (.setPlan p .whole) s = .next t ∧ repliedWith t p m (if stored = asked then 0x00 else 0x02) ∧
        t.cmu.plan = stored ∧ t.cta = { s.cta with pending := none } ∧ t.osq.due = due ∧ t.hbc = s.hbc ∧ t.msm = s.msm ∧
        let st := s.cmu.state
        let pos := s.cmu.position
        let takes := due = true ∧ s.osq.step = .idle
        let stays := t.cmu = { s.cmu with plan := stored } ∧ t.pen = s.pen ∧ t.ebm = s.ebm
        let sent :=
          (stored.mode = .park → t.cmu.state =
            if st = .parked ∨ pos = s.rbs.common.parkPos then .parked else .toPark) ∧
          (stored.mode = .fixed → t.cmu.state = if pos = stored.fixedPos then .fixed else .toFixed) ∧
          (stored.mode = .scan → t.cmu.state ∈ [CarriageState.toLimit, .turning] ∧
            (t.cmu.limF, t.cmu.limB) = limitsOf t)
        (takes → (st ∈ [CarriageState.parked, .held] ∨ (st = .fixed ∧ s.osq.requested = true)) →
          t.cmu.state = (if pos = s.rbs.common.stdPos then .atStd else .toStd) ∧
          t.osq.step = (if pos = s.rbs.common.stdPos then .settle else .travel)) ∧
        (¬takes → st = .parked → s.override = true → stays) ∧
        (¬(takes ∧ s.osq.requested = true) → st = .fixed → stored.mode = .fixed →
          stored.fixedPos = s.cmu.plan.fixedPos → stays) ∧
        (¬takes → s.override = false →
          (st = .parked → sent) ∧
          (st = .fixed → ¬(stored.mode = .fixed ∧ stored.fixedPos = s.cmu.plan.fixedPos) → sent) ∧
          (st = .held → (if stored.mode = .scan then stays else sent ∧ t.cmu.turnOwed = false ∧
            (s.cmu.turnOwed = false → t.pen.window = none ∧ t.cmu.retraverseOwed = true)))))

/-- HOLD, STEP, RESUME; R18, R19, R180. The stop of a HOLD is the first boundary at the braking distance B or more, the stop
of a STEP the first strictly ahead, each before the compare target, and there is none exactly when no boundary is there.
That b_0 and b_N are boundaries to stop at and that a command point already reached stops the carriage in the same event are
the model's reading (log entry 17), and so is the turnaround at a limit whatever the plan's mode (log entry 26). -/
def Obligations.HoldStepAndResume : Prop :=
  (∀ m : BinMap, crossings .fwd (some m) = boundaries m ∧
    crossings .rev (some m) = (boundaries m).reverse.map (fun b => b - 1) ∧ ∀ d, crossings d none = []) ∧
  ∀ (s : State) (p : Port) (m : InMsg),
    let c := s.cmu
    let v := min c.plan.speed s.rbs.common.maxSpeed
    let brake : Int := ((v + 1) / 2 : Nat)
    let armed := ∃ x, c.hold = .armed x
    let points := crossings c.direction s.ebm.map
    let mayStop (least : Int) (b : Int) := least ≤ ahead c.direction c.position b ∧
      ∀ target, c.compareTarget = some target → reached c.direction b target = false
    let first (least : Int) (b : Int) := ∃ i : Nat, points[i]? = some b ∧ mayStop least b ∧
      ∀ j a, j < i → points[j]? = some a → ¬mayStop least a
    let beyond := ∃ target, c.compareTarget = some target ∧ reached c.direction c.position target = true
    ((∀ x, holdStop s = some x ↔ first brake x.boundary ∧ x.command = shortOf c.direction x.boundary brake) ∧
      (holdStop s = none ↔ ∀ b ∈ points, ¬mayStop brake b) ∧
      (∀ x, stepStop s = some x ↔ first 1 x.boundary ∧ x.command = shortOf c.direction x.boundary
        (min brake (ahead c.direction c.position x.boundary / 2))) ∧
      (stepStop s = none ↔ ∀ b ∈ points, ¬mayStop 1 b)) ∧
    (waits s p m 1 → m.payload = [] → s.cta.holder = some p → driveSettled s → c.overrideUntaken = false →
      (m.kind = 16 →
        (c.state ∈ [CarriageState.toStd, .atStd] → exec (.hold p .whole) s =
          .next { answered s p m [[0x01]] with cmu := { c with hold := .owed .hold } }) ∧
        (c.state = .traverse → armed → exec (.hold p .whole) s = .next (answered s p m [[0x00]])) ∧
        (c.state = .traverse → ¬armed →
          ((∀ x, holdStop s = some x → reached c.direction c.position x.command = false) →
            exec (.hold p .whole) s =
              .next { answered s p m [[0x00]] with cmu := { c with hold := .armed (holdStop s) } }) ∧
          (∀ x, holdStop s = some x → reached c.direction c.position x.command = true →
            (s.osq.due = false ∨ s.osq.step ≠ .idle) →
            ∃ t, exec (.hold p .whole) s = .next t ∧ repliedWith t p m 0x00 ∧
              t.cmu = { c with state := .held, hold := .none, turnOwed := false } ∧ t.drive.wanted = 0 ∧
              t.pen = s.pen ∧ t.ebm = s.ebm)) ∧
        (c.state ∉ [CarriageState.toStd, .atStd, .traverse] →
          exec (.hold p .whole) s = .next (answered s p m [[0x15]]))) ∧
      (m.kind = 17 →
        (c.state = .held → c.turnOwed = false → ¬beyond →
          ∃ t, exec (.step p .whole) s = .next t ∧ repliedWith t p m 0x00 ∧
            t.cmu = { c with state := .traverse, hold := .armed (stepStop s) } ∧
            t.drive.wanted = dirSign c.direction * v ∧ t.pen = s.pen ∧ t.ebm = s.ebm) ∧
        (c.state = .held → c.turnOwed = true →
          ∃ t, exec (.step p .whole) s = .next t ∧ repliedWith t p m 0x00 ∧
            t.cmu.state ∈ [CarriageState.turning, .toLimit] ∧ t.cmu.hold = .owed .step ∧ t.cmu.turnOwed = false ∧
            (t.cmu.limF, t.cmu.limB) = limitsOf s) ∧
        (c.state ≠ .held → exec (.step p .whole) s = .next (answered s p m [[0x15]]))) ∧
      (m.kind = 18 →
        (c.state = .held → c.turnOwed = false → ¬beyond →
          ∃ t, exec (.resume p .whole) s = .next t ∧ repliedWith t p m 0x00 ∧
            t.cmu = { c with state := .traverse, hold := .none } ∧ t.drive.wanted = dirSign c.direction * v ∧
            t.pen = s.pen ∧ t.ebm = s.ebm) ∧
        (c.state = .held → c.turnOwed = true →
          ∃ t, exec (.resume p .whole) s = .next t ∧ repliedWith t p m 0x00 ∧
            t.cmu.state ∈ [CarriageState.turning, .toLimit] ∧ t.cmu.hold = .none ∧ t.cmu.turnOwed = false ∧
            (t.cmu.limF, t.cmu.limB) = limitsOf s) ∧
        (c.state = .traverse → armed → exec (.resume p .whole) s =
          .next { answered s p m [[0x00]] with cmu := { c with hold := .none } }) ∧
        (c.state ≠ .held → (c.state ≠ .traverse ∨ ¬armed) →
          exec (.resume p .whole) s = .next (answered s p m [[0x15]]))) ∧
      (c.state = .held → c.turnOwed = false → beyond → s.pen.window ≠ none →
        ∀ row, (m.kind = 17 ∧ row = Instr.step p .whole) ∨ (m.kind = 18 ∧ row = Instr.resume p .whole) →
          ∃ t, exec row s = .next t ∧ repliedWith t p m 0x00 ∧ t.cmu.state ≠ .traverse ∧ t.pen.window = none ∧
            t.pen.counter = s.pen.counter + 1 ∧ t.pen.lastScan = some s.pen.counter))

/-- STANDARDIZE; R44, R46, R47, R180. The effect by step of the OSQ; that a STANDARDIZE with the requested flag already set
sets no renewal in the head steps is the model's reading (log entry 25). -/
def Obligations.StandardizeIsAcceptedByStep : Prop :=
  ∀ (s : State) (p : Port) (m : InMsg), waits s p m 1 → m.kind = 19 → m.payload = [] → s.cta.holder = some p →
    driveSettled s → s.cmu.overrideUntaken = false →
    let deferred := answered s p m [[0x01]]
    let stands := s.cmu.state ∈ [CarriageState.parked, .held, .fixed]
    (s.osq.requested = true → exec (.standardize p .whole) s = .next deferred) ∧
    (s.osq.requested = false →
      (s.osq.step ∈ [OsqStep.travel, .settle] → exec (.standardize p .whole) s =
        .next { deferred with osq := { s.osq with requested := true } }) ∧
      (s.osq.step ∈ [OsqStep.reference, .fetch, .commit] → exec (.standardize p .whole) s =
        .next { deferred with osq := { s.osq with renewal := some true } }) ∧
      (s.osq.step = .idle → ¬stands → exec (.standardize p .whole) s = .next { deferred with
        osq := { s.osq with requested := true, due := true, dueAge := if s.osq.due then s.osq.dueAge else 0 } }) ∧
      (s.osq.step = .idle → stands →
        ∃ t, exec (.standardize p .whole) s = .next t ∧ repliedWith t p m 0x01 ∧ t.osq.due = true ∧
          t.osq.requested = true ∧
          (s.cmu.position ≠ s.rbs.common.stdPos → t.osq.step = .travel ∧ t.cmu.state = .toStd ∧
            t.cmu.travelTarget = s.rbs.common.stdPos) ∧
          (s.cmu.position = s.rbs.common.stdPos → t.osq.step = .settle ∧ t.cmu.state = .atStd ∧ t.osq.settle = some 0)))

/-- FAULT CLEAR; R10, R11, R21, R180, R184. That the resume flag is read in the plan before the pending one is applied is the
model's reading (log entry 30). -/
def Obligations.FaultsAreCleared : Prop :=
  ∀ (s : State) (p : Port) (m : InMsg), waits s p m 1 → m.kind = 20 → m.payload = [] →
    (s.cta.holder = none ∨ s.cta.holder = some p) →
    ((s.cmu.state ≠ .fault ∨ s.cmu.drvflt.confirmed = some true) →
      exec (.faultClear p .whole) s = .next (answered s p m [[0x15]])) ∧
    (s.cmu.state = .fault → s.cmu.drvflt.confirmed ≠ some true →
      ∃ t, exec (.faultClear p .whole) s = .next t ∧ repliedWith t p m 0x00 ∧ t.cmu.faultCause = .none ∧
        t.cmu.motionFault = false ∧ t.cmu.skipCount = 0 ∧ t.cmu.homed = (s.cmu.homed || t.cmu.homed) ∧
        (t.alt.points[ptMotionFault]).state ∈ [PointState.normal, .returnUnack] ∧ t.hbc = s.hbc ∧ t.msm = s.msm ∧
        (s.cmu.homed = true → t.cmu.position = s.cmu.position ∧ t.cta.pending = none ∧
          (∀ plan, s.cta.pending = some plan → t.cmu.plan = plan) ∧
          (s.cta.pending = none → s.cmu.motionFault = true → t.cmu.plan = { s.cmu.plan with
            mode := if s.msm.source || s.cmu.parkSource || s.cmu.plan.resume then s.cmu.plan.mode else .park }) ∧
          t.cmu.state ∈ [CarriageState.toPark, .parked, .toLimit, .turning, .toFixed, .fixed, .toStd, .atStd]) ∧
        (s.cmu.homed = false → s.cmu.home.confirmed ≠ some true → t.cmu.state = .homing ∧ t.cmu.homed = false ∧
          t.drive.wanted = -(s.rbs.common.homeSpeed : Int)))

/-! ### The machine, the alarms and the restarts -/

/-- SPEED, DECLARE DOWN, DECLARE THREADING, DECLARE SHEET ON, DECLARE BREAK; R144, R145, R149, R152, R153, R155. That each of
the four DECLARE rows takes and refuses a message of an unlisted code is the model's reading (log entry 27). -/
def Obligations.SpeedAndDeclareChangeTheMachine : Prop :=
  ∀ (s : State) (m : InMsg) (o : OverrideOrder), waits s .machine m 1 →
    let p : Port := .machine
    let st := s.msm.state
    let accepted := answered s p m [[0x00]]
    let left (t : State) (new : MachineState) : Prop := repliedWith t p m 0x00 ∧ t.msm.state = new ∧
      t.msm.source = decide (new = .down ∨ new = .brk) ∧ t.msm.nextBreak = s.msm.nextBreak ∧ t.hbc = s.hbc
    let breakOver (t : State) : Prop := (t.alt.points[ptBreak]).state ∈ [PointState.normal, .returnUnack]
    (∀ v, m.kind = 21 → v < 65536 → m.payload = bytesBE 2 v →
      (3000 < v → exec (.speed p .whole o) s = .next (answered s p m [[0x12]])) ∧
      (v ≤ 3000 →
        (driveSettled s → (st = .down ↔ v < s.rbs.common.crawl) → exec (.speed p .whole o) s =
          .next { accepted with msm := { s.msm with speed := v } }) ∧
        (st ≠ .down → v < s.rbs.common.crawl → ∃ t, exec (.speed p .whole o) s = .next t ∧ left t .down ∧
          t.msm.speed = v ∧ t.msm.log = s.msm.log ∧ breakOver t) ∧
        (st = .down → s.rbs.common.crawl ≤ v →
          (lineCondition s.rbs.common s.msm = false → ∃ t, exec (.speed p .whole o) s = .next t ∧ left t .brk ∧
            t.msm.speed = v ∧ t.msm.log = s.msm.log ∧ (t.alt.points[ptBreak]).state = .activeUnack) ∧
          (lineCondition s.rbs.common s.msm = true → ∃ t, exec (.speed p .whole o) s = .next t ∧ left t .thread ∧
            t.msm.speed = v)))) ∧
    (m.kind = 22 →
      (m.payload = [0] →
        (st = .down → exec (.declareDown p .whole o) s = .next accepted) ∧
        (st ≠ .down → ∃ t, exec (.declareDown p .whole o) s = .next t ∧ left t .down ∧ t.msm.log = s.msm.log ∧
          t.msm.speed = s.msm.speed ∧ breakOver t)) ∧
      (m.payload = [1] →
        (st = .brk → ∃ t, exec (.declareThreading p .whole) s = .next t ∧ left t .thread) ∧
        (st = .thread → exec (.declareThreading p .whole) s = .next accepted) ∧
        (st ∈ [MachineState.down, .run] → exec (.declareThreading p .whole) s = .next (answered s p m [[0x15]]))) ∧
      (m.payload = [2] →
        (st ∈ [MachineState.brk, .thread] → ∃ t, exec (.declareSheetOn p .whole) s = .next t ∧ left t .run ∧
          breakOver t ∧ (∀ i : PointNo, (t.alt.points[i]).suppressed = false) ∧
          ∀ newest older, s.msm.log = newest :: older → newest.isOpen = true →
            t.msm.log = { newest with runAt := some s.pen.counter, isOpen := false } :: older) ∧
        (st = .run → exec (.declareSheetOn p .whole) s = .next accepted) ∧
        (st = .down → exec (.declareSheetOn p .whole) s = .next (answered s p m [[0x15]]))) ∧
      (m.payload = [3] →
        (st ∈ [MachineState.run, .thread] → ∃ t, exec (.declareBreak p .whole o) s = .next t ∧
          repliedWith t p m 0x00 ∧ breakEntered s t .declare s.cmu.position s.hbc.cycle) ∧
        (∀ newest older, driveSettled s → st = .brk → s.msm.log = newest :: older → newest.isOpen = false →
          exec (.declareBreak p .whole o) s = .next accepted) ∧
        (st = .down → exec (.declareBreak p .whole o) s = .next (answered s p m [[0x15]]))) ∧
      ∀ c : Byte, m.payload = [c] → 4 ≤ c.toNat → ∀ row ∈ [(Instr.declareDown · · o), .declareThreading,
        .declareSheetOn, (.declareBreak · · o)], exec (row p .whole) s = .next (answered s p m [[0x12]]))

/-- PARK set and clear; R20, R21, R191. That both PARK rows take and refuse a message of an unlisted code is the model's
reading (log entry 27), and that PARK takes an override still untaken, and leaves none, its choice (log entry 7). -/
def Obligations.ParkMovesAndFreesTheCarriage : Prop :=
  ∀ (s : State) (m : InMsg), waits s .machine m 1 → m.kind = 23 →
    let p : Port := .machine
    let accepted := answered s p m [[0x00]]
    let others := s.msm.source || s.cmu.motionFault
    (m.payload = [1] →
      (s.cmu.state ∈ [CarriageState.traverse, .turning, .toLimit, .toFixed, .fixed, .held] →
        ∃ t, exec (.parkSet p .whole) s = .next t ∧ repliedWith t p m 0x00 ∧ t.cmu.parkSource = true ∧
          t.cmu.hold = .none ∧ t.cmu.state ∈ [CarriageState.toPark, .parked, .toStd, .atStd] ∧
          (s.cmu.inTraverse = true → t.pen.window = none ∧ t.cmu.retraverseOwed = true) ∧ t.msm = s.msm) ∧
      (s.cmu.state ∉ [CarriageState.traverse, .turning, .toLimit, .toFixed, .fixed, .held] → driveSettled s →
        exec (.parkSet p .whole) s =
          .next { accepted with cmu := { s.cmu with parkSource := true, overrideWait := 0 } })) ∧
    (m.payload = [0] → s.cmu.overrideUntaken = false → driveSettled s →
      ((others = true ∨ s.cmu.parkSource = false) →
        exec (.parkClear p .whole) s = .next { accepted with cmu := { s.cmu with parkSource := false } }) ∧
      (others = false → s.cmu.parkSource = true →
        let plan := { s.cmu.plan with mode := if s.cmu.plan.resume then s.cmu.plan.mode else .park }
        (s.cmu.state ≠ .parked → exec (.parkClear p .whole) s =
          .next { accepted with cmu := { s.cmu with parkSource := false, plan := plan } }) ∧
        (s.cmu.state = .parked → (s.osq.due = false ∨ s.osq.step ≠ .idle) → plan.mode = .park →
          exec (.parkClear p .whole) s =
            .next { accepted with cmu := { s.cmu with parkSource := false, plan := plan } }) ∧
        (s.cmu.state = .parked → (s.osq.due = false ∨ s.osq.step ≠ .idle) → plan.mode = .scan →
          ∃ t, exec (.parkClear p .whole) s = .next t ∧ repliedWith t p m 0x00 ∧ t.cmu.parkSource = false ∧
            t.cmu.plan = plan ∧ t.cmu.state ∈ [CarriageState.toLimit, .turning]))) ∧
    ∀ c : Byte, m.payload = [c] → 2 ≤ c.toNat → ∀ row ∈ [Instr.parkSet, .parkClear],
      exec (row p .whole) s = .next (answered s p m [[0x12]])

/-- ACK ALARM; R158, R170, R171. That the ACKED notice stands last, after the ALARM messages of the pass, is the model's choice
(log entry 10). -/
def Obligations.AlarmsAreAcknowledged : Prop :=
  ∀ (s : State) (p : Port) (m : InMsg), waits s p m 1 → m.kind = 24 →
    (∀ c : Byte, m.payload = [c] → 30 ≤ c.toNat →
      exec (.ackAlarm p .whole) s = .next (answered s p m [[0x12]])) ∧
    ∀ i : PointNo, m.payload = [BitVec.ofNat 8 i.val] →
      ((s.alt.points[i]).state ∈ [PointState.normal, .activeAck] →
        exec (.ackAlarm p .whole) s = .next (answered s p m [[0x16]])) ∧
      ((s.alt.points[i]).state ∈ [PointState.activeUnack, .returnUnack] →
        let now : PointState := if (s.alt.points[i]).state = .activeUnack then .activeAck else .normal
        ∃ t, exec (.ackAlarm p .whole) s = .next t ∧ repliedWith t p m 0x00 ∧ (t.alt.points[i]).state = now ∧
          (t.alt.points[i]).suppressed = false ∧ (t.alt.points[i]).count = (s.alt.points[i]).count ∧
          (∀ j : PointNo, j ≠ i → (t.alt.points[j]).state = (s.alt.points[j]).state) ∧
          (i ≠ ptBreak → t.msm = s.msm) ∧
          (∀ newest older, i = ptBreak → s.msm.log = newest :: older →
            t.msm.log = { newest with ackedBy := some (newest.ackedBy.getD p) } :: older) ∧
          (∀ q, q ≠ p → (s.ports.get q).silent = true → t.ports.get q = s.ports.get q) ∧
          (∀ q, q ≠ p → (s.ports.get q).silent = false →
            (t.ports.get q).outbound.getLast? = some ⟨.notice, 0x45, 0, [BitVec.ofNat 8 i.val,
              BitVec.ofNat 8 (pointStateCode now), BitVec.ofNat 8 (portCode p), BitVec.ofNat 8 t.alt.floor]⟩ ∨
            32 ≤ (t.ports.get q).outbound.length + (t.ports.get q).reserved) ∧
          t.cmu = s.cmu ∧ t.rbs = s.rbs ∧ t.hbc = s.hbc)

/-- RESTART, HEAD RESTART; R24, R41, R43, R58, R76, R90, R106, R130, R141, R160, R175, R187, R207, R208. Three points are the
model's: that the abort a restart makes sets ABANDONED mode and leaves the heads in DONE SEEN as they are (log entry 32),
that the ALARM messages of the points activated again stand before the reply (log entry 24), and that the EBM's traverse
direction is FWD after it (log entry 3). -/
def Obligations.RestartsKeepWhatTheTablesKeep : Prop :=
  ∀ (s : State) (p : Port) (m : InMsg), waits s p m 1 → m.payload = [] →
    let moves := s.cmu.state ∈ [CarriageState.traverse, .turning, .toLimit, .toFixed, .fixed, .held, .toStd, .atStd]
    (m.kind = 27 → p = .quality → exec (.headRestart p .whole) s =
      .next { answered s p m [[0x00]] with hbc := { s.hbc with resetPending := true } }) ∧
    (m.kind = 26 → p ≠ .actuator → ∃ t, exec (.restart p .whole) s = .next t ∧ repliedWith t p m 0x00 ∧
      (t.cmu.position = s.cmu.position ∧ t.cmu.homed = s.cmu.homed ∧ t.cmu.plan = s.cmu.plan ∧
        t.cmu.faultCause = s.cmu.faultCause ∧ t.cmu.parkSource = s.cmu.parkSource ∧ t.cmu.skipCount = 0 ∧
        t.cmu.hold = .none ∧ t.cmu.turnOwed = false ∧ (¬moves → t.cmu.state = s.cmu.state) ∧
        (moves → t.cmu.state ∈ [CarriageState.toPark, .parked, .toStd, .atStd]) ∧
        (s.cmu.inTraverse = true → t.cmu.retraverseOwed = true)) ∧
      t.hbc = { s.hbc with
        resetPending := true
        seq := if s.osq.step = .idle then s.hbc.seq else s.hbc.seq.map (fun q => { q with abandoned := true }) } ∧
      t.scv = s.scv ∧
      (s.osq.due = true → t.osq.due = true) ∧ t.osq.scanCount = s.osq.scanCount ∧
      t.rbs = { s.rbs with pending := none } ∧ t.ebm = ebmPowerOn ∧
      (t.pen.window = none ∧ t.pen.carry = carryEmpty ∧ (∀ i : Fin 3, t.pen.slots[i] = none) ∧
        (∀ q, t.pen.pins.get q = none) ∧ t.pen.counter = s.pen.counter ∧ t.pen.lastScan = s.pen.lastScan ∧
        t.pen.filter.n = s.pen.filter.n ∧ t.pen.period = none ∧ t.pen.fixedRec = none ∧
        ∀ q, t.pen.filter.bins.get q = List.replicate (s.pen.filter.bins.get q).length none) ∧
      (t.azm.a.active = s.azm.a.active ∧ t.azm.a.staged = s.azm.a.staged ∧ t.azm.a.assembly = none ∧
        t.azm.a.lastScan = none ∧ t.azm.b.active = s.azm.b.active ∧ t.azm.b.staged = s.azm.b.staged ∧
        t.azm.b.assembly = none ∧ t.azm.b.lastScan = none ∧ t.azm.a.frozen = false ∧ t.azm.b.frozen = false ∧
        t.azm.a.outs = List.replicate s.azm.a.outs.length .none ∧
        t.azm.b.outs = List.replicate s.azm.b.outs.length .none) ∧
      t.msm = { s.msm with
        state := .down, speed := 0, source := true, run := none, holeSeen := false, widthPasses := 0 } ∧
      (∀ i : PointNo, i ≠ ptMotionFault → i ≠ ptOverdue → (t.alt.points[i]).state = .normal ∧
        (t.alt.points[i]).count = (s.alt.points[i]).count) ∧
      (s.cmu.state = .fault → alarmActive t ptMotionFault) ∧
      t.cta = ⟨none, [], none⟩ ∧
      (∃ again : Port → List OutMsg, (∀ q, ∀ o ∈ again q, o.cls = .notice ∧ o.kind = 0x41) ∧
        (s.cmu.state ≠ .fault → t.osq.overdue = false → ∀ q, again q = []) ∧
        (t.ports.get p).outbound = again p ++ [replyTo m [0x00]] ∧ ∀ q, q ≠ p → (t.ports.get q).outbound = again q) ∧
      ∀ q, (t.ports.get q).stream = .idle ∧ (t.ports.get q).descriptors = (s.ports.get q).descriptors ∧
        (t.ports.get q).silent = (s.ports.get q).silent ∧
        (q ≠ p → (t.ports.get q).inbound = (s.ports.get q).inbound) ∧
        (t.ports.get q).bad = (s.ports.get q).bad)

/-! ### Invariants -/

/-- R194, R196: no queue of a port is ever over its bound. -/
def Obligations.EveryStepKeepsTheQueueBounds : Prop := Kept queuesOk

/-- R176, R179, R197: a waiting list names no port twice nor the holder, and a SILENT port holds nothing. -/
def Obligations.EveryStepKeepsTheTokenRules : Prop := Kept tokenOk

/-- R119, R120, R200, R203: a port has a pin exactly while it streams, on a generation that is in the store. -/
def Obligations.EveryStepKeepsPinsOnStoredScans : Prop := Kept pinsOk

/-- R167, R173: the annunciation floor is the one its definition gives, after every command. That a point of level 7 ceases to
hold it at its return, as R173 says, is the model's reading beside R164 and R167 (log entry 36). -/
def Obligations.EveryStepKeepsTheAnnunciationFloor : Prop := Kept floorOk

/-- R155, R156, R157: the break log keeps its bounds, and only its newest record may be open. -/
def Obligations.EveryStepKeepsTheBreakLog : Prop := Kept (fun s => logOk s.msm)

/-- R9, R16, R20, R22, R32, R36, R44, R48, R91, R107, R128, R153: park override, the standardization, the traverse and FAULT
agree with the carriage state; the scan count stays within 255 and an ABSENT head's channel is FINISHED. -/
def Obligations.EveryStepKeepsTheBlocksWithTheCarriage : Prop := Kept carriageOk

/-- R6, R7: the drive word, the dwell and the stall timer agree with the command in force. -/
def Obligations.EveryStepKeepsTheDriveRules : Prop := Kept (fun s => driveOk s.drive)
end

