-- ==== Sys2Proof/Laws/Index.lean ====
section
/-! SUPPORT. Reading, writing and mapping the tables indexed by port, channel, reference channel or line: a write is read
back at its index, and every other entry is left alone. -/

namespace Sys2Proof.Machine

section
variable {α β : Type}

/-! ### PerPort -/

@[simp] theorem PerPort.get_set_same (t : PerPort α) (p : Port) (x : α) : (t.set p x).get p = x := by cases p <;> rfl

theorem PerPort.get_set_ne (t : PerPort α) {p q : Port} (x : α) (h : q ≠ p) : (t.set p x).get q = t.get q := by
  cases p <;> cases q <;> first | rfl | exact absurd rfl h

theorem PerPort.get_set (t : PerPort α) (p q : Port) (x : α) :
    (t.set p x).get q = if q = p then x else t.get q := by
  by_cases h : q = p
  · subst h; simp
  · simp [h, PerPort.get_set_ne]

@[simp] theorem PerPort.set_get_same (t : PerPort α) (p : Port) : t.set p (t.get p) = t := by cases p <;> rfl

@[simp] theorem PerPort.set_set (t : PerPort α) (p : Port) (x y : α) : (t.set p x).set p y = t.set p y := by
  cases p <;> rfl

@[simp] theorem PerPort.get_map (f : α → β) (t : PerPort α) (p : Port) : (t.map f).get p = f (t.get p) := by
  cases p <;> rfl

theorem PerPort.ext_get {t u : PerPort α} (h : ∀ p, t.get p = u.get p) : t = u := by
  cases t; cases u
  have a := h .quality; have b := h .machine; have c := h .actuator
  simp only [PerPort.get] at a b c
  simp [a, b, c]

/-! ### PerChan -/

@[simp] theorem PerChan.get_set_same (t : PerChan α) (c : Channel) (x : α) : (t.set c x).get c = x := by cases c <;> rfl

theorem PerChan.get_set_ne (t : PerChan α) {c d : Channel} (x : α) (h : d ≠ c) : (t.set c x).get d = t.get d := by
  cases c <;> cases d <;> first | rfl | exact absurd rfl h

@[simp] theorem PerChan.set_get_same (t : PerChan α) (c : Channel) : t.set c (t.get c) = t := by cases c <;> rfl

@[simp] theorem PerChan.set_set (t : PerChan α) (c : Channel) (x y : α) : (t.set c x).set c y = t.set c y := by
  cases c <;> rfl

/-! ### PerRef -/

@[simp] theorem PerRef.get_set_same (t : PerRef α) (c : RefChan) (x : α) : (t.set c x).get c = x := by cases c <;> rfl

theorem PerRef.get_set_ne (t : PerRef α) {c d : RefChan} (x : α) (h : d ≠ c) : (t.set c x).get d = t.get d := by
  cases c <;> cases d <;> first | rfl | exact absurd rfl h

@[simp] theorem PerRef.get_map (f : α → β) (t : PerRef α) (c : RefChan) : (t.map f).get c = f (t.get c) := by
  cases c <;> rfl

theorem PerRef.all_iff (f : α → Bool) (t : PerRef α) : t.all f = true ↔ ∀ c, f (t.get c) = true := by
  constructor
  · intro h c
    simp only [PerRef.all, Bool.and_eq_true] at h
    cases c
    · exact h.1.1
    · exact h.1.2
    · exact h.2
  · intro h
    simp only [PerRef.all, Bool.and_eq_true]
    exact ⟨⟨h .beta, h .irw⟩, h .cal⟩

/-! ### PerProp, PerLine -/

@[simp] theorem PerProp.get_map (f : α → β) (t : PerProp α) (q : Prop4) : (t.map f).get q = f (t.get q) := by
  cases q <;> rfl

@[simp] theorem PerProp.get_map2 {γ : Type} (f : α → β → γ) (t : PerProp α) (u : PerProp β) (q : Prop4) :
    (PerProp.map2 f t u).get q = f (t.get q) (u.get q) := by cases q <;> rfl

@[simp] theorem PerProp.get_const (x : α) (q : Prop4) : (PerProp.const x).get q = x := by cases q <;> rfl

@[simp] theorem PerLine.get_set_same (t : PerLine α) (l : BreakLine) (x : α) : (t.set l x).get l = x := by
  cases l <;> rfl

theorem PerLine.get_set_ne (t : PerLine α) {k l : BreakLine} (x : α) (h : k ≠ l) : (t.set l x).get k = t.get k := by
  cases k <;> cases l <;> first | rfl | exact absurd rfl h

end

/-! ### The lists of all indices -/

theorem mem_allPorts (p : Port) : p ∈ allPorts := by cases p <;> decide

theorem mem_allChannels (c : Channel) : c ∈ allChannels := by cases c <;> decide

theorem mem_allRefChans (c : RefChan) : c ∈ allRefChans := by cases c <;> decide

theorem mem_allLines (l : BreakLine) : l ∈ allLines := by cases l <;> decide

theorem refChanOf_chan (c : RefChan) : refChanOf c.chan = some c := by cases c <;> rfl

theorem refChanOf_eq_some {ch : Channel} {c : RefChan} (h : refChanOf ch = some c) : ch = c.chan := by
  cases ch <;> simp_all [refChanOf] <;> subst h <;> rfl

theorem dirOpp_dirOpp (d : Dir) : dirOpp (dirOpp d) = d := by cases d <;> rfl

theorem dirSign_ne_zero (d : Dir) : dirSign d ≠ 0 := by cases d <;> decide

end Sys2Proof.Machine
end

