-- ==== Sys2Proof/Laws/State.lean ====
section
/-! SUPPORT. One lemma per field and update of the state, true by `rfl`: a later proof reads a field of an updated state
by `simp` and unfolds no update. -/

namespace Sys2Proof.Machine

/-! ### withRst -/

section
variable (s : State) (x : Sampled)

@[simp] theorem State.withRst_held : (s.withRst x).held = s.held := rfl
@[simp] theorem State.withRst_rst : (s.withRst x).rst = x := rfl
@[simp] theorem State.withRst_rate : (s.withRst x).rate = s.rate := rfl
@[simp] theorem State.withRst_cmu : (s.withRst x).cmu = s.cmu := rfl
@[simp] theorem State.withRst_drive : (s.withRst x).drive = s.drive := rfl
@[simp] theorem State.withRst_hbc : (s.withRst x).hbc = s.hbc := rfl
@[simp] theorem State.withRst_osq : (s.withRst x).osq = s.osq := rfl
@[simp] theorem State.withRst_scv : (s.withRst x).scv = s.scv := rfl
@[simp] theorem State.withRst_rbs : (s.withRst x).rbs = s.rbs := rfl
@[simp] theorem State.withRst_ebm : (s.withRst x).ebm = s.ebm := rfl
@[simp] theorem State.withRst_pen : (s.withRst x).pen = s.pen := rfl
@[simp] theorem State.withRst_azm : (s.withRst x).azm = s.azm := rfl
@[simp] theorem State.withRst_msm : (s.withRst x).msm = s.msm := rfl
@[simp] theorem State.withRst_alt : (s.withRst x).alt = s.alt := rfl
@[simp] theorem State.withRst_cta : (s.withRst x).cta = s.cta := rfl
@[simp] theorem State.withRst_ports : (s.withRst x).ports = s.ports := rfl
@[simp] theorem State.withRst_pending : (s.withRst x).pending = s.pending := rfl
@[simp] theorem State.withRst_self : s.withRst s.rst = s := rfl
@[simp] theorem State.withRst_withRst (y : Sampled) : (s.withRst x).withRst y = s.withRst y := rfl

end

/-! ### withRate -/

section
variable (s : State) (x : Rate)

@[simp] theorem State.withRate_held : (s.withRate x).held = s.held := rfl
@[simp] theorem State.withRate_rst : (s.withRate x).rst = s.rst := rfl
@[simp] theorem State.withRate_rate : (s.withRate x).rate = x := rfl
@[simp] theorem State.withRate_cmu : (s.withRate x).cmu = s.cmu := rfl
@[simp] theorem State.withRate_drive : (s.withRate x).drive = s.drive := rfl
@[simp] theorem State.withRate_hbc : (s.withRate x).hbc = s.hbc := rfl
@[simp] theorem State.withRate_osq : (s.withRate x).osq = s.osq := rfl
@[simp] theorem State.withRate_scv : (s.withRate x).scv = s.scv := rfl
@[simp] theorem State.withRate_rbs : (s.withRate x).rbs = s.rbs := rfl
@[simp] theorem State.withRate_ebm : (s.withRate x).ebm = s.ebm := rfl
@[simp] theorem State.withRate_pen : (s.withRate x).pen = s.pen := rfl
@[simp] theorem State.withRate_azm : (s.withRate x).azm = s.azm := rfl
@[simp] theorem State.withRate_msm : (s.withRate x).msm = s.msm := rfl
@[simp] theorem State.withRate_alt : (s.withRate x).alt = s.alt := rfl
@[simp] theorem State.withRate_cta : (s.withRate x).cta = s.cta := rfl
@[simp] theorem State.withRate_ports : (s.withRate x).ports = s.ports := rfl
@[simp] theorem State.withRate_pending : (s.withRate x).pending = s.pending := rfl
@[simp] theorem State.withRate_self : s.withRate s.rate = s := rfl
@[simp] theorem State.withRate_withRate (y : Rate) : (s.withRate x).withRate y = s.withRate y := rfl

end

/-! ### withCmu -/

section
variable (s : State) (x : Cmu)

@[simp] theorem State.withCmu_held : (s.withCmu x).held = s.held := rfl
@[simp] theorem State.withCmu_rst : (s.withCmu x).rst = s.rst := rfl
@[simp] theorem State.withCmu_rate : (s.withCmu x).rate = s.rate := rfl
@[simp] theorem State.withCmu_cmu : (s.withCmu x).cmu = x := rfl
@[simp] theorem State.withCmu_drive : (s.withCmu x).drive = s.drive := rfl
@[simp] theorem State.withCmu_hbc : (s.withCmu x).hbc = s.hbc := rfl
@[simp] theorem State.withCmu_osq : (s.withCmu x).osq = s.osq := rfl
@[simp] theorem State.withCmu_scv : (s.withCmu x).scv = s.scv := rfl
@[simp] theorem State.withCmu_rbs : (s.withCmu x).rbs = s.rbs := rfl
@[simp] theorem State.withCmu_ebm : (s.withCmu x).ebm = s.ebm := rfl
@[simp] theorem State.withCmu_pen : (s.withCmu x).pen = s.pen := rfl
@[simp] theorem State.withCmu_azm : (s.withCmu x).azm = s.azm := rfl
@[simp] theorem State.withCmu_msm : (s.withCmu x).msm = s.msm := rfl
@[simp] theorem State.withCmu_alt : (s.withCmu x).alt = s.alt := rfl
@[simp] theorem State.withCmu_cta : (s.withCmu x).cta = s.cta := rfl
@[simp] theorem State.withCmu_ports : (s.withCmu x).ports = s.ports := rfl
@[simp] theorem State.withCmu_pending : (s.withCmu x).pending = s.pending := rfl
@[simp] theorem State.withCmu_self : s.withCmu s.cmu = s := rfl
@[simp] theorem State.withCmu_withCmu (y : Cmu) : (s.withCmu x).withCmu y = s.withCmu y := rfl

end

/-! ### withDrive -/

section
variable (s : State) (x : Drive)

@[simp] theorem State.withDrive_held : (s.withDrive x).held = s.held := rfl
@[simp] theorem State.withDrive_rst : (s.withDrive x).rst = s.rst := rfl
@[simp] theorem State.withDrive_rate : (s.withDrive x).rate = s.rate := rfl
@[simp] theorem State.withDrive_cmu : (s.withDrive x).cmu = s.cmu := rfl
@[simp] theorem State.withDrive_drive : (s.withDrive x).drive = x := rfl
@[simp] theorem State.withDrive_hbc : (s.withDrive x).hbc = s.hbc := rfl
@[simp] theorem State.withDrive_osq : (s.withDrive x).osq = s.osq := rfl
@[simp] theorem State.withDrive_scv : (s.withDrive x).scv = s.scv := rfl
@[simp] theorem State.withDrive_rbs : (s.withDrive x).rbs = s.rbs := rfl
@[simp] theorem State.withDrive_ebm : (s.withDrive x).ebm = s.ebm := rfl
@[simp] theorem State.withDrive_pen : (s.withDrive x).pen = s.pen := rfl
@[simp] theorem State.withDrive_azm : (s.withDrive x).azm = s.azm := rfl
@[simp] theorem State.withDrive_msm : (s.withDrive x).msm = s.msm := rfl
@[simp] theorem State.withDrive_alt : (s.withDrive x).alt = s.alt := rfl
@[simp] theorem State.withDrive_cta : (s.withDrive x).cta = s.cta := rfl
@[simp] theorem State.withDrive_ports : (s.withDrive x).ports = s.ports := rfl
@[simp] theorem State.withDrive_pending : (s.withDrive x).pending = s.pending := rfl
@[simp] theorem State.withDrive_self : s.withDrive s.drive = s := rfl
@[simp] theorem State.withDrive_withDrive (y : Drive) : (s.withDrive x).withDrive y = s.withDrive y := rfl

end

/-! ### withHbc -/

section
variable (s : State) (x : Hbc)

@[simp] theorem State.withHbc_held : (s.withHbc x).held = s.held := rfl
@[simp] theorem State.withHbc_rst : (s.withHbc x).rst = s.rst := rfl
@[simp] theorem State.withHbc_rate : (s.withHbc x).rate = s.rate := rfl
@[simp] theorem State.withHbc_cmu : (s.withHbc x).cmu = s.cmu := rfl
@[simp] theorem State.withHbc_drive : (s.withHbc x).drive = s.drive := rfl
@[simp] theorem State.withHbc_hbc : (s.withHbc x).hbc = x := rfl
@[simp] theorem State.withHbc_osq : (s.withHbc x).osq = s.osq := rfl
@[simp] theorem State.withHbc_scv : (s.withHbc x).scv = s.scv := rfl
@[simp] theorem State.withHbc_rbs : (s.withHbc x).rbs = s.rbs := rfl
@[simp] theorem State.withHbc_ebm : (s.withHbc x).ebm = s.ebm := rfl
@[simp] theorem State.withHbc_pen : (s.withHbc x).pen = s.pen := rfl
@[simp] theorem State.withHbc_azm : (s.withHbc x).azm = s.azm := rfl
@[simp] theorem State.withHbc_msm : (s.withHbc x).msm = s.msm := rfl
@[simp] theorem State.withHbc_alt : (s.withHbc x).alt = s.alt := rfl
@[simp] theorem State.withHbc_cta : (s.withHbc x).cta = s.cta := rfl
@[simp] theorem State.withHbc_ports : (s.withHbc x).ports = s.ports := rfl
@[simp] theorem State.withHbc_pending : (s.withHbc x).pending = s.pending := rfl
@[simp] theorem State.withHbc_self : s.withHbc s.hbc = s := rfl
@[simp] theorem State.withHbc_withHbc (y : Hbc) : (s.withHbc x).withHbc y = s.withHbc y := rfl

end

/-! ### withOsq -/

section
variable (s : State) (x : Osq)

@[simp] theorem State.withOsq_held : (s.withOsq x).held = s.held := rfl
@[simp] theorem State.withOsq_rst : (s.withOsq x).rst = s.rst := rfl
@[simp] theorem State.withOsq_rate : (s.withOsq x).rate = s.rate := rfl
@[simp] theorem State.withOsq_cmu : (s.withOsq x).cmu = s.cmu := rfl
@[simp] theorem State.withOsq_drive : (s.withOsq x).drive = s.drive := rfl
@[simp] theorem State.withOsq_hbc : (s.withOsq x).hbc = s.hbc := rfl
@[simp] theorem State.withOsq_osq : (s.withOsq x).osq = x := rfl
@[simp] theorem State.withOsq_scv : (s.withOsq x).scv = s.scv := rfl
@[simp] theorem State.withOsq_rbs : (s.withOsq x).rbs = s.rbs := rfl
@[simp] theorem State.withOsq_ebm : (s.withOsq x).ebm = s.ebm := rfl
@[simp] theorem State.withOsq_pen : (s.withOsq x).pen = s.pen := rfl
@[simp] theorem State.withOsq_azm : (s.withOsq x).azm = s.azm := rfl
@[simp] theorem State.withOsq_msm : (s.withOsq x).msm = s.msm := rfl
@[simp] theorem State.withOsq_alt : (s.withOsq x).alt = s.alt := rfl
@[simp] theorem State.withOsq_cta : (s.withOsq x).cta = s.cta := rfl
@[simp] theorem State.withOsq_ports : (s.withOsq x).ports = s.ports := rfl
@[simp] theorem State.withOsq_pending : (s.withOsq x).pending = s.pending := rfl
@[simp] theorem State.withOsq_self : s.withOsq s.osq = s := rfl
@[simp] theorem State.withOsq_withOsq (y : Osq) : (s.withOsq x).withOsq y = s.withOsq y := rfl

end

/-! ### withScv -/

section
variable (s : State) (x : Scv)

@[simp] theorem State.withScv_held : (s.withScv x).held = s.held := rfl
@[simp] theorem State.withScv_rst : (s.withScv x).rst = s.rst := rfl
@[simp] theorem State.withScv_rate : (s.withScv x).rate = s.rate := rfl
@[simp] theorem State.withScv_cmu : (s.withScv x).cmu = s.cmu := rfl
@[simp] theorem State.withScv_drive : (s.withScv x).drive = s.drive := rfl
@[simp] theorem State.withScv_hbc : (s.withScv x).hbc = s.hbc := rfl
@[simp] theorem State.withScv_osq : (s.withScv x).osq = s.osq := rfl
@[simp] theorem State.withScv_scv : (s.withScv x).scv = x := rfl
@[simp] theorem State.withScv_rbs : (s.withScv x).rbs = s.rbs := rfl
@[simp] theorem State.withScv_ebm : (s.withScv x).ebm = s.ebm := rfl
@[simp] theorem State.withScv_pen : (s.withScv x).pen = s.pen := rfl
@[simp] theorem State.withScv_azm : (s.withScv x).azm = s.azm := rfl
@[simp] theorem State.withScv_msm : (s.withScv x).msm = s.msm := rfl
@[simp] theorem State.withScv_alt : (s.withScv x).alt = s.alt := rfl
@[simp] theorem State.withScv_cta : (s.withScv x).cta = s.cta := rfl
@[simp] theorem State.withScv_ports : (s.withScv x).ports = s.ports := rfl
@[simp] theorem State.withScv_pending : (s.withScv x).pending = s.pending := rfl
@[simp] theorem State.withScv_self : s.withScv s.scv = s := rfl
@[simp] theorem State.withScv_withScv (y : Scv) : (s.withScv x).withScv y = s.withScv y := rfl

end

/-! ### withRbs -/

section
variable (s : State) (x : Rbs)

@[simp] theorem State.withRbs_held : (s.withRbs x).held = s.held := rfl
@[simp] theorem State.withRbs_rst : (s.withRbs x).rst = s.rst := rfl
@[simp] theorem State.withRbs_rate : (s.withRbs x).rate = s.rate := rfl
@[simp] theorem State.withRbs_cmu : (s.withRbs x).cmu = s.cmu := rfl
@[simp] theorem State.withRbs_drive : (s.withRbs x).drive = s.drive := rfl
@[simp] theorem State.withRbs_hbc : (s.withRbs x).hbc = s.hbc := rfl
@[simp] theorem State.withRbs_osq : (s.withRbs x).osq = s.osq := rfl
@[simp] theorem State.withRbs_scv : (s.withRbs x).scv = s.scv := rfl
@[simp] theorem State.withRbs_rbs : (s.withRbs x).rbs = x := rfl
@[simp] theorem State.withRbs_ebm : (s.withRbs x).ebm = s.ebm := rfl
@[simp] theorem State.withRbs_pen : (s.withRbs x).pen = s.pen := rfl
@[simp] theorem State.withRbs_azm : (s.withRbs x).azm = s.azm := rfl
@[simp] theorem State.withRbs_msm : (s.withRbs x).msm = s.msm := rfl
@[simp] theorem State.withRbs_alt : (s.withRbs x).alt = s.alt := rfl
@[simp] theorem State.withRbs_cta : (s.withRbs x).cta = s.cta := rfl
@[simp] theorem State.withRbs_ports : (s.withRbs x).ports = s.ports := rfl
@[simp] theorem State.withRbs_pending : (s.withRbs x).pending = s.pending := rfl
@[simp] theorem State.withRbs_self : s.withRbs s.rbs = s := rfl
@[simp] theorem State.withRbs_withRbs (y : Rbs) : (s.withRbs x).withRbs y = s.withRbs y := rfl

end

/-! ### withEbm -/

section
variable (s : State) (x : Ebm)

@[simp] theorem State.withEbm_held : (s.withEbm x).held = s.held := rfl
@[simp] theorem State.withEbm_rst : (s.withEbm x).rst = s.rst := rfl
@[simp] theorem State.withEbm_rate : (s.withEbm x).rate = s.rate := rfl
@[simp] theorem State.withEbm_cmu : (s.withEbm x).cmu = s.cmu := rfl
@[simp] theorem State.withEbm_drive : (s.withEbm x).drive = s.drive := rfl
@[simp] theorem State.withEbm_hbc : (s.withEbm x).hbc = s.hbc := rfl
@[simp] theorem State.withEbm_osq : (s.withEbm x).osq = s.osq := rfl
@[simp] theorem State.withEbm_scv : (s.withEbm x).scv = s.scv := rfl
@[simp] theorem State.withEbm_rbs : (s.withEbm x).rbs = s.rbs := rfl
@[simp] theorem State.withEbm_ebm : (s.withEbm x).ebm = x := rfl
@[simp] theorem State.withEbm_pen : (s.withEbm x).pen = s.pen := rfl
@[simp] theorem State.withEbm_azm : (s.withEbm x).azm = s.azm := rfl
@[simp] theorem State.withEbm_msm : (s.withEbm x).msm = s.msm := rfl
@[simp] theorem State.withEbm_alt : (s.withEbm x).alt = s.alt := rfl
@[simp] theorem State.withEbm_cta : (s.withEbm x).cta = s.cta := rfl
@[simp] theorem State.withEbm_ports : (s.withEbm x).ports = s.ports := rfl
@[simp] theorem State.withEbm_pending : (s.withEbm x).pending = s.pending := rfl
@[simp] theorem State.withEbm_self : s.withEbm s.ebm = s := rfl
@[simp] theorem State.withEbm_withEbm (y : Ebm) : (s.withEbm x).withEbm y = s.withEbm y := rfl

end

/-! ### withPen -/

section
variable (s : State) (x : Pen)

@[simp] theorem State.withPen_held : (s.withPen x).held = s.held := rfl
@[simp] theorem State.withPen_rst : (s.withPen x).rst = s.rst := rfl
@[simp] theorem State.withPen_rate : (s.withPen x).rate = s.rate := rfl
@[simp] theorem State.withPen_cmu : (s.withPen x).cmu = s.cmu := rfl
@[simp] theorem State.withPen_drive : (s.withPen x).drive = s.drive := rfl
@[simp] theorem State.withPen_hbc : (s.withPen x).hbc = s.hbc := rfl
@[simp] theorem State.withPen_osq : (s.withPen x).osq = s.osq := rfl
@[simp] theorem State.withPen_scv : (s.withPen x).scv = s.scv := rfl
@[simp] theorem State.withPen_rbs : (s.withPen x).rbs = s.rbs := rfl
@[simp] theorem State.withPen_ebm : (s.withPen x).ebm = s.ebm := rfl
@[simp] theorem State.withPen_pen : (s.withPen x).pen = x := rfl
@[simp] theorem State.withPen_azm : (s.withPen x).azm = s.azm := rfl
@[simp] theorem State.withPen_msm : (s.withPen x).msm = s.msm := rfl
@[simp] theorem State.withPen_alt : (s.withPen x).alt = s.alt := rfl
@[simp] theorem State.withPen_cta : (s.withPen x).cta = s.cta := rfl
@[simp] theorem State.withPen_ports : (s.withPen x).ports = s.ports := rfl
@[simp] theorem State.withPen_pending : (s.withPen x).pending = s.pending := rfl
@[simp] theorem State.withPen_self : s.withPen s.pen = s := rfl
@[simp] theorem State.withPen_withPen (y : Pen) : (s.withPen x).withPen y = s.withPen y := rfl

end

/-! ### withAzm -/

section
variable (s : State) (x : Azm)

@[simp] theorem State.withAzm_held : (s.withAzm x).held = s.held := rfl
@[simp] theorem State.withAzm_rst : (s.withAzm x).rst = s.rst := rfl
@[simp] theorem State.withAzm_rate : (s.withAzm x).rate = s.rate := rfl
@[simp] theorem State.withAzm_cmu : (s.withAzm x).cmu = s.cmu := rfl
@[simp] theorem State.withAzm_drive : (s.withAzm x).drive = s.drive := rfl
@[simp] theorem State.withAzm_hbc : (s.withAzm x).hbc = s.hbc := rfl
@[simp] theorem State.withAzm_osq : (s.withAzm x).osq = s.osq := rfl
@[simp] theorem State.withAzm_scv : (s.withAzm x).scv = s.scv := rfl
@[simp] theorem State.withAzm_rbs : (s.withAzm x).rbs = s.rbs := rfl
@[simp] theorem State.withAzm_ebm : (s.withAzm x).ebm = s.ebm := rfl
@[simp] theorem State.withAzm_pen : (s.withAzm x).pen = s.pen := rfl
@[simp] theorem State.withAzm_azm : (s.withAzm x).azm = x := rfl
@[simp] theorem State.withAzm_msm : (s.withAzm x).msm = s.msm := rfl
@[simp] theorem State.withAzm_alt : (s.withAzm x).alt = s.alt := rfl
@[simp] theorem State.withAzm_cta : (s.withAzm x).cta = s.cta := rfl
@[simp] theorem State.withAzm_ports : (s.withAzm x).ports = s.ports := rfl
@[simp] theorem State.withAzm_pending : (s.withAzm x).pending = s.pending := rfl
@[simp] theorem State.withAzm_self : s.withAzm s.azm = s := rfl
@[simp] theorem State.withAzm_withAzm (y : Azm) : (s.withAzm x).withAzm y = s.withAzm y := rfl

end

/-! ### withMsm -/

section
variable (s : State) (x : Msm)

@[simp] theorem State.withMsm_held : (s.withMsm x).held = s.held := rfl
@[simp] theorem State.withMsm_rst : (s.withMsm x).rst = s.rst := rfl
@[simp] theorem State.withMsm_rate : (s.withMsm x).rate = s.rate := rfl
@[simp] theorem State.withMsm_cmu : (s.withMsm x).cmu = s.cmu := rfl
@[simp] theorem State.withMsm_drive : (s.withMsm x).drive = s.drive := rfl
@[simp] theorem State.withMsm_hbc : (s.withMsm x).hbc = s.hbc := rfl
@[simp] theorem State.withMsm_osq : (s.withMsm x).osq = s.osq := rfl
@[simp] theorem State.withMsm_scv : (s.withMsm x).scv = s.scv := rfl
@[simp] theorem State.withMsm_rbs : (s.withMsm x).rbs = s.rbs := rfl
@[simp] theorem State.withMsm_ebm : (s.withMsm x).ebm = s.ebm := rfl
@[simp] theorem State.withMsm_pen : (s.withMsm x).pen = s.pen := rfl
@[simp] theorem State.withMsm_azm : (s.withMsm x).azm = s.azm := rfl
@[simp] theorem State.withMsm_msm : (s.withMsm x).msm = x := rfl
@[simp] theorem State.withMsm_alt : (s.withMsm x).alt = s.alt := rfl
@[simp] theorem State.withMsm_cta : (s.withMsm x).cta = s.cta := rfl
@[simp] theorem State.withMsm_ports : (s.withMsm x).ports = s.ports := rfl
@[simp] theorem State.withMsm_pending : (s.withMsm x).pending = s.pending := rfl
@[simp] theorem State.withMsm_self : s.withMsm s.msm = s := rfl
@[simp] theorem State.withMsm_withMsm (y : Msm) : (s.withMsm x).withMsm y = s.withMsm y := rfl

end

/-! ### withAlt -/

section
variable (s : State) (x : Alt)

@[simp] theorem State.withAlt_held : (s.withAlt x).held = s.held := rfl
@[simp] theorem State.withAlt_rst : (s.withAlt x).rst = s.rst := rfl
@[simp] theorem State.withAlt_rate : (s.withAlt x).rate = s.rate := rfl
@[simp] theorem State.withAlt_cmu : (s.withAlt x).cmu = s.cmu := rfl
@[simp] theorem State.withAlt_drive : (s.withAlt x).drive = s.drive := rfl
@[simp] theorem State.withAlt_hbc : (s.withAlt x).hbc = s.hbc := rfl
@[simp] theorem State.withAlt_osq : (s.withAlt x).osq = s.osq := rfl
@[simp] theorem State.withAlt_scv : (s.withAlt x).scv = s.scv := rfl
@[simp] theorem State.withAlt_rbs : (s.withAlt x).rbs = s.rbs := rfl
@[simp] theorem State.withAlt_ebm : (s.withAlt x).ebm = s.ebm := rfl
@[simp] theorem State.withAlt_pen : (s.withAlt x).pen = s.pen := rfl
@[simp] theorem State.withAlt_azm : (s.withAlt x).azm = s.azm := rfl
@[simp] theorem State.withAlt_msm : (s.withAlt x).msm = s.msm := rfl
@[simp] theorem State.withAlt_alt : (s.withAlt x).alt = x := rfl
@[simp] theorem State.withAlt_cta : (s.withAlt x).cta = s.cta := rfl
@[simp] theorem State.withAlt_ports : (s.withAlt x).ports = s.ports := rfl
@[simp] theorem State.withAlt_pending : (s.withAlt x).pending = s.pending := rfl
@[simp] theorem State.withAlt_self : s.withAlt s.alt = s := rfl
@[simp] theorem State.withAlt_withAlt (y : Alt) : (s.withAlt x).withAlt y = s.withAlt y := rfl

end

/-! ### withCta -/

section
variable (s : State) (x : Cta)

@[simp] theorem State.withCta_held : (s.withCta x).held = s.held := rfl
@[simp] theorem State.withCta_rst : (s.withCta x).rst = s.rst := rfl
@[simp] theorem State.withCta_rate : (s.withCta x).rate = s.rate := rfl
@[simp] theorem State.withCta_cmu : (s.withCta x).cmu = s.cmu := rfl
@[simp] theorem State.withCta_drive : (s.withCta x).drive = s.drive := rfl
@[simp] theorem State.withCta_hbc : (s.withCta x).hbc = s.hbc := rfl
@[simp] theorem State.withCta_osq : (s.withCta x).osq = s.osq := rfl
@[simp] theorem State.withCta_scv : (s.withCta x).scv = s.scv := rfl
@[simp] theorem State.withCta_rbs : (s.withCta x).rbs = s.rbs := rfl
@[simp] theorem State.withCta_ebm : (s.withCta x).ebm = s.ebm := rfl
@[simp] theorem State.withCta_pen : (s.withCta x).pen = s.pen := rfl
@[simp] theorem State.withCta_azm : (s.withCta x).azm = s.azm := rfl
@[simp] theorem State.withCta_msm : (s.withCta x).msm = s.msm := rfl
@[simp] theorem State.withCta_alt : (s.withCta x).alt = s.alt := rfl
@[simp] theorem State.withCta_cta : (s.withCta x).cta = x := rfl
@[simp] theorem State.withCta_ports : (s.withCta x).ports = s.ports := rfl
@[simp] theorem State.withCta_pending : (s.withCta x).pending = s.pending := rfl
@[simp] theorem State.withCta_self : s.withCta s.cta = s := rfl
@[simp] theorem State.withCta_withCta (y : Cta) : (s.withCta x).withCta y = s.withCta y := rfl

end

/-! ### withPorts -/

section
variable (s : State) (x : PerPort PortState)

@[simp] theorem State.withPorts_held : (s.withPorts x).held = s.held := rfl
@[simp] theorem State.withPorts_rst : (s.withPorts x).rst = s.rst := rfl
@[simp] theorem State.withPorts_rate : (s.withPorts x).rate = s.rate := rfl
@[simp] theorem State.withPorts_cmu : (s.withPorts x).cmu = s.cmu := rfl
@[simp] theorem State.withPorts_drive : (s.withPorts x).drive = s.drive := rfl
@[simp] theorem State.withPorts_hbc : (s.withPorts x).hbc = s.hbc := rfl
@[simp] theorem State.withPorts_osq : (s.withPorts x).osq = s.osq := rfl
@[simp] theorem State.withPorts_scv : (s.withPorts x).scv = s.scv := rfl
@[simp] theorem State.withPorts_rbs : (s.withPorts x).rbs = s.rbs := rfl
@[simp] theorem State.withPorts_ebm : (s.withPorts x).ebm = s.ebm := rfl
@[simp] theorem State.withPorts_pen : (s.withPorts x).pen = s.pen := rfl
@[simp] theorem State.withPorts_azm : (s.withPorts x).azm = s.azm := rfl
@[simp] theorem State.withPorts_msm : (s.withPorts x).msm = s.msm := rfl
@[simp] theorem State.withPorts_alt : (s.withPorts x).alt = s.alt := rfl
@[simp] theorem State.withPorts_cta : (s.withPorts x).cta = s.cta := rfl
@[simp] theorem State.withPorts_ports : (s.withPorts x).ports = x := rfl
@[simp] theorem State.withPorts_pending : (s.withPorts x).pending = s.pending := rfl
@[simp] theorem State.withPorts_self : s.withPorts s.ports = s := rfl
@[simp] theorem State.withPorts_withPorts (y : PerPort PortState) : (s.withPorts x).withPorts y = s.withPorts y := rfl

end

/-! ### withPending -/

section
variable (s : State) (x : List Instr)

@[simp] theorem State.withPending_held : (s.withPending x).held = s.held := rfl
@[simp] theorem State.withPending_rst : (s.withPending x).rst = s.rst := rfl
@[simp] theorem State.withPending_rate : (s.withPending x).rate = s.rate := rfl
@[simp] theorem State.withPending_cmu : (s.withPending x).cmu = s.cmu := rfl
@[simp] theorem State.withPending_drive : (s.withPending x).drive = s.drive := rfl
@[simp] theorem State.withPending_hbc : (s.withPending x).hbc = s.hbc := rfl
@[simp] theorem State.withPending_osq : (s.withPending x).osq = s.osq := rfl
@[simp] theorem State.withPending_scv : (s.withPending x).scv = s.scv := rfl
@[simp] theorem State.withPending_rbs : (s.withPending x).rbs = s.rbs := rfl
@[simp] theorem State.withPending_ebm : (s.withPending x).ebm = s.ebm := rfl
@[simp] theorem State.withPending_pen : (s.withPending x).pen = s.pen := rfl
@[simp] theorem State.withPending_azm : (s.withPending x).azm = s.azm := rfl
@[simp] theorem State.withPending_msm : (s.withPending x).msm = s.msm := rfl
@[simp] theorem State.withPending_alt : (s.withPending x).alt = s.alt := rfl
@[simp] theorem State.withPending_cta : (s.withPending x).cta = s.cta := rfl
@[simp] theorem State.withPending_ports : (s.withPending x).ports = s.ports := rfl
@[simp] theorem State.withPending_pending : (s.withPending x).pending = x := rfl
@[simp] theorem State.withPending_self : s.withPending s.pending = s := rfl
@[simp] theorem State.withPending_withPending (y : List Instr) : (s.withPending x).withPending y = s.withPending y := rfl

end

end Sys2Proof.Machine
end

