-- ==== Sys2Proof/Laws/Ports.lean ====
section
/-! SUPPORT. What an update of one port, a notice and the taking of a request do to the ports and leave alone. -/

namespace Sys2Proof.Machine

/-! ### One port updated -/

@[simp] theorem State.updPort_get_same (s : State) (p : Port) (f : PortState → PortState) :
    (s.updPort p f).ports.get p = f (s.ports.get p) := by simp [State.updPort]

theorem State.updPort_get_ne (s : State) {p q : Port} (f : PortState → PortState) (h : q ≠ p) :
    (s.updPort p f).ports.get q = s.ports.get q := by simp [State.updPort, PerPort.get_set_ne _ _ h]

theorem State.updPort_eq (s : State) (p : Port) (f : PortState → PortState) :
    s.updPort p f = { s with ports := s.ports.set p (f (s.ports.get p)) } := rfl

theorem State.updPort_updPort (s : State) (p : Port) (f g : PortState → PortState) :
    (s.updPort p f).updPort p g = s.updPort p (fun x => g (f x)) := by
  simp [State.updPort_eq]

section
variable (s : State) (p : Port) (f : PortState → PortState)

@[simp] theorem State.updPort_held : (s.updPort p f).held = s.held := rfl
@[simp] theorem State.updPort_rst : (s.updPort p f).rst = s.rst := rfl
@[simp] theorem State.updPort_rate : (s.updPort p f).rate = s.rate := rfl
@[simp] theorem State.updPort_cmu : (s.updPort p f).cmu = s.cmu := rfl
@[simp] theorem State.updPort_drive : (s.updPort p f).drive = s.drive := rfl
@[simp] theorem State.updPort_hbc : (s.updPort p f).hbc = s.hbc := rfl
@[simp] theorem State.updPort_osq : (s.updPort p f).osq = s.osq := rfl
@[simp] theorem State.updPort_scv : (s.updPort p f).scv = s.scv := rfl
@[simp] theorem State.updPort_rbs : (s.updPort p f).rbs = s.rbs := rfl
@[simp] theorem State.updPort_ebm : (s.updPort p f).ebm = s.ebm := rfl
@[simp] theorem State.updPort_pen : (s.updPort p f).pen = s.pen := rfl
@[simp] theorem State.updPort_azm : (s.updPort p f).azm = s.azm := rfl
@[simp] theorem State.updPort_msm : (s.updPort p f).msm = s.msm := rfl
@[simp] theorem State.updPort_alt : (s.updPort p f).alt = s.alt := rfl
@[simp] theorem State.updPort_cta : (s.updPort p f).cta = s.cta := rfl
@[simp] theorem State.updPort_pending : (s.updPort p f).pending = s.pending := rfl
@[simp] theorem State.updPort_override : (s.updPort p f).override = s.override := rfl

end

/-! ### Notices (R196) -/

section
variable (kind : Byte) (pl : List Byte) (x : PortState)

/-- What a notice can do: nothing on a SILENT port, one more message where an entry is free, one more loss otherwise. -/
theorem PortState.notice_cases :
    (x.silent = true ∧ x.notice kind pl = x) ∨
    (x.silent = false ∧ x.outbound.length + x.reserved < 32 ∧
      x.notice kind pl = { x with outbound := x.outbound ++ [⟨.notice, kind, 0, pl⟩] }) ∨
    (x.silent = false ∧ 32 ≤ x.outbound.length + x.reserved ∧
      x.notice kind pl = { x with lost := min 65535 (x.lost + 1) }) := by
  unfold PortState.notice PortState.free PortState.occupied
  by_cases h : x.silent = true
  · simp [h]
  · have h' : x.silent = false := by simpa using h
    by_cases hf : x.outbound.length + x.reserved < 32
    · have : 1 ≤ 32 - (x.outbound.length + x.reserved) := by omega
      simp [h', hf, this]
    · have : ¬ 1 ≤ 32 - (x.outbound.length + x.reserved) := by omega
      simp only [h', this, satInc]
      simp
      omega

theorem PortState.notice_of_silent (h : x.silent = true) : x.notice kind pl = x := by simp [PortState.notice, h]

theorem PortState.notice_of_room (h : x.silent = false) (hr : x.outbound.length + x.reserved < 32) :
    x.notice kind pl = { x with outbound := x.outbound ++ [⟨.notice, kind, 0, pl⟩] } := by
  rcases x.notice_cases kind pl with ⟨a, _⟩ | ⟨_, _, b⟩ | ⟨_, a, _⟩
  · simp [h] at a
  · exact b
  · omega

@[simp] theorem PortState.notice_receiver : (x.notice kind pl).receiver = x.receiver := by
  unfold PortState.notice; split <;> [rfl; split <;> rfl]
@[simp] theorem PortState.notice_inbound : (x.notice kind pl).inbound = x.inbound := by
  unfold PortState.notice; split <;> [rfl; split <;> rfl]
@[simp] theorem PortState.notice_handling : (x.notice kind pl).handling = x.handling := by
  unfold PortState.notice; split <;> [rfl; split <;> rfl]
@[simp] theorem PortState.notice_silent : (x.notice kind pl).silent = x.silent := by
  unfold PortState.notice; split <;> [rfl; split <;> rfl]
@[simp] theorem PortState.notice_silentTimer : (x.notice kind pl).silentTimer = x.silentTimer := by
  unfold PortState.notice; split <;> [rfl; split <;> rfl]
@[simp] theorem PortState.notice_stream : (x.notice kind pl).stream = x.stream := by
  unfold PortState.notice; split <;> [rfl; split <;> rfl]
@[simp] theorem PortState.notice_descriptors : (x.notice kind pl).descriptors = x.descriptors := by
  unfold PortState.notice; split <;> [rfl; split <;> rfl]
@[simp] theorem PortState.notice_noise : (x.notice kind pl).noise = x.noise := by
  unfold PortState.notice; split <;> [rfl; split <;> rfl]
@[simp] theorem PortState.notice_bad : (x.notice kind pl).bad = x.bad := by
  unfold PortState.notice; split <;> [rfl; split <;> rfl]
@[simp] theorem PortState.notice_overruns : (x.notice kind pl).overruns = x.overruns := by
  unfold PortState.notice; split <;> [rfl; split <;> rfl]
@[simp] theorem PortState.notice_reserved : (x.notice kind pl).reserved = x.reserved := by
  simp [PortState.reserved]

/-- A notice adds no push report. -/
@[simp] theorem PortState.notice_pushes : (x.notice kind pl).pushes = x.pushes := by
  rcases x.notice_cases kind pl with ⟨_, h⟩ | ⟨_, _, h⟩ | ⟨_, _, h⟩ <;> rw [h]
  · simp [PortState.pushes]
  · simp [PortState.pushes]

/-- A notice keeps the bound of 32. -/
theorem PortState.notice_occupied (h : x.outbound.length + x.reserved ≤ 32) :
    (x.notice kind pl).outbound.length + x.reserved ≤ 32 := by
  rcases x.notice_cases kind pl with ⟨_, e⟩ | ⟨_, _, e⟩ | ⟨_, _, e⟩ <;> rw [e]
  · exact h
  · simp; omega
  · exact h

end

/-- A notice keeps a port's queues in their bounds. -/
theorem PortState.notice_queuesOk (kind : Byte) (pl : List Byte) (x : PortState) (h : Safety.portQueuesOk x) :
    Safety.portQueuesOk (x.notice kind pl) := by
  obtain ⟨a, b, c⟩ := h
  refine ⟨by simpa using a, ?_, by simpa using c⟩
  simpa using x.notice_occupied kind pl b

@[simp] theorem State.notifyAll_get (s : State) (kind : Byte) (pl : List Byte) (p : Port) :
    (s.notifyAll kind pl).ports.get p = (s.ports.get p).notice kind pl := by simp [State.notifyAll]

@[simp] theorem State.notify_get_same (s : State) (kind : Byte) (pl : List Byte) (p : Port) :
    (s.notify p kind pl).ports.get p = (s.ports.get p).notice kind pl := by simp [State.notify]

theorem State.notify_get_ne (s : State) (kind : Byte) (pl : List Byte) {p q : Port} (h : q ≠ p) :
    (s.notify p kind pl).ports.get q = s.ports.get q := by simp [State.notify, State.updPort_get_ne _ _ h]

/-- A notice to every port changes the ports alone. -/
theorem State.notifyAll_eq (s : State) (kind : Byte) (pl : List Byte) :
    s.notifyAll kind pl = { s with ports := s.ports.map (PortState.notice kind pl) } := rfl

/-- A notice to one port changes that port alone. -/
theorem State.notify_eq (s : State) (p : Port) (kind : Byte) (pl : List Byte) :
    s.notify p kind pl = { s with ports := s.ports.set p ((s.ports.get p).notice kind pl) } := rfl

/-! ### The token's hand-over (R178) -/

/-- Everything a holder's leaving can do. -/
theorem leaveToken_eq (old : Port) (silent : Bool) (s : State) :
    leaveToken old silent s =
      match s.cta.waiting with
      | [] => { s with cmu := clearOwedHold s.cmu, cta := ⟨none, [], none⟩ }
      | p :: rest => ({ s with cmu := clearOwedHold s.cmu, cta := ⟨some p, rest, none⟩ } : State).notify p kToken
          (tokenPayload p old silent rest) := by
  unfold leaveToken
  cases h : s.cta.waiting <;> simp [h] <;> rfl

theorem clearOwedHold_cases (c : Cmu) :
    (∃ k, c.hold = .owed k ∧ clearOwedHold c = { c with hold := .none }) ∨
    ((∀ k, c.hold ≠ .owed k) ∧ clearOwedHold c = c) := by
  unfold clearOwedHold
  cases h : c.hold <;> simp

end Sys2Proof.Machine
end

