-- ==== Sys2Proof/Laws/Alarms.lean ====
section
/-! SUPPORT. The alarm table (R162 … R173): what an activation, a return and the annunciation pass do to the points, to the
floor and to the ports, and leave alone. -/

namespace Sys2Proof.Machine

/-! ### Ports reached by notices only -/

/-- `y` is `x` after some notices, none of them perhaps. -/
def Noticed (x y : PortState) : Prop :=
  ∀ P : PortState → Prop, (∀ kind pl z, P z → P (z.notice kind pl)) → P x → P y

theorem Noticed.refl (x : PortState) : Noticed x x := fun _ _ h => h

theorem Noticed.trans {x y z : PortState} (h : Noticed x y) (k : Noticed y z) : Noticed x z :=
  fun P hp hx => k P hp (h P hp hx)

theorem Noticed.notice (kind : Byte) (pl : List Byte) (x : PortState) : Noticed x (x.notice kind pl) :=
  fun _ hp hx => hp kind pl x hx

/-- A field that no notice changes is unchanged. -/
theorem Noticed.field {α : Type} {f : PortState → α} (hf : ∀ kind pl z, f (PortState.notice kind pl z) = f z)
    {x y : PortState} (h : Noticed x y) : f y = f x :=
  h (fun z => f z = f x) (fun kind pl z hz => (hf kind pl z).trans hz) rfl

theorem Noticed.inbound {x y : PortState} (h : Noticed x y) : y.inbound = x.inbound := h.field (by simp)
theorem Noticed.handling {x y : PortState} (h : Noticed x y) : y.handling = x.handling := h.field (by simp)
theorem Noticed.stream {x y : PortState} (h : Noticed x y) : y.stream = x.stream := h.field (by simp)
theorem Noticed.silent {x y : PortState} (h : Noticed x y) : y.silent = x.silent := h.field (by simp)
theorem Noticed.descriptors {x y : PortState} (h : Noticed x y) : y.descriptors = x.descriptors := h.field (by simp)
theorem Noticed.receiver {x y : PortState} (h : Noticed x y) : y.receiver = x.receiver := h.field (by simp)

/-- A SILENT port takes no notice. -/
theorem Noticed.of_silent {x y : PortState} (h : Noticed x y) (hs : x.silent = true) : y = x :=
  h (fun z => z = x) (fun kind pl z hz => by subst hz; exact z.notice_of_silent kind pl hs) rfl

/-- Notices keep a port's queues in their bounds. -/
theorem Noticed.queuesOk {x y : PortState} (h : Noticed x y) (hx : Safety.portQueuesOk x) : Safety.portQueuesOk y :=
  h Safety.portQueuesOk (fun kind pl z hz => z.notice_queuesOk kind pl hz) hx

/-! ### The annunciation pass (R168) -/

/-- What an event of the alarm table leaves of a table and the ports, but for the points it moves: the points keep all but
their annunciated flags, and the ports are reached by notices only. -/
structure Passed (a b : AltPorts) : Prop where
  state      : ∀ i : PointNo, (b.1.points[i]).state = (a.1.points[i]).state
  suppressed : ∀ i : PointNo, (b.1.points[i]).suppressed = (a.1.points[i]).suppressed
  count      : ∀ i : PointNo, (b.1.points[i]).count = (a.1.points[i]).count
  lastCycle  : ∀ i : PointNo, (b.1.points[i]).lastCycle = (a.1.points[i]).lastCycle
  kept       : ∀ i : PointNo, (a.1.points[i]).annunciated = true → (b.1.points[i]).annunciated = true
  order      : b.1.order = a.1.order
  ports      : ∀ p : Port, Noticed (a.2.get p) (b.2.get p)

theorem Passed.refl (a : AltPorts) : Passed a a :=
  ⟨fun _ => rfl, fun _ => rfl, fun _ => rfl, fun _ => rfl, fun _ h => h, rfl, fun _ => Noticed.refl _⟩

theorem Passed.trans {a b c : AltPorts} (h : Passed a b) (k : Passed b c) : Passed a c :=
  ⟨fun i => (k.state i).trans (h.state i), fun i => (k.suppressed i).trans (h.suppressed i),
    fun i => (k.count i).trans (h.count i), fun i => (k.lastCycle i).trans (h.lastCycle i),
    fun i x => k.kept i (h.kept i x), k.order.trans h.order, fun p => (h.ports p).trans (k.ports p)⟩

theorem Alt.setPoint_get (a : Alt) (i j : PointNo) (p : AlarmPoint) :
    ((a.setPoint i p).points[j]) = if j = i then p else a.points[j] := by
  unfold Alt.setPoint
  by_cases h : j = i
  · subst h; simp
  · have : i.val ≠ j.val := fun e => h (Fin.ext e.symm)
    simp [h, this]

@[simp] theorem refloor_points (x : AlarmCtx) (a : Alt) : (refloor x a).points = a.points := rfl
@[simp] theorem refloor_order (x : AlarmCtx) (a : Alt) : (refloor x a).order = a.order := rfl
@[simp] theorem refloor_floor (x : AlarmCtx) (a : Alt) : (refloor x a).floor = floorOf x.levels x.ceiling a.points := rfl

theorem refloor_passed (x : AlarmCtx) (ap : AltPorts) : Passed ap (refloor x ap.1, ap.2) :=
  ⟨fun _ => rfl, fun _ => rfl, fun _ => rfl, fun _ => rfl, fun _ h => h, rfl, fun _ => Noticed.refl _⟩

/-- An annunciation sets one flag and notices the ports. -/
theorem annunciate_passed (x : AlarmCtx) (i : PointNo) (ap : AltPorts) : Passed ap (annunciate x i ap) := by
  have hp : ∀ j, ((annunciate x i ap).1.points[j]) =
      if j = i then { ap.1.points[i] with annunciated := true } else ap.1.points[j] := fun j =>
    Alt.setPoint_get ap.1 i j _
  refine ⟨?_, ?_, ?_, ?_, ?_, rfl, fun p => ?_⟩
  · intro j; rw [hp]; split
    · next h => subst h; rfl
    · rfl
  · intro j; rw [hp]; split
    · next h => subst h; rfl
    · rfl
  · intro j; rw [hp]; split
    · next h => subst h; rfl
    · rfl
  · intro j; rw [hp]; split
    · next h => subst h; rfl
    · rfl
  · intro j hj; rw [hp]; split
    · rfl
    · exact hj
  · simp only [annunciate, sendAlarm, PerPort.get_map]
    exact Noticed.notice _ _ _

@[simp] theorem annunciate_floor (x : AlarmCtx) (i : PointNo) (ap : AltPorts) :
    (annunciate x i ap).1.floor = floorOf x.levels x.ceiling (annunciate x i ap).1.points := rfl

theorem annPass_passed (x : AlarmCtx) (n : Nat) (ap : AltPorts) : Passed ap (annPass x n ap) := by
  induction n generalizing ap with
  | zero => exact Passed.refl ap
  | succ n ih =>
    simp only [annPass]
    cases pickPoint x ap.1 with
    | none => exact Passed.refl ap
    | some i => exact (annunciate_passed x i ap).trans (ih _)

theorem annPass_floor (x : AlarmCtx) (n : Nat) (ap : AltPorts)
    (h : ap.1.floor = floorOf x.levels x.ceiling ap.1.points) :
    (annPass x n ap).1.floor = floorOf x.levels x.ceiling (annPass x n ap).1.points := by
  induction n generalizing ap with
  | zero => exact h
  | succ n ih =>
    simp only [annPass]
    cases pickPoint x ap.1 with
    | none => exact h
    | some i => exact ih _ (annunciate_floor x i ap)

/-- The end of an event of the alarm table moves no point, notices the ports, and leaves F as R167 gives it. -/
theorem settleAlarms_passed (x : AlarmCtx) (ap : AltPorts) : Passed ap (settleAlarms x ap) :=
  (refloor_passed x ap).trans (annPass_passed x 30 _)

theorem settleAlarms_floor (x : AlarmCtx) (ap : AltPorts) :
    (settleAlarms x ap).1.floor = floorOf x.levels x.ceiling (settleAlarms x ap).1.points :=
  annPass_floor x 30 _ rfl

/-- The pass takes its points from the entry order. -/
theorem pickPoint_mem (x : AlarmCtx) (a : Alt) (i : PointNo) (h : pickPoint x a = some i) : i ∈ a.order := by
  have key : ∀ (l : List PointNo) (b : Option PointNo), (∀ j, b = some j → j ∈ a.order) → (∀ j ∈ l, j ∈ a.order) →
      ∀ k, l.foldl (fun best i =>
        match best with
        | none => some i
        | some j => if levelOf x.levels i < levelOf x.levels j then some i else some j) b = some k → k ∈ a.order := by
    intro l
    induction l with
    | nil => exact fun b hb _ k hk => hb k hk
    | cons m l ih =>
      intro b hb hl k hk
      refine ih _ ?_ (fun j hj => hl j (List.mem_cons_of_mem _ hj)) k hk
      intro j hj
      have hm := hl m List.mem_cons_self
      cases b with
      | none => cases hj; exact hm
      | some b' =>
        dsimp only at hj
        split at hj
        · cases hj; exact hm
        · cases hj; exact hb _ rfl
  exact key _ none (by simp) (fun j hj => (List.mem_filter.mp hj).1) i h

/-- A point outside the entry order is not annunciated by the end of an event. -/
theorem settleAlarms_skips (x : AlarmCtx) (i : PointNo) (a : Alt) (ports : PerPort PortState) (hi : i ∉ a.order) :
    ((settleAlarms x (a, ports)).1.points[i]).annunciated = (a.points[i]).annunciated := by
  have key : ∀ (n : Nat) (ap : AltPorts), i ∉ ap.1.order →
      ((annPass x n ap).1.points[i]).annunciated = (ap.1.points[i]).annunciated := by
    intro n
    induction n with
    | zero => intros; rfl
    | succ n ih =>
      intro ap h
      have e : annPass x (n + 1) ap = (pickPoint x ap.1).elim ap (fun k => annPass x n (annunciate x k ap)) := by
        simp only [annPass]; cases pickPoint x ap.1 <;> rfl
      rw [e]
      rcases hp : pickPoint x ap.1 with _ | k
      · rfl
      · have hk : i ≠ k := fun e => h (e ▸ pickPoint_mem x ap.1 k hp)
        refine (ih _ ((annunciate_passed x k ap).order ▸ h)).trans ?_
        show ((ap.1.setPoint k _).points[i]).annunciated = _
        rw [Alt.setPoint_get, if_neg hk]
  exact key 30 _ hi

/-! ### Activation and return (R162 … R164) -/

/-- An event that moves one point and ends with the pass: that point's state, and every other point's. -/
theorem settleAlarms_moved (x : AlarmCtx) (i : PointNo) (p : AlarmPoint) (a : Alt) (ports : PerPort PortState)
    (b : Alt) (hb : b.points = (a.setPoint i p).points) :
    ((settleAlarms x (b, ports)).1.points[i]).state = p.state ∧
    ∀ j : PointNo, j ≠ i → ((settleAlarms x (b, ports)).1.points[j]).state = (a.points[j]).state := by
  have h := (settleAlarms_passed x (b, ports)).state
  constructor
  · rw [h]; simp only [hb, Alt.setPoint_get]; simp
  · intro j hj; rw [h]; simp only [hb, Alt.setPoint_get]; simp [hj]

@[simp] theorem suppressMark_state (x : AlarmCtx) (i : PointNo) (p : AlarmPoint) : (suppressMark x i p).state = p.state := by
  unfold suppressMark; split <;> rfl

@[simp] theorem suppressMark_annunciated (x : AlarmCtx) (i : PointNo) (p : AlarmPoint) :
    (suppressMark x i p).annunciated = p.annunciated := by
  unfold suppressMark; split <;> rfl

@[simp] theorem AlarmPoint.raised_state (x : AlarmCtx) (i : PointNo) (p : AlarmPoint) :
    (p.raised x i).state = .activeUnack := suppressMark_state ..

@[simp] theorem AlarmPoint.raised_annunciated (x : AlarmCtx) (i : PointNo) (p : AlarmPoint) :
    (p.raised x i).annunciated = false := suppressMark_annunciated ..

/-- What an activation does, by the state it finds: a raised point placed last before the pass, one placed last after it, or a
point counted where it stands. -/
theorem activatePoint_cases (x : AlarmCtx) (i : PointNo) (ap : AltPorts) :
    let p := ap.1.points[i]
    (p.state = .normal ∧
      activatePoint x i ap = settleAlarms x ((ap.1.setPoint i (p.raised x i)).placeLast i, ap.2)) ∨
    (p.state = .returnUnack ∧
      activatePoint x i ap =
        ((settleAlarms x ((ap.1.setPoint i (p.raised x i)).dropOrder i, ap.2)).1.placeLast i,
          (settleAlarms x ((ap.1.setPoint i (p.raised x i)).dropOrder i, ap.2)).2)) ∨
    ((p.state = .activeUnack ∨ p.state = .activeAck) ∧
      activatePoint x i ap = settleAlarms x (ap.1.setPoint i (suppressMark x i (p.counted x.cycle)), ap.2)) := by
  unfold activatePoint
  generalize hp : ap.1.points[i] = p
  cases h : p.state
  · exact .inl ⟨h, by simp only [h]⟩
  · exact .inr (.inr ⟨.inl h, by simp only [h]⟩)
  · exact .inr (.inr ⟨.inr h, by simp only [h]⟩)
  · exact .inr (.inl ⟨h, by simp only [h]⟩)

/-- R162: an activated point is active afterwards: ACTIVE-UNACK, or ACTIVE-ACK if it was. -/
theorem activatePoint_state (x : AlarmCtx) (i : PointNo) (ap : AltPorts) :
    ((activatePoint x i ap).1.points[i]).state =
      (if (ap.1.points[i]).state = .activeAck then .activeAck else .activeUnack) ∧
    ∀ j : PointNo, j ≠ i → ((activatePoint x i ap).1.points[j]).state = (ap.1.points[j]).state := by
  have raised := fun b => settleAlarms_moved x i ((ap.1.points[i]).raised x i) ap.1 ap.2 b
  obtain ⟨h, e⟩ | ⟨h, e⟩ | ⟨h, e⟩ := activatePoint_cases x i ap
  · rw [e, h]
    have k := raised ((ap.1.setPoint i ((ap.1.points[i]).raised x i)).placeLast i) rfl
    exact ⟨k.1.trans (AlarmPoint.raised_state ..), k.2⟩
  · rw [e, h]
    have k := raised ((ap.1.setPoint i ((ap.1.points[i]).raised x i)).dropOrder i) rfl
    exact ⟨k.1.trans (AlarmPoint.raised_state ..), k.2⟩
  · rw [e]
    have k := settleAlarms_moved x i (suppressMark x i ((ap.1.points[i]).counted x.cycle)) ap.1 ap.2 _ rfl
    refine ⟨k.1.trans ((suppressMark_state ..).trans ?_), k.2⟩
    show (ap.1.points[i]).state = _
    rcases h with h | h <;> rw [h] <;> rfl

/-- R171: an activation of a RETURN-UNACK point leaves it unannunciated, for an ACK ALARM taken next to find. -/
theorem activatePoint_again (x : AlarmCtx) (i : PointNo) (ap : AltPorts) (h : (ap.1.points[i]).state = .returnUnack)
    (hn : ap.1.order.Nodup) : ((activatePoint x i ap).1.points[i]).annunciated = false := by
  have hi : i ∉ ((ap.1.setPoint i ((ap.1.points[i]).raised x i)).dropOrder i).order :=
    fun hm => (hn.mem_erase_iff.mp hm).1 rfl
  have key := settleAlarms_skips x i _ ap.2 hi
  have hp : (((ap.1.setPoint i ((ap.1.points[i]).raised x i)).dropOrder i).points[i]).annunciated = false := by
    simp only [Alt.dropOrder, Alt.setPoint_get]
    simp
  obtain ⟨h', _⟩ | ⟨_, e⟩ | ⟨h' | h', _⟩ := activatePoint_cases x i ap
  · exact absurd (h.symm.trans h') (by decide)
  · rw [e]; exact key.trans hp
  · exact absurd (h.symm.trans h') (by decide)
  · exact absurd (h.symm.trans h') (by decide)

/-- R163: BREAK is ACTIVE-UNACK and annunciated after its activation. -/
theorem activateBreak_state (x : AlarmCtx) (ap : AltPorts) :
    ((activateBreak x ap).1.points[ptBreak]).state = .activeUnack ∧
    ((activateBreak x ap).1.points[ptBreak]).annunciated = true ∧
    ((activateBreak x ap).1.points[ptBreak]).count = min 65535 ((ap.1.points[ptBreak]).count + 1) ∧
    ∀ j : PointNo, j ≠ ptBreak → ((activateBreak x ap).1.points[j]).state = (ap.1.points[j]).state := by
  let q : AlarmPoint := { (ap.1.points[ptBreak]).counted x.cycle with state := .activeUnack }
  let a : Alt := (ap.1.setPoint ptBreak q).placeLast ptBreak
  have hq : ∀ j, a.points[j] = if j = ptBreak then q else ap.1.points[j] := fun j => Alt.setPoint_get ap.1 ptBreak j q
  have h1 := annunciate_passed x ptBreak (a, ap.2)
  have h := h1.trans (settleAlarms_passed x _)
  have hann : ((annunciate x ptBreak (a, ap.2)).1.points[ptBreak]).annunciated = true := by
    show ((a.setPoint ptBreak { a.points[ptBreak] with annunciated := true }).points[ptBreak]).annunciated = true
    rw [Alt.setPoint_get]; simp
  refine ⟨?_, ?_, ?_, ?_⟩
  · refine (h.state ptBreak).trans ?_
    show (a.points[ptBreak]).state = _
    rw [hq]; simp [q]
  · exact (settleAlarms_passed x _).kept ptBreak hann
  · refine (h.count ptBreak).trans ?_
    show (a.points[ptBreak]).count = _
    rw [hq]; simp [q, AlarmPoint.counted, satInc]
  · intro j hj
    refine (h.state j).trans ?_
    show (a.points[j]).state = _
    rw [hq]; simp [hj]

/-- R164: a returned point is NORMAL, or RETURN-UNACK when it waits for its acknowledgement. -/
theorem returnPoint_state (x : AlarmCtx) (i : PointNo) (ap : AltPorts) :
    ((returnPoint x i ap).1.points[i]).state ∈ [PointState.normal, .returnUnack] ∧
    ∀ j : PointNo, j ≠ i → ((returnPoint x i ap).1.points[j]).state = (ap.1.points[j]).state := by
  have key : ∃ a : Alt, returnPoint x i ap = settleAlarms x (a, ap.2) ∧
      (a.points[i]).state ∈ [PointState.normal, .returnUnack] ∧
      ∀ j : PointNo, j ≠ i → (a.points[j]).state = (ap.1.points[j]).state := by
    refine ⟨_, rfl, ?_, ?_⟩
    · split
      · simp only [Alt.setPoint_get]; simp
      · split <;> simp only [Alt.dropOrder, Alt.setPoint_get] <;> simp
      · next h => rw [h]; decide
      · next h => rw [h]; decide
    · intro j hj
      split
      · simp only [Alt.setPoint_get]; simp [hj]
      · split <;> simp only [Alt.dropOrder, Alt.setPoint_get] <;> simp [hj]
      · rfl
      · rfl
  obtain ⟨a, e, h1, h2⟩ := key
  rw [e]
  refine ⟨?_, fun j hj => ((settleAlarms_passed x _).state j).trans (h2 j hj)⟩
  rw [(settleAlarms_passed x (a, ap.2)).state i]
  exact h1

/-! ### Frames: an event of the alarm table changes the table and the ports alone -/

section
variable (s : State) (i : PointNo)

@[simp] theorem State.activate_held : (s.activate i).held = s.held := rfl
@[simp] theorem State.activate_rst : (s.activate i).rst = s.rst := rfl
@[simp] theorem State.activate_rate : (s.activate i).rate = s.rate := rfl
@[simp] theorem State.activate_cmu : (s.activate i).cmu = s.cmu := rfl
@[simp] theorem State.activate_drive : (s.activate i).drive = s.drive := rfl
@[simp] theorem State.activate_hbc : (s.activate i).hbc = s.hbc := rfl
@[simp] theorem State.activate_osq : (s.activate i).osq = s.osq := rfl
@[simp] theorem State.activate_scv : (s.activate i).scv = s.scv := rfl
@[simp] theorem State.activate_rbs : (s.activate i).rbs = s.rbs := rfl
@[simp] theorem State.activate_ebm : (s.activate i).ebm = s.ebm := rfl
@[simp] theorem State.activate_pen : (s.activate i).pen = s.pen := rfl
@[simp] theorem State.activate_azm : (s.activate i).azm = s.azm := rfl
@[simp] theorem State.activate_msm : (s.activate i).msm = s.msm := rfl
@[simp] theorem State.activate_cta : (s.activate i).cta = s.cta := rfl
@[simp] theorem State.activate_pending : (s.activate i).pending = s.pending := rfl

@[simp] theorem State.returnAlarm_held : (s.returnAlarm i).held = s.held := rfl
@[simp] theorem State.returnAlarm_rst : (s.returnAlarm i).rst = s.rst := rfl
@[simp] theorem State.returnAlarm_rate : (s.returnAlarm i).rate = s.rate := rfl
@[simp] theorem State.returnAlarm_cmu : (s.returnAlarm i).cmu = s.cmu := rfl
@[simp] theorem State.returnAlarm_drive : (s.returnAlarm i).drive = s.drive := rfl
@[simp] theorem State.returnAlarm_hbc : (s.returnAlarm i).hbc = s.hbc := rfl
@[simp] theorem State.returnAlarm_osq : (s.returnAlarm i).osq = s.osq := rfl
@[simp] theorem State.returnAlarm_scv : (s.returnAlarm i).scv = s.scv := rfl
@[simp] theorem State.returnAlarm_rbs : (s.returnAlarm i).rbs = s.rbs := rfl
@[simp] theorem State.returnAlarm_ebm : (s.returnAlarm i).ebm = s.ebm := rfl
@[simp] theorem State.returnAlarm_pen : (s.returnAlarm i).pen = s.pen := rfl
@[simp] theorem State.returnAlarm_azm : (s.returnAlarm i).azm = s.azm := rfl
@[simp] theorem State.returnAlarm_msm : (s.returnAlarm i).msm = s.msm := rfl
@[simp] theorem State.returnAlarm_cta : (s.returnAlarm i).cta = s.cta := rfl
@[simp] theorem State.returnAlarm_pending : (s.returnAlarm i).pending = s.pending := rfl

@[simp] theorem State.unsuppressAll_held : (s.unsuppressAll).held = s.held := rfl
@[simp] theorem State.unsuppressAll_rst : (s.unsuppressAll).rst = s.rst := rfl
@[simp] theorem State.unsuppressAll_rate : (s.unsuppressAll).rate = s.rate := rfl
@[simp] theorem State.unsuppressAll_cmu : (s.unsuppressAll).cmu = s.cmu := rfl
@[simp] theorem State.unsuppressAll_drive : (s.unsuppressAll).drive = s.drive := rfl
@[simp] theorem State.unsuppressAll_hbc : (s.unsuppressAll).hbc = s.hbc := rfl
@[simp] theorem State.unsuppressAll_osq : (s.unsuppressAll).osq = s.osq := rfl
@[simp] theorem State.unsuppressAll_scv : (s.unsuppressAll).scv = s.scv := rfl
@[simp] theorem State.unsuppressAll_rbs : (s.unsuppressAll).rbs = s.rbs := rfl
@[simp] theorem State.unsuppressAll_ebm : (s.unsuppressAll).ebm = s.ebm := rfl
@[simp] theorem State.unsuppressAll_pen : (s.unsuppressAll).pen = s.pen := rfl
@[simp] theorem State.unsuppressAll_azm : (s.unsuppressAll).azm = s.azm := rfl
@[simp] theorem State.unsuppressAll_msm : (s.unsuppressAll).msm = s.msm := rfl
@[simp] theorem State.unsuppressAll_cta : (s.unsuppressAll).cta = s.cta := rfl
@[simp] theorem State.unsuppressAll_pending : (s.unsuppressAll).pending = s.pending := rfl

@[simp] theorem State.relevel_held : (s.relevel).held = s.held := rfl
@[simp] theorem State.relevel_rst : (s.relevel).rst = s.rst := rfl
@[simp] theorem State.relevel_rate : (s.relevel).rate = s.rate := rfl
@[simp] theorem State.relevel_cmu : (s.relevel).cmu = s.cmu := rfl
@[simp] theorem State.relevel_drive : (s.relevel).drive = s.drive := rfl
@[simp] theorem State.relevel_hbc : (s.relevel).hbc = s.hbc := rfl
@[simp] theorem State.relevel_osq : (s.relevel).osq = s.osq := rfl
@[simp] theorem State.relevel_scv : (s.relevel).scv = s.scv := rfl
@[simp] theorem State.relevel_rbs : (s.relevel).rbs = s.rbs := rfl
@[simp] theorem State.relevel_ebm : (s.relevel).ebm = s.ebm := rfl
@[simp] theorem State.relevel_pen : (s.relevel).pen = s.pen := rfl
@[simp] theorem State.relevel_azm : (s.relevel).azm = s.azm := rfl
@[simp] theorem State.relevel_msm : (s.relevel).msm = s.msm := rfl
@[simp] theorem State.relevel_cta : (s.relevel).cta = s.cta := rfl
@[simp] theorem State.relevel_pending : (s.relevel).pending = s.pending := rfl

end

/-- Returns of several points change the alarm table and the ports alone. -/
theorem State.returnAlarms_eq (is : List PointNo) (s : State) :
    s.returnAlarms is = (s.withAlt (s.returnAlarms is).alt).withPorts (s.returnAlarms is).ports := by
  unfold State.returnAlarms
  induction is generalizing s with
  | nil => rfl
  | cons i is ih => rw [List.foldl_cons, ih (s.returnAlarm i)]; rfl

section
variable (s : State) (is : List PointNo)

@[simp] theorem State.returnAlarms_held : (s.returnAlarms is).held = s.held := by rw [State.returnAlarms_eq]; rfl
@[simp] theorem State.returnAlarms_rst : (s.returnAlarms is).rst = s.rst := by rw [State.returnAlarms_eq]; rfl
@[simp] theorem State.returnAlarms_rate : (s.returnAlarms is).rate = s.rate := by rw [State.returnAlarms_eq]; rfl
@[simp] theorem State.returnAlarms_cmu : (s.returnAlarms is).cmu = s.cmu := by rw [State.returnAlarms_eq]; rfl
@[simp] theorem State.returnAlarms_drive : (s.returnAlarms is).drive = s.drive := by rw [State.returnAlarms_eq]; rfl
@[simp] theorem State.returnAlarms_hbc : (s.returnAlarms is).hbc = s.hbc := by rw [State.returnAlarms_eq]; rfl
@[simp] theorem State.returnAlarms_osq : (s.returnAlarms is).osq = s.osq := by rw [State.returnAlarms_eq]; rfl
@[simp] theorem State.returnAlarms_scv : (s.returnAlarms is).scv = s.scv := by rw [State.returnAlarms_eq]; rfl
@[simp] theorem State.returnAlarms_rbs : (s.returnAlarms is).rbs = s.rbs := by rw [State.returnAlarms_eq]; rfl
@[simp] theorem State.returnAlarms_ebm : (s.returnAlarms is).ebm = s.ebm := by rw [State.returnAlarms_eq]; rfl
@[simp] theorem State.returnAlarms_pen : (s.returnAlarms is).pen = s.pen := by rw [State.returnAlarms_eq]; rfl
@[simp] theorem State.returnAlarms_azm : (s.returnAlarms is).azm = s.azm := by rw [State.returnAlarms_eq]; rfl
@[simp] theorem State.returnAlarms_msm : (s.returnAlarms is).msm = s.msm := by rw [State.returnAlarms_eq]; rfl
@[simp] theorem State.returnAlarms_cta : (s.returnAlarms is).cta = s.cta := by rw [State.returnAlarms_eq]; rfl
@[simp] theorem State.returnAlarms_pending : (s.returnAlarms is).pending = s.pending := by rw [State.returnAlarms_eq]; rfl

end

theorem State.setAlarm_eq (s : State) (i : PointNo) (on : Bool) :
    s.setAlarm i on = (s.withAlt (s.setAlarm i on).alt).withPorts (s.setAlarm i on).ports := by
  unfold State.setAlarm; split <;> rfl

/-! ### Activation and return on the state -/

/-- An owner's activation leaves its point active. -/
theorem State.activate_active (s : State) (i : PointNo) : Safety.alarmActive (s.activate i) i := by
  by_cases h : i = ptBreak
  · subst h
    exact Or.inl (by simpa [State.activate, State.withAlarms, State.alarms] using (activateBreak_state s.alarmCtx s.alarms).1)
  · have h1 := (activatePoint_state s.alarmCtx i s.alarms).1
    unfold Safety.alarmActive
    simp only [State.activate, h, if_false, State.withAlarms, State.withPorts_alt, State.withAlt_alt]
    rw [h1]
    split <;> simp

/-- An owner's return leaves its point NORMAL or RETURN-UNACK. -/
theorem State.returnAlarm_over (s : State) (i : PointNo) :
    ((s.returnAlarm i).alt.points[i]).state ∈ [PointState.normal, .returnUnack] :=
  (returnPoint_state s.alarmCtx i s.alarms).1

/-- An owner's activation of a point moves no other point. -/
theorem State.activate_other (s : State) {i j : PointNo} (h : j ≠ i) :
    ((s.activate i).alt.points[j]).state = (s.alt.points[j]).state := by
  by_cases hb : i = ptBreak
  · subst hb
    simpa [State.activate, State.withAlarms, State.alarms] using (activateBreak_state s.alarmCtx s.alarms).2.2.2 j h
  · simpa [State.activate, hb, State.withAlarms, State.alarms] using (activatePoint_state s.alarmCtx i s.alarms).2 j h

theorem State.returnAlarm_other (s : State) {i j : PointNo} (h : j ≠ i) :
    ((s.returnAlarm i).alt.points[j]).state = (s.alt.points[j]).state :=
  (returnPoint_state s.alarmCtx i s.alarms).2 j h

end Sys2Proof.Machine
end

