-- ==== Sys2Proof/Laws/Drive.lean ====
section
/-! SUPPORT. The drive output (R6, R7), the sampled lines (R1, R8, R11, R142), and the rounding of 00_scope. -/

namespace Sys2Proof.Machine

/-! ### Sampled lines -/

/-- Two agreeing samples leave the line confirmed at their level, whatever it was. -/
theorem confirmLine_two (lvl : Bool) (d : Sampled) : confirmLine 2 lvl d = ⟨some lvl, 2, some lvl⟩ := by
  obtain ⟨last, run, conf⟩ := d
  by_cases h : last = some lvl
  · simp only [confirmLine, sampleLines, sampleLine, h, if_true]
    simp
  · simp [confirmLine, sampleLines, sampleLine, h]

/-- Three agreeing samples leave the line confirmed at their level, whatever it was. -/
theorem confirmLine_three (lvl : Bool) (d : Sampled) : confirmLine 3 lvl d = ⟨some lvl, 3, some lvl⟩ := by
  obtain ⟨last, run, conf⟩ := d
  by_cases h : last = some lvl
  · simp only [confirmLine, sampleLines, sampleLine, h, if_true]
    simp
  · simp [confirmLine, sampleLines, sampleLine, h]

/-! ### Rounding -/

/-- A quotient rounded half up lies within half a unit of the quotient. -/
theorem roundHalfUp_spec (a : Nat) {b : Nat} (hb : 0 < b) :
    2 * b * roundHalfUp a b ≤ 2 * a + b ∧ 2 * a + b < 2 * b * (roundHalfUp a b + 1) := by
  have h : 0 < 2 * b := by omega
  exact ⟨Nat.mul_div_le _ _, by simpa [roundHalfUp, Nat.mul_add] using Nat.lt_mul_div_succ (2 * a + b) h⟩

theorem satInc_le (top n : Nat) : satInc top n ≤ top := by simp [satInc]

/-! ### Putting a command in force -/

section
variable (v : Int) (d : Drive)

@[simp] theorem Drive.send_out : (d.send v).out = v := rfl
@[simp] theorem Drive.send_word : (d.send v).word = driveWord v := rfl
@[simp] theorem Drive.send_wanted : (d.send v).wanted = d.wanted := rfl
@[simp] theorem Drive.send_dwell : (d.send v).dwell = d.dwell := rfl
@[simp] theorem Drive.send_stall :
    (d.send v).stall = if v = 0 then none else if d.out = 0 then some 0 else d.stall := rfl
@[simp] theorem Drive.settle_wanted : d.settle.wanted = d.wanted := by
  unfold Drive.settle
  split <;> [rfl; split <;> [rfl; split <;> rfl]]

/-- Everything the end of an event can do to the drive (R6). -/
theorem Drive.settle_cases :
    (d.dwell ≠ none ∧ d.settle = d) ∨
    (d.dwell = none ∧ d.wanted = d.out ∧ d.settle = d) ∨
    (d.dwell = none ∧ d.wanted ≠ d.out ∧ d.wanted * d.out < 0 ∧ d.settle = { d.send 0 with dwell := some ⟨0, 0⟩ }) ∨
    (d.dwell = none ∧ d.wanted ≠ d.out ∧ 0 ≤ d.wanted * d.out ∧ d.settle = d.send d.wanted) := by
  unfold Drive.settle
  cases hd : d.dwell with
  | some w => simp
  | none =>
    by_cases he : d.wanted = d.out
    · simp [he]
    · by_cases hn : d.wanted * d.out < 0
      · simp [he, hn]
      · simp [he, hn]; omega

/-- A drive for which no command waits is left as it is. -/
theorem Drive.settle_of_settled (h : d.dwell = none → d.out = d.wanted) : d.settle = d := by
  unfold Drive.settle
  cases hd : d.dwell with
  | some w => rfl
  | none => simp [(h hd).symm]

end

/-- A state for which no command waits is left as it is. -/
theorem State.settleDrive_of_settled {s : State} (h : Safety.driveSettled s) : s.settleDrive = s := by
  simp [State.settleDrive, Drive.settle_of_settled _ h]

/-! ### Frames -/

section
variable (s : State) (v : Int)

@[simp] theorem State.settleDrive_held  : (s.settleDrive).held = s.held := rfl
@[simp] theorem State.settleDrive_rst  : (s.settleDrive).rst = s.rst := rfl
@[simp] theorem State.settleDrive_rate  : (s.settleDrive).rate = s.rate := rfl
@[simp] theorem State.settleDrive_cmu  : (s.settleDrive).cmu = s.cmu := rfl
@[simp] theorem State.settleDrive_hbc  : (s.settleDrive).hbc = s.hbc := rfl
@[simp] theorem State.settleDrive_osq  : (s.settleDrive).osq = s.osq := rfl
@[simp] theorem State.settleDrive_scv  : (s.settleDrive).scv = s.scv := rfl
@[simp] theorem State.settleDrive_rbs  : (s.settleDrive).rbs = s.rbs := rfl
@[simp] theorem State.settleDrive_ebm  : (s.settleDrive).ebm = s.ebm := rfl
@[simp] theorem State.settleDrive_pen  : (s.settleDrive).pen = s.pen := rfl
@[simp] theorem State.settleDrive_azm  : (s.settleDrive).azm = s.azm := rfl
@[simp] theorem State.settleDrive_msm  : (s.settleDrive).msm = s.msm := rfl
@[simp] theorem State.settleDrive_alt  : (s.settleDrive).alt = s.alt := rfl
@[simp] theorem State.settleDrive_cta  : (s.settleDrive).cta = s.cta := rfl
@[simp] theorem State.settleDrive_ports  : (s.settleDrive).ports = s.ports := rfl
@[simp] theorem State.settleDrive_pending  : (s.settleDrive).pending = s.pending := rfl
@[simp] theorem State.settleDrive_wanted : s.settleDrive.drive.wanted = s.drive.wanted := by simp [State.settleDrive]

@[simp] theorem want_held  : (want v s).held = s.held := rfl
@[simp] theorem want_rst  : (want v s).rst = s.rst := rfl
@[simp] theorem want_rate  : (want v s).rate = s.rate := rfl
@[simp] theorem want_cmu  : (want v s).cmu = s.cmu := rfl
@[simp] theorem want_hbc  : (want v s).hbc = s.hbc := rfl
@[simp] theorem want_osq  : (want v s).osq = s.osq := rfl
@[simp] theorem want_scv  : (want v s).scv = s.scv := rfl
@[simp] theorem want_rbs  : (want v s).rbs = s.rbs := rfl
@[simp] theorem want_ebm  : (want v s).ebm = s.ebm := rfl
@[simp] theorem want_pen  : (want v s).pen = s.pen := rfl
@[simp] theorem want_azm  : (want v s).azm = s.azm := rfl
@[simp] theorem want_msm  : (want v s).msm = s.msm := rfl
@[simp] theorem want_alt  : (want v s).alt = s.alt := rfl
@[simp] theorem want_cta  : (want v s).cta = s.cta := rfl
@[simp] theorem want_ports  : (want v s).ports = s.ports := rfl
@[simp] theorem want_pending  : (want v s).pending = s.pending := rfl
@[simp] theorem want_wanted : (want v s).drive.wanted = v := rfl

end

end Sys2Proof.Machine
end

