-- ==== Sys2Proof/Laws/Motion.lean ====
section
/-! SUPPORT. The carriage's moves (R11 … R22, R47, R54, R86, R87, R183): the blocks a move leaves alone, where the choice of
motion sends the carriage, an override that waits for counts (R127), and the edge watch at its close (R91). -/

namespace Sys2Proof.Machine

/-! ### The blocks no move of the carriage touches -/

/-- `t` differs from `s` in no block that the carriage does not move: the reset line, the head bus, the converter, the zones
and the machine monitor are the same, and so are the queue of commands, the common bank, the banks, the store of profiles,
its pins and counter, and the last profile's carry. -/
structure Aside (s t : State) : Prop where
  held    : t.held = s.held
  rst     : t.rst = s.rst
  rate    : t.rate = s.rate
  hbc     : t.hbc = s.hbc
  scv     : t.scv = s.scv
  azm     : t.azm = s.azm
  msm     : t.msm = s.msm
  pending : t.pending = s.pending
  common  : t.rbs.common = s.rbs.common
  banks   : t.rbs.banks = s.rbs.banks
  slots   : t.pen.slots = s.pen.slots
  pins    : t.pen.pins = s.pen.pins
  counter : t.pen.counter = s.pen.counter
  last    : t.pen.lastScan = s.pen.lastScan
  carry   : t.pen.carry = s.pen.carry
  edges   : t.ebm.ef = s.ebm.ef ∧ t.ebm.eb = s.ebm.eb ∧ t.ebm.map = s.ebm.map ∧ t.ebm.report = s.ebm.report
  ports   : ∀ p : Port, Noticed (s.ports.get p) (t.ports.get p)

theorem Aside.refl (s : State) : Aside s s :=
  ⟨rfl, rfl, rfl, rfl, rfl, rfl, rfl, rfl, rfl, rfl, rfl, rfl, rfl, rfl, rfl, ⟨rfl, rfl, rfl, rfl⟩,
    fun _ => Noticed.refl _⟩

theorem Aside.trans {s t u : State} (h : Aside s t) (k : Aside t u) : Aside s u :=
  ⟨k.held.trans h.held, k.rst.trans h.rst, k.rate.trans h.rate, k.hbc.trans h.hbc, k.scv.trans h.scv, k.azm.trans h.azm,
    k.msm.trans h.msm, k.pending.trans h.pending, k.common.trans h.common, k.banks.trans h.banks, k.slots.trans h.slots,
    k.pins.trans h.pins, k.counter.trans h.counter, k.last.trans h.last, k.carry.trans h.carry,
    ⟨k.edges.1.trans h.edges.1, k.edges.2.1.trans h.edges.2.1, k.edges.2.2.1.trans h.edges.2.2.1,
      k.edges.2.2.2.trans h.edges.2.2.2⟩, fun p => (h.ports p).trans (k.ports p)⟩

/-- An update of the carriage, the drive, the sequencer or the arbiter leaves the rest aside. -/
theorem aside_withCmu (s : State) (x : Cmu) : Aside s (s.withCmu x) := { Aside.refl s with held := rfl }
theorem aside_withDrive (s : State) (x : Drive) : Aside s (s.withDrive x) := { Aside.refl s with held := rfl }
theorem aside_withOsq (s : State) (x : Osq) : Aside s (s.withOsq x) := { Aside.refl s with held := rfl }
theorem aside_withCta (s : State) (x : Cta) : Aside s (s.withCta x) := { Aside.refl s with held := rfl }
theorem aside_withRbs (s : State) (x : Rbs) (hc : x.common = s.rbs.common) (hb : x.banks = s.rbs.banks) :
    Aside s (s.withRbs x) := { Aside.refl s with held := rfl, common := hc, banks := hb }
theorem aside_withPen (s : State) (x : Pen) (hs : x.slots = s.pen.slots) (hp : x.pins = s.pen.pins)
    (hc : x.counter = s.pen.counter) (hl : x.lastScan = s.pen.lastScan) (ha : x.carry = s.pen.carry) :
    Aside s (s.withPen x) :=
  { Aside.refl s with held := rfl, slots := hs, pins := hp, counter := hc, last := hl, carry := ha }
theorem aside_want (v : Int) (s : State) : Aside s (want v s) := aside_withDrive s _
theorem aside_settleDrive (s : State) : Aside s s.settleDrive := aside_withDrive s _

theorem aside_setCarriage (st : CarriageState) (s : State) : Aside s (setCarriage st s) :=
  { Aside.refl s with held := rfl }

theorem aside_abortTraverse (s : State) : Aside s (abortTraverse s) := by
  unfold abortTraverse; split
  · exact { Aside.refl s with held := rfl }
  · exact Aside.refl s

theorem aside_returnAlarm (s : State) (i : PointNo) : Aside s (s.returnAlarm i) :=
  { Aside.refl s with
    held := rfl
    ports := fun p => by
      obtain ⟨a, e⟩ : ∃ a : Alt, returnPoint s.alarmCtx i s.alarms = settleAlarms s.alarmCtx (a, s.ports) := ⟨_, rfl⟩
      simp only [State.returnAlarm, State.withAlarms, State.withPorts_ports, e]
      exact (settleAlarms_passed s.alarmCtx (a, s.ports)).ports p }

theorem aside_returnAlarms (is : List PointNo) (s : State) : Aside s (s.returnAlarms is) := by
  unfold State.returnAlarms
  induction is generalizing s with
  | nil => exact Aside.refl s
  | cons i is ih => exact (aside_returnAlarm s i).trans (ih _)

theorem aside_applyGrade (k : BankNo) (s : State) : Aside s (applyGrade k s) := by
  unfold applyGrade; split
  · exact Aside.refl s
  · exact ((aside_withRbs s _ (by rfl) (by rfl)).trans (aside_withPen _ _ (by rfl) (by rfl) (by rfl) (by rfl)
      (by rfl))).trans (aside_returnAlarms _ _)

theorem aside_applyPendingGrade (s : State) : Aside s (applyPendingGrade s) := by
  unfold applyPendingGrade; split
  · exact Aside.refl s
  · exact (aside_withRbs s _ (by rfl) (by rfl)).trans (aside_applyGrade _ _)

theorem aside_setDue (s : State) : Aside s (setDue s) := by
  unfold setDue; split
  · exact Aside.refl s
  · exact aside_withOsq s _

theorem aside_intervalCheck (s : State) : Aside s (intervalCheck s) := by
  unfold intervalCheck; split
  · exact aside_setDue s
  · exact Aside.refl s

theorem aside_applyPlan (p : ScanPlan) (s : State) : Aside s (applyPlan p s) :=
  ((aside_withCmu s _).trans (aside_withCta _ _)).trans (aside_intervalCheck _)

theorem aside_applyPendingPlan (s : State) : Aside s (applyPendingPlan s) := by
  unfold applyPendingPlan; split
  · exact Aside.refl s
  · exact aside_applyPlan _ s

theorem aside_travel (st : CarriageState) (x : Int) (d : Dir) (a : Approach) (v : Nat) (s : State) :
    Aside s (travel st x d a v s) :=
  ((aside_setCarriage st s).trans (aside_withCmu _ _)).trans (aside_want _ _)

theorem aside_enterTurning (d : Dir) (s : State) : Aside s (enterTurning d s) :=
  ((aside_setCarriage _ s).trans (aside_withCmu _ _)).trans (aside_want _ _)

theorem aside_computeLimits (s : State) : Aside s (computeLimits s) := aside_withCmu s _

theorem aside_goLimit (s : State) : Aside s (goLimit s) := by
  refine (aside_computeLimits s).trans ?_
  simp only [goLimit]
  repeat' split
  all_goals first | exact aside_enterTurning _ _ | exact aside_travel _ _ _ _ _ _

theorem aside_comeToRest (st : CarriageState) (s : State) : Aside s (comeToRest st s) :=
  ((aside_setCarriage st s).trans (aside_withCmu _ _)).trans (aside_want _ _)

theorem aside_arriveStd (s : State) : Aside s (arriveStd s) := (aside_comeToRest _ s).trans (aside_withOsq _ _)

theorem aside_goStd (s : State) : Aside s (goStd s) := by
  unfold goStd; dsimp only; split
  · exact (aside_travel _ _ _ _ _ s).trans (aside_arriveStd _)
  · exact aside_travel _ _ _ _ _ s

theorem aside_openStd (s : State) : Aside s (openStd s) := (aside_withCmu s _).trans (aside_withOsq _ _)

theorem aside_beginStd (s : State) : Aside s (beginStd s) := (aside_openStd s).trans (aside_goStd _)

theorem aside_retakeStd (s : State) : Aside s (retakeStd s) := (aside_openStd s).trans (aside_arriveStd _)

theorem aside_takeStd (s : State) : Aside s (takeStd s) := (aside_abortTraverse s).trans (aside_beginStd _)

theorem aside_osqOccasion (s : State) : Aside s (osqOccasion s) := by
  unfold osqOccasion; split
  · exact aside_takeStd s
  · exact Aside.refl s

theorem aside_goPark {next : State → State} (hn : ∀ u, Aside u (next u)) (s : State) : Aside s (goPark next s) := by
  unfold goPark; split
  · exact Aside.refl s
  · dsimp only; split
    · exact ((((aside_travel _ _ _ _ _ s).trans (aside_comeToRest _ _)).trans (aside_applyPendingGrade _)).trans
        (aside_applyPendingPlan _)).trans (hn _)
    · exact aside_travel _ _ _ _ _ s

theorem aside_arriveFixed {next : State → State} (hn : ∀ u, Aside u (next u)) (s : State) :
    Aside s (arriveFixed next s) := by
  have h := ((aside_comeToRest .fixed s).trans (aside_applyPendingGrade _)).trans (aside_applyPendingPlan _)
  unfold arriveFixed; dsimp only; split
  · exact h.trans (aside_takeStd _)
  · split
    · exact h
    · exact h.trans (hn _)

theorem aside_goFixed {next : State → State} (hn : ∀ u, Aside u (next u)) (s : State) : Aside s (goFixed next s) := by
  unfold goFixed; dsimp only; split
  · exact (aside_travel _ _ _ _ _ s).trans (aside_arriveFixed hn _)
  · exact aside_travel _ _ _ _ _ s

/-- The choice of motion leaves aside every block but the carriage's own and the ones that follow it. -/
theorem aside_nextMotion (n : Nat) (s : State) : Aside s (nextMotion n s) := by
  induction n generalizing s with
  | zero => exact Aside.refl s
  | succ n ih =>
    unfold nextMotion
    split
    · exact aside_takeStd s
    · split
      · exact aside_goPark ih s
      · split
        · exact aside_goPark ih s
        · exact aside_goFixed ih s
        · exact aside_goLimit s

theorem aside_nextMove (s : State) : Aside s (nextMove s) := aside_nextMotion _ s

theorem aside_takeOverride (s : State) : Aside s (takeOverride s) := by
  refine (aside_withCmu s { s.cmu with overrideWait := 0 }).trans ?_
  simp only [takeOverride]
  split
  · exact ((aside_abortTraverse _).trans (aside_withCmu _ _)).trans (aside_goPark aside_nextMove _)
  · exact Aside.refl _

theorem aside_raiseOverride (o : OverrideOrder) (s : State) : Aside s (raiseOverride o s) := by
  unfold raiseOverride; split
  · exact aside_takeOverride s
  · split
    · exact aside_withCmu s _
    · exact Aside.refl s

theorem aside_overrideCleared (was : Bool) (s : State) : Aside s (overrideCleared was s) := by
  unfold overrideCleared
  split
  · have h : Aside s (if s.cmu.plan.resume then s
        else s.withCmu { s.cmu with plan := { s.cmu.plan with mode := .park } }) := by
      split
      · exact Aside.refl s
      · exact aside_withCmu s _
    revert h
    generalize (if s.cmu.plan.resume = true then s
        else s.withCmu { s.cmu with plan := { s.cmu.plan with mode := .park } }) = u
    intro h
    show Aside s (if u.cmu.state = .parked then nextMove u else u)
    split
    · exact h.trans (aside_nextMove _)
    · exact h
  · exact Aside.refl s

theorem aside_flushOverride (s : State) : Aside s (flushOverride s) := by
  unfold flushOverride; split
  · exact (aside_takeOverride s).trans (aside_settleDrive _)
  · exact Aside.refl s

theorem aside_overrideAfterCount (was : CarriageState) (s : State) : Aside s (overrideAfterCount was s) := by
  unfold overrideAfterCount; split
  · exact aside_withCmu s _
  · exact aside_flushOverride s

/-! ### An override still to be taken (R22, R127) -/

theorem overrideUntaken_eq_false (c : Cmu) : c.overrideUntaken = false ↔ c.overrideWait = 0 := by
  simp [Cmu.overrideUntaken]

theorem flushOverride_of_taken {s : State} (h : s.cmu.overrideUntaken = false) : flushOverride s = s := by
  simp [flushOverride, h]

/-- A count that leaves the carriage state as it was is one count fewer to wait for. -/
theorem overrideAfterCount_of_waits {s : State} (h : 2 ≤ s.cmu.overrideWait) :
    overrideAfterCount s.cmu.state s = s.withCmu { s.cmu with overrideWait := s.cmu.overrideWait - 1 } := by
  simp [overrideAfterCount, h]

/-- With no override waiting, a count is followed by nothing. -/
theorem overrideAfterCount_of_taken (was : CarriageState) {s : State} (h : s.cmu.overrideWait = 0) :
    overrideAfterCount was s = s := by
  simp [overrideAfterCount, flushOverride, Cmu.overrideUntaken, h]

/-! ### Where a move sends the carriage -/

@[simp] theorem setCarriage_state (st : CarriageState) (s : State) : (setCarriage st s).cmu.state = st := rfl
@[simp] theorem setCarriage_position (st : CarriageState) (s : State) :
    (setCarriage st s).cmu.position = s.cmu.position := rfl
@[simp] theorem setCarriage_drive (st : CarriageState) (s : State) : (setCarriage st s).drive = s.drive := rfl
@[simp] theorem travel_state (st : CarriageState) (x : Int) (d : Dir) (a : Approach) (v : Nat) (s : State) :
    (travel st x d a v s).cmu.state = st := rfl
@[simp] theorem travel_position (st : CarriageState) (x : Int) (d : Dir) (a : Approach) (v : Nat) (s : State) :
    (travel st x d a v s).cmu.position = s.cmu.position := rfl
@[simp] theorem travel_target (st : CarriageState) (x : Int) (d : Dir) (a : Approach) (v : Nat) (s : State) :
    (travel st x d a v s).cmu.travelTarget = x := rfl
@[simp] theorem enterTurning_state (d : Dir) (s : State) : (enterTurning d s).cmu.state = .turning := rfl
@[simp] theorem comeToRest_state (st : CarriageState) (s : State) : (comeToRest st s).cmu.state = st := rfl
@[simp] theorem arriveStd_state (s : State) : (arriveStd s).cmu.state = .atStd := rfl

/-- R14: the carriage is sent TO_LIMIT or turns at once. -/
theorem goLimit_state (s : State) : (goLimit s).cmu.state ∈ [CarriageState.toLimit, .turning] := by
  simp only [goLimit]
  repeat' split
  all_goals simp

/-- R15, R47: a standardization sends the carriage TO_STD, or finds it there. -/
theorem goStd_state (s : State) :
    (goStd s).cmu.state = (if s.cmu.position = s.rbs.common.stdPos then .atStd else .toStd) := by
  unfold goStd; dsimp only
  rw [travel_position]
  split <;> rfl

/-- R16, R22: an abort leaves the carriage where and as it is, but owes a retraverse. -/
theorem abortTraverse_cmu (s : State) :
    (abortTraverse s).cmu =
      if s.cmu.inTraverse then { s.cmu with retraverseOwed := true } else s.cmu := by
  unfold abortTraverse; split <;> simp_all

theorem abortTraverse_window (s : State) (h : s.cmu.inTraverse = true) :
    (abortTraverse s).pen.window = none ∧ (abortTraverse s).ebm.watch.opened = false := by
  simp [abortTraverse, h, watchClosed]

/-! R43: a controller restart's abort leaves the heads, a held REFERENCE and the cycle's record as they are. -/

@[simp] theorem abandonUntilReset_heads (h : Hbc) : (abandonUntilReset h).heads = h.heads := rfl
@[simp] theorem abandonUntilReset_heldRef (h : Hbc) : (abandonUntilReset h).heldRef = h.heldRef := rfl
@[simp] theorem abandonUntilReset_record (h : Hbc) : (abandonUntilReset h).record = h.record := rfl
@[simp] theorem abandonUntilReset_resetPending (h : Hbc) : (abandonUntilReset h).resetPending = h.resetPending := rfl

/-- R40, R43: the sequence in flight is the same but for its mode. -/
theorem abandonUntilReset_seq (h : Hbc) :
    (abandonUntilReset h).seq = h.seq.map (fun q => { q with abandoned := true }) := rfl

/-- R47: the taking of a standardization leaves the carriage in TO_STD or AT_STD, and the sequencer with it. -/
theorem takeStd_state (s : State) :
    ((takeStd s).cmu.state = .toStd ∧ (takeStd s).osq.step = .travel) ∨
    ((takeStd s).cmu.state = .atStd ∧ (takeStd s).osq.step = .settle) := by
  simp only [takeStd, beginStd, goStd]
  split
  · exact Or.inr ⟨rfl, rfl⟩
  · exact Or.inl ⟨rfl, rfl⟩

/-- R55: a standardization taken again stands AT_STD in SETTLE, wherever the carriage is. -/
theorem retakeStd_state (s : State) :
    (retakeStd s).cmu.state = .atStd ∧ (retakeStd s).osq.step = .settle ∧ (retakeStd s).osq.settle = some 0 ∧
    (retakeStd s).cmu.position = s.cmu.position := by
  refine ⟨rfl, rfl, rfl, ?_⟩
  show (dropArmed s.cmu).position = s.cmu.position
  unfold dropArmed; split <;> rfl

/-! ### The edge watch at its close (R91, R93) -/

@[simp] theorem closeWatch_opened (w : EdgeWatch) : (closeWatch w).opened = false := rfl
@[simp] theorem closeWatch_dir (w : EdgeWatch) : (closeWatch w).dir = w.dir := rfl
@[simp] theorem closeWatch_leading (w : EdgeWatch) : (closeWatch w).leading = w.leading := rfl
@[simp] theorem closeWatch_trailing (w : EdgeWatch) : (closeWatch w).trailing = w.trailing := rfl
@[simp] theorem closeWatch_interior (w : EdgeWatch) : (closeWatch w).interior = w.interior := rfl
@[simp] theorem closeWatch_coveredStart (w : EdgeWatch) : (closeWatch w).coveredStart = w.coveredStart := rfl

end Sys2Proof.Machine
end

