-- ==== Sys2Proof/Laws/Requests.lean ====
section
/-! SUPPORT. What the taking and the answering of a request do (R195, R196, R197): the lemmas that a statement about one
row of the request table cites instead of unfolding `request`. -/

namespace Sys2Proof.Machine

open Safety

theorem whenReleased_of_released {s : State} (f : State → State) (h : s.held = false) :
    whenReleased s f = .next (f s) := by simp [whenReleased, h]

theorem whenReleased_of_held {s : State} (f : State → State) (h : s.held = true) :
    whenReleased s f = .next s := by simp [whenReleased, h]

/-- Every command taken by a part that is not held ends in a next state. -/
theorem whenReleased_isNext (s : State) (f : State → State) : ∃ t, whenReleased s f = .next t := ⟨_, rfl⟩

/-- The state of a port that has taken its oldest message and not answered it. -/
def takenPort (m : InMsg) (x : PortState) : PortState :=
  { x with inbound := x.inbound.drop 1, handling := some ⟨m, replyNeed m.kind.toNat, false⟩ }

/-! ### Rows the port itself owns (R199, R207) -/

@[simp] theorem requestAtPort_whole (p : Port) (accepts : InMsg → Bool) (owner : Owner) :
    requestAtPort .whole p accepts owner = request .whole p accepts owner := rfl
@[simp] theorem requestAtPort_take (p : Port) (accepts : InMsg → Bool) (owner : Owner) :
    requestAtPort .take p accepts owner = request .whole p accepts owner := rfl
@[simp] theorem requestAtPort_answer (p : Port) (accepts : InMsg → Bool) (owner : Owner) :
    requestAtPort .answer p accepts owner = request .answer p accepts owner := rfl

/-! ### Taking -/

theorem mayTake_of_waits {s : State} {p : Port} {m : InMsg} {need : Nat} {accepts : InMsg → Bool} (h : waits s p m need)
    (ha : accepts m = true) (hn : replyNeed m.kind.toNat = need) : mayTake accepts (s.ports.get p) m = true := by
  obtain ⟨_, _, h3, h4⟩ := h
  simp [mayTake, ha, h3, PortState.free, PortState.occupied, PortState.reserved, hn]
  omega

/-- A message that passes the port's checks is taken: the reply's entries are reserved. -/
theorem takeMessage_ok {s : State} {p : Port} {m : InMsg} {need : Nat} {accepts : InMsg → Bool} (h : waits s p m need)
    (ha : accepts m = true) (hn : replyNeed m.kind.toNat = need) (hc : portCheck p m = none) :
    takeMessage p accepts s = s.updPort p (takenPort m) := by
  have ht := mayTake_of_waits h ha hn
  obtain ⟨_, h2, h3, h4⟩ := h
  unfold takeMessage
  cases hi : (s.ports.get p).inbound with
  | nil => simp [hi] at h2
  | cons x rest =>
    simp [hi] at h2; subst h2
    simp [ht, State.updPort_eq, takeInto, hc, takenPort, hi]

/-- A message that a check of the port refuses is answered by the port. -/
theorem takeMessage_refused {s : State} {p : Port} {m : InMsg} {need : Nat} {rc : Byte} {accepts : InMsg → Bool}
    (h : waits s p m need) (ha : accepts m = true) (hn : replyNeed m.kind.toNat = need) (hk : m.kind.toNat < 128)
    (hc : portCheck p m = some rc) : takeMessage p accepts s = answered s p m [[rc]] := by
  have ht := mayTake_of_waits h ha hn
  obtain ⟨_, h2, h3, h4⟩ := h
  unfold takeMessage
  cases hi : (s.ports.get p).inbound with
  | nil => simp [hi] at h2
  | cons x rest =>
    simp [hi] at h2; subst h2
    simp [ht, State.updPort_eq, takeInto, hc, answered, answeredPorts, hi, queueReply, replyMessages, replyTo,
      replyKind, hk, ← h3]

theorem answered_handling {s : State} {p : Port} {m : InMsg} {need : Nat} (bodies : List (List Byte))
    (h : waits s p m need) : ((answered s p m bodies).ports.get p).handling = none := by
  simp [answered, answeredPorts, h.2.2.1]

/-- One command that takes a request and answers it, when the port refuses it. -/
theorem request_refused {s : State} {p : Port} {m : InMsg} {need : Nat} {rc : Byte} {accepts : InMsg → Bool}
    (owner : Owner) (h : waits s p m need) (ha : accepts m = true) (hn : replyNeed m.kind.toNat = need)
    (hk : m.kind.toNat < 128) (hc : portCheck p m = some rc) :
    request .whole p accepts owner s = answered s p m [[rc]] := by
  have hh := h.2.2.1
  simp [request, hh, takeMessage_refused h ha hn hk hc, answerHandled, answered_handling _ h]

/-- The reply queued on the port of a taken request. -/
theorem queueReply_eq {m : InMsg} {parts : List (List Byte)} {k : Nat} (x : PortState) (hk : m.kind.toNat < 128)
    (hl : parts.length ≤ k) :
    queueReply m parts k x = { x with handling := none, outbound := x.outbound ++ parts.map (replyTo m) } := by
  have e : parts.take k = parts := List.take_of_length_le hl
  have e2 : (fun b => (⟨.reply, replyKind m.kind, m.tag, b⟩ : OutMsg)) = replyTo m := by
    funext b; simp [replyTo, replyKind, hk]
  simp [queueReply, replyMessages, e, e2]

/-- One command that takes a request and answers it, when the port passes it to its owner: the owner's state and reply on
the state with the request in handling. -/
theorem request_whole {s : State} {p : Port} {m : InMsg} {need : Nat} {accepts : InMsg → Bool} (owner : Owner)
    (h : waits s p m need) (ha : accepts m = true) (hn : replyNeed m.kind.toNat = need) (hc : portCheck p m = none) :
    request .whole p accepts owner s =
      ((owner p m (s.updPort p (takenPort m))).1).updPort p
        (queueReply m (owner p m (s.updPort p (takenPort m))).2 need) := by
  have hh := h.2.2.1
  simp [request, hh, takeMessage_ok h ha hn hc, answerHandled, takenPort, ha, hn]

/-- The same when the owner leaves the state as it is and answers in as many parts as are reserved at most. -/
theorem request_code {s : State} {p : Port} {m : InMsg} {need : Nat} {accepts : InMsg → Bool} {owner : Owner}
    {parts : List (List Byte)} (h : waits s p m need) (ha : accepts m = true) (hn : replyNeed m.kind.toNat = need)
    (hk : m.kind.toNat < 128) (hc : portCheck p m = none) (hl : parts.length ≤ need)
    (ho : owner p m (s.updPort p (takenPort m)) = (s.updPort p (takenPort m), parts)) :
    request .whole p accepts owner s = answered s p m parts := by
  rw [request_whole owner h ha hn hc, ho]
  have hh := h.2.2.1
  simp [State.updPort_eq, queueReply_eq _ hk hl, takenPort, answered, answeredPorts, ← hh]

/-- The same when the owner changes other blocks and leaves the ports as they are. -/
theorem request_change {s : State} {p : Port} {m : InMsg} {need : Nat} {accepts : InMsg → Bool} {owner : Owner}
    {parts : List (List Byte)} {t : State} (h : waits s p m need) (ha : accepts m = true)
    (hn : replyNeed m.kind.toNat = need) (hk : m.kind.toNat < 128) (hc : portCheck p m = none)
    (hl : parts.length ≤ need)
    (ho : owner p m (s.updPort p (takenPort m)) = (t.withPorts (s.updPort p (takenPort m)).ports, parts)) :
    request .whole p accepts owner s = t.withPorts (answeredPorts s p m parts) := by
  rw [request_whole owner h ha hn hc, ho]
  have hh := h.2.2.1
  simp [State.updPort, queueReply_eq _ hk hl, takenPort, answeredPorts, ← hh]

/-- The reply stands last in the queue and the port handles nothing. -/
theorem queueReply_repliedWith {t : State} {p : Port} {m : InMsg} {rc : Byte} {rest : List Byte} {k : Nat}
    (hk : m.kind.toNat < 128) (h1 : 1 ≤ k) :
    repliedWith (t.updPort p (queueReply m [rc :: rest] k)) p m rc := by
  have hl : [rc :: rest].length ≤ k := by simpa using h1
  refine ⟨by simp [queueReply], rest, ?_⟩
  rw [State.updPort_get_same, queueReply_eq _ hk hl]
  simp

theorem withToken_of_holder {owner : Owner} {p : Port} {m : InMsg} {s : State} (h : s.cta.holder = some p) :
    withToken owner p m s = owner p m s := by simp [withToken, h]

theorem withToken_of_not {owner : Owner} {p : Port} {m : InMsg} {s : State} (h : s.cta.holder ≠ some p) :
    withToken owner p m s = code rcNoToken s := by simp [withToken, h]

end Sys2Proof.Machine
end

