-- ==== Sys2Proof/Laws/Step.lean ====
section
/-! SUPPORT. The step as a whole: every command ends in a next state, and what an idle or a held part does. -/

namespace Sys2Proof.Machine

/-- Every command ends in a next state: no command faults and none is refused. -/
theorem exec_isNext (c : Instr) (s : State) : ∃ t, exec c s = .next t := by
  cases c <;> exact ⟨_, rfl⟩

/-- Every step ends in a next state. -/
theorem step_isNext (s : State) : ∃ t, step s = .next t := by
  unfold step
  cases s.pending with
  | nil => exact ⟨_, rfl⟩
  | cons c rest => exact exec_isNext c _

/-- On an empty queue the part idles. -/
theorem step_idle {s : State} (h : s.pending = []) : step s = .next s := by simp [step, h]

/-- What a step can do: idle, or run the front command on the queue's rest. -/
theorem step_cases {s t : State} (h : step s = .next t) :
    (s.pending = [] ∧ t = s) ∨ ∃ c rest, s.pending = c :: rest ∧ exec c (s.withPending rest) = .next t := by
  unfold step at h
  cases hp : s.pending with
  | nil => simp only [hp, Host.Outcome.next.injEq] at h; exact Or.inl ⟨rfl, h.symm⟩
  | cons c rest => simp only [hp] at h; exact Or.inr ⟨c, rest, rfl, h⟩

/-- A property kept by every command is kept by every step, when it does not speak of the queue of commands. -/
theorem kept_of_exec {inv : State → Prop} (hq : ∀ s x, inv s → inv (s.withPending x))
    (he : ∀ c s t, inv s → exec c s = .next t → inv t) : Safety.Kept inv := by
  intro s t hs h
  rcases step_cases h with ⟨_, rfl⟩ | ⟨c, rest, _, hc⟩
  · exact hs
  · exact he c _ t (hq s rest hs) hc

/-- The same for a command of a part that is not held: its effect keeps the property. -/
theorem kept_of_effect {inv : State → Prop} {f : State → State} (hf : ∀ s, inv s → inv (f s)) {s t : State} (hs : inv s)
    (h : whenReleased s f = .next t) : inv t := by
  unfold whenReleased at h
  simp only [Host.Outcome.next.injEq] at h
  subst h
  split
  · exact hs
  · exact hf s hs

/-- No row of the table gives bits, so no word spells a command. -/
theorem withFetchWord_eq (s : State) (nbits w : Nat) : s.withFetchWord nbits w = s := rfl

end Sys2Proof.Machine
end

