-- ==== Sys2Proof/Tests/Slice0.lean ====
section
/-! SUPPORT. Tests: the checks of WellFormed refuse what they must, the worked cases of the manual come out as its tables
give them, and, for every statement with hypotheses, a concrete state and operands that meet them, clause by clause. -/

namespace Sys2Proof.Tests

open Sys2Proof.Machine Sys2Proof.Safety

-- One test at a time: the kernel evaluations of many at once would each hold a thread.
set_option Elab.async false

/-! ### WellFormed -/

theorem test_wellFormed_refuses_no_characters :
    (Instr.messageReceived .quality []).wellFormed = false ∧ (Instr.badMessage .machine []).wellFormed = false := by decide

theorem test_wellFormed_refuses_more_than_one_message :
    (Instr.messageReceived .quality (List.replicate 257 (cleanChar 0))).wellFormed = false ∧
    (Instr.badMessage .machine (List.replicate 257 (cleanChar 0))).wellFormed = false := by decide +kernel

theorem test_wellFormed_takes_a_whole_message :
    (Instr.messageReceived .quality (List.replicate 256 (cleanChar 0))).wellFormed = true ∧
    (Instr.identify .quality .whole).wellFormed = true := by decide +kernel

/-! ### The worked cases of the manual -/

/-- The BETA table of the worked calibration cases (04). -/
def betaTable : List Breakpoint := [⟨16384, 30000⟩, ⟨20000, 21000⟩, ⟨24576, 13000⟩]

/-- 04, Worked calibration cases: the six rows. -/
theorem test_calibration_rows :
    [(25000, 40000), (30000, 40000), (25000, 50000), (10000, 40000), (45000, 40000), (65000, 30000)].map
      (fun x => let q := ratio x.1 x.2; calibrate betaTable q.1 q.2) =
    [⟨20161, .valid⟩, ⟨13000, .valid⟩, ⟨30000, .valid⟩, ⟨30000, .lowClamp⟩, ⟨13000, .highClamp⟩,
      ⟨13000, .highClamp⟩] := by decide +kernel

/-- The grade bank of the worked conversion (04), with the map of 600 bins (06). -/
def bank : GradeBank :=
  { width := 9000, n := 600, guard := 500, tolerance := 100, minSamples := 8, weight := 64, betaTable := betaTable
    irwTable := [⟨32768, 0⟩, ⟨36864, 2000⟩], gain := 2000, kT := 3277, tRef := 500
    limits := ⟨⟨20000, 0, 100⟩, ⟨10000, 0, 100⟩, ⟨20000, 0, 100⟩, ⟨20000, 0, 100⟩⟩, settle := 2 }

def plain (v : Nat) : UplinkWord := ⟨BitVec.ofNat 16 v, false, false, false, false, false, false, false⟩

/-- 04, Worked conversion: T 520, BW 20,161, W 850, MOI 422, CAL 1,001 and DRY 19,311, all VALID, UNCOMP clear. -/
theorem test_worked_conversion :
    let ready (v : Nat) : SlotRecord := ⟨.ready, some (plain v)⟩
    convert ⟨some 40000, some 30000, some 1200⟩ (some bank) ⟨7, ⟨55000, .traverse, .fwd⟩,
      ⟨⟨.ready, some { plain 0 with sheet := true }⟩, ready 25000, ready 31500, ready 3250, ready 3252⟩⟩ =
    ⟨7, ⟨55000, .traverse, .fwd⟩, some true, some 520, some ⟨20161, .valid⟩, some ⟨850, .valid⟩, some ⟨422, .valid⟩,
      some ⟨1001, .valid⟩, some ⟨19311, .valid⟩, false⟩ := by decide +kernel

/-- The map of 600 bins (06). -/
def map600 : BinMap := buildMap (some bank) (some 10000) (some 100000)

/-- 06, Worked case: a map of 600 bins. -/
theorem test_map_of_600_bins :
    map600.start = some 10500 ∧ map600.stop = some 99500 ∧ binOf map600 55000 = some 300 ∧
    binOf map600 99499 = some 599 ∧ binOf map600 99500 = none ∧
    (boundaries map600)[1]? = some 10649 ∧ (boundaries map600)[2]? = some 10797 ∧
    (boundaries map600)[3]? = some 10945 := by decide +kernel

/-- 01, Worked sequence: a hold and a step, the HOLD taken at 10,560 and the STEP at 10,800. -/
theorem test_hold_and_step_points :
    let at_ (p : Int) : State := { State.reset with
      cmu := { State.reset.cmu with
        state := .traverse, position := p, homed := true, compareTarget := some 103000,
        plan := { planPowerOn with mode := .scan, speed := 300 } }
      ebm := { State.reset.ebm with map := some map600 } }
    holdStop (at_ 10560) = some ⟨10797, 10647⟩ ∧ stepStop (at_ 10800) = some ⟨10945, 10873⟩ := by decide +kernel

/-- 07, Worked case: statistics of a short profile. -/
theorem test_statistics_of_a_short_profile :
    statsOf (some 16) (List.replicate 3 ⟨.invalid, none, 0⟩ ++ [⟨.valid, some 20162, 0⟩, ⟨.valid, some 20100, 0⟩,
      ⟨.valid, some 20140, 0⟩, ⟨.valid, some 20118, 0⟩, ⟨.held, some 20150, 0⟩] ++
      List.replicate 8 ⟨.invalid, none, 0⟩) = ⟨some 20130, some 46, 4, true, true⟩ := by decide +kernel

/-- 07, Worked case: filter updates, the two publications. -/
theorem test_filter_updates :
    let first := filterBins 64 [some 20100, none, some 20130]
      [⟨.valid, some 20162, 0⟩, ⟨.valid, some 20140, 0⟩, ⟨.held, some 20150, 0⟩]
    let second := filterBins 64 first [⟨.valid, some 20090, 0⟩, ⟨.invalid, none, 0⟩, ⟨.invalid, none, 0⟩]
    first = [some 20116, some 20140, some 20130] ∧ second = [some 20109, some 20140, some 20130] ∧
    filterAverage second = some 20126 := by decide +kernel

/-- 07, Worked sequence: one bin, HELD three times and then INVALID, and traverse 7's average. -/
theorem test_hold_ages :
    let low : Acc := ⟨100, 5, 0⟩
    let age (n : Nat) : Option CarryBin := some ⟨some 20162, n⟩
    finalizeBin 8 ⟨806480, 40, 0⟩ none = (⟨.valid, some 20162, 0⟩, ⟨some 20162, 0⟩) ∧
    finalizeBin 8 low (age 2) = (⟨.held, some 20162, 0⟩, ⟨some 20162, 3⟩) ∧
    finalizeBin 8 low (age 3) = (⟨.invalid, none, 0⟩, ⟨none, 0⟩) ∧
    (finalizeBin 8 ⟨180905, 9, 0⟩ (some ⟨none, 0⟩)).1.value = some 20101 := by decide +kernel

/-- 08, Worked case: centres for eight bins, and bins 119, 120 and 123 of 600. -/
theorem test_zone_centres :
    (List.range 8).map (centre 8) = [4096, 12288, 20480, 28672, 36864, 45056, 53248, 61440] ∧
    [119, 120, 123].map (centre 600) = [13052, 13161, 13489] := by decide +kernel

/-! ### Witnesses: the states and operands they use -/

/-- A released part, otherwise as reset leaves it. -/
def live : State := { State.reset with held := false }

/-- A released part whose carriage is homed, in a state, at a position. -/
def carriageIn (st : CarriageState) (p : Int) : State :=
  { live with cmu := { live.cmu with state := st, homed := true, position := p } }

/-- A part with one alarm point annunciated and returned, and the floor that leaves. -/
def returned (i : PointNo) (s : State) : State :=
  { s with alt := { s.alt with points := s.alt.points.set i ⟨.returnUnack, true, false, 1, some 1⟩ } }.relevel

/-- R171: an activation on a RETURN-UNACK point, then the acknowledgement: no ALARM message goes out, F rises (R167). -/
theorem test_activation_before_ack_is_never_annunciated :
    (returned ptMotionFault live).alt.floor = 1 ∧
    (let s := (returned ptMotionFault live).activate ptMotionFault
     (s.alt.points[ptMotionFault]).state = .activeUnack ∧ (s.alt.points[ptMotionFault]).annunciated = false ∧
       s.alt.floor = 8 ∧ s.alt.order = [ptMotionFault] ∧ (s.ports.get .quality).outbound = [] ∧
       ∃ ap, ackPoint s.alarmCtx ptMotionFault s.alarms = some ap ∧
         (ap.1.points[ptMotionFault]).state = .activeAck ∧ (ap.2.get .quality).outbound = []) := by
  refine ⟨by decide +kernel, by decide +kernel, by decide +kernel, by decide +kernel, by decide +kernel, by decide +kernel,
    _, rfl, by decide +kernel, by decide +kernel⟩

/-- R173: a point relevelled to 7 holds the floor at 7 until it returns; R167: one of another level holds it in RETURN-UNACK. -/
theorem test_level_seven_leaves_the_floor_at_its_return :
    (⟨.activeUnack, true, false, 1, some 1⟩ : AlarmPoint).holdsFloor 7 = true ∧
    (⟨.returnUnack, true, false, 1, some 1⟩ : AlarmPoint).holdsFloor 7 = false ∧
    (⟨.returnUnack, true, false, 1, some 1⟩ : AlarmPoint).holdsFloor 5 = true := by decide

def msg (kind : Byte) (pl : List Byte) : InMsg := ⟨kind, 9, pl⟩

/-- A part with one message waiting on a port. -/
def asked (s : State) (p : Port) (kind : Byte) (pl : List Byte) : State :=
  { s with ports := s.ports.set p { s.ports.get p with inbound := [msg kind pl] } }

/-- A part whose token a port holds. -/
def holding (p : Port) (s : State) : State := { s with cta := ⟨some p, [], none⟩ }

def machineIn (m : MachineState) (s : State) : State :=
  { s with msm := { s.msm with state := m, source := m == .down || m == .brk } }

def withHead (ch : Channel) (hd : Head) (s : State) : State :=
  { s with hbc := { s.hbc with slot := 0, heads := s.hbc.heads.set ch hd } }

/-- One addressed channel of a sequence that went out in cycle 0. -/
def oneEntry (e : SeqEntry) : Sequence := ⟨0, false, ⟨some e, none, none⟩, false⟩

def inCycle (c : Cycle) (q : Sequence) (s : State) : State := { s with hbc := { s.hbc with cycle := c, seq := some q } }

def record (st : CarriageState) (p : Int) (sheet : Option Bool) : MRecord :=
  ⟨5, ⟨p, st, .fwd⟩, sheet, none, some ⟨20161, .valid⟩, none, none, none, none, true⟩

def toPen (r : MRecord) (s : State) : State := { s with scv := { s.scv with toPen := [r] } }
def toEbm (r : MRecord) (s : State) : State := { s with scv := { s.scv with toEbm := [r] } }
def toMsm (r : MRecord) (s : State) : State := { s with scv := { s.scv with toMsm := [r] } }

def openWindow : Window :=
  ⟨⟨3, .fwd, false, none, ⟨none, none, none⟩, map600⟩, PerProp.const (List.replicate 600 ⟨0, 0, 0⟩), 0⟩

def withWindow (s : State) : State := { s with pen := { s.pen with window := some openWindow } }

def edges (s : State) : State := { s with ebm := { s.ebm with ef := some 10000, eb := some 100000 } }

def running (x : SheetRun) (s : State) : State := { s with msm := { s.msm with run := some x } }

def openBreak : BreakRecord := ⟨1, ⟨.declare, 500, 1, 2⟩, [], 0, none, none, none, true⟩

def logged (rs : List BreakRecord) (s : State) : State := { s with msm := { s.msm with log := rs } }

/-- Line BL0 enabled, sheet-present high, with its confirmed level. -/
def lineBl0 (level : Option Bool) (s : State) : State :=
  { s with
    rbs := { s.rbs with common := { s.rbs.common with lineEnable := ⟨true, false, false, false⟩ } }
    msm := { s.msm with lines := { s.msm.lines with bl0 := ⟨level, 3, level⟩ } } }

def stats : PropStats := ⟨some 20130, some 46, 600, false, false⟩

def generation (n : ScanNo) : Generation :=
  { scan := n, dir := .fwd, startCycle := 3, endCycle := 9, machine := .run, bank := none, refs := ⟨none, none, none⟩
    map := map600, retraverse := false, uncomp := 0, stats := PerProp.const stats
    bins := PerProp.const (List.replicate 600 ⟨.valid, some 20130, 0⟩), filter := none }

/-- The store holds scans 7 and 8, 8 the newest. -/
def stored (s : State) : State :=
  { s with pen := { s.pen with slots := #v[some (generation 7), some (generation 8), none], lastScan := some 8 } }

theorem inSlot_stored (s : State) : inSlot (stored s).pen (generation 7) ∧ inSlot (stored s).pen (generation 8) := by
  refine ⟨⟨0, rfl, ?_⟩, ⟨1, rfl, ?_⟩⟩
  · intro j h hj he
    match j with
    | 0 => rfl
    | 1 => simp only [stored] at hj; cases hj; exact absurd he (by decide)
    | 2 => simp only [stored] at hj; cases hj
  · intro j h hj he
    match j with
    | 0 => simp only [stored] at hj; cases hj; exact absurd he (by decide)
    | 1 => rfl
    | 2 => simp only [stored] at hj; cases hj

def withCmu (s : State) (f : Cmu → Cmu) : State := { s with cmu := f s.cmu }

def stream (next last : Nat) : Stream := ⟨4, 7, .bw, .raw, .wide, 0, next, last⟩

def streaming (x : StreamState) (s : State) : State :=
  { s with ports := s.ports.set .quality { s.ports.get .quality with stream := x } }

def full (n : Nat) (s : State) : State :=
  let p := s.ports.get .quality
  { s with ports := s.ports.set .quality { p with outbound := List.replicate n ⟨.notice, kState, 0, []⟩ } }

def banked (active : Option BankNo) (pending : Option (BankNo × Port)) (s : State) : State :=
  let stored := #v[some bank, some { bank with n := 300 }, none, none, none, none, none]
  { s with rbs := { s.rbs with banks := stored, active := active, pending := pending } }

/-- A homed carriage that travels FWD to a target. -/
def travelling (st : CarriageState) (target p : Int) : State :=
  withCmu (carriageIn st p) fun c => { c with travelTarget := target }

/-- A homed carriage in a traverse FWD to 106,000, with a hold. -/
def traversing (h : Hold) (p : Int) : State :=
  withCmu (carriageIn .traverse p) fun c => { c with compareTarget := some 106000, hold := h }

/-- The machine runs and no source of park override is set. -/
def freely (mode : PlanMode) (s : State) : State :=
  machineIn .run (withCmu s fun c => { c with plan := { c.plan with mode := mode } })

def dueNow (requested : Bool) (s : State) : State := { s with osq := { s.osq with due := true, requested := requested } }

/-- An uplink word with its parity bit turned where its parity is wrong. -/
def even (w : UplinkWord) : UplinkWord := if bitsSet w % 2 = 0 then w else { w with parity := !w.parity }

/-- A window on the map of 600 bins whose first two bins have 8 and 7 samples. -/
def sampledWindow : Window :=
  let accs : List Acc := [⟨800, 8, 0⟩, ⟨70, 7, 1⟩] ++ List.replicate 598 ⟨800, 8, 0⟩
  ⟨⟨1, .fwd, false, some 0, ⟨none, none, none⟩, map600⟩, PerProp.const accs, 0⟩

/-! ### Witnesses -/

theorem witness_StepRunsTheFrontCommand :
    ({ live with pending := [.encoderSkip, .cycleStart] } : State).pending = .encoderSkip :: [.cycleStart] := rfl

theorem witness_PowerOnResetHoldsThePart :
    State.reset.held = true ∧ Instr.cycleStart ≠ .powerOn ∧ Instr.cycleStart ≠ .rstConfirmed ∧
    ∀ a b, Instr.cycleStart ≠ .rstRelease a b := ⟨rfl, by decide, by decide, fun _ _ h => by cases h⟩

theorem witness_ReleaseStartsTheFirstCycle : live.held = false := rfl

/-- Not homed; homed at rest at both ends of the window; one count short of every compare; a carriage that coasts in TURNING;
an override that waits for none and for two counts; and the count at which each compare is met. -/
theorem witness_CountWithoutArrivalMovesThePosition :
    (live.held = false ∧ live.cmu.overrideWait ≠ 1 ∧ driveSettled live ∧ live.cmu.homed = false) ∧
    (let s := carriageIn .parked (-499)
     driveSettled s ∧ s.cmu.homed = true ∧ -500 ≤ s.cmu.position + dirSign .rev ∧
     s.cmu.position + dirSign .rev ≤ (s.rbs.common.pMax : Int) + 500) ∧
    (let s := carriageIn .held 110499
     (-500) ≤ s.cmu.position + dirSign .fwd ∧ s.cmu.position + dirSign .fwd ≤ (s.rbs.common.pMax : Int) + 500) ∧
    (let s := withCmu (travelling .toLimit 4000 3998) fun c => { c with overrideWait := 2 }
     s.cmu.overrideWait ≠ 1 ∧ reached s.cmu.travelDir (s.cmu.position + 1) s.cmu.travelTarget = false) ∧
    Dir.rev ≠ (carriageIn .turning 4000).cmu.travelDir ∧
    (let s := traversing (.armed (some ⟨106100, 106000⟩)) 105998
     s.cmu.state = .traverse ∧ reached s.cmu.direction (s.cmu.position + 1) 106000 = false) ∧
    (∀ st ∈ [CarriageState.toPark, .toFixed, .toStd, .toLimit],
      let s := travelling st 2500 2499
      s.cmu.state = st ∧ s.cmu.overrideUntaken = false ∧
      reached s.cmu.travelDir (s.cmu.position + 1) s.cmu.travelTarget = true) ∧
    ((travelling .toPark 800 799).override = true ∧ (travelling .toPark 800 799).osq.due = false ∧
      (travelling .toPark 800 799).cta.pending = none ∧ (dueNow false (travelling .toPark 800 799)).osq.step = .idle) ∧
    (∀ mode ∈ [PlanMode.park, .fixed, .scan],
      let s := freely mode (travelling .toFixed 55000 54999)
      s.override = false ∧ s.cmu.plan.mode = mode ∧ s.cta.pending = none ∧ s.osq.requested = false) ∧
    (withCmu (travelling .toLimit 4000 3999) fun c => { c with approach := .inside }).cmu.approach = .inside ∧
    (let s := traversing (.armed (some ⟨6000, 5001⟩)) 5000
     s.cmu.hold = .armed (some ⟨6000, 5001⟩) ∧ reached s.cmu.direction (s.cmu.position + 1) 5001 = true ∧
     reached s.cmu.direction (s.cmu.position + 1) 106000 = false ∧ s.osq.due = false) := by decide +kernel

/-- The first position outside the window on both sides, in FAULT and not; skip counts 2 and 3. -/
theorem witness_EncoderFaultsStopTheCarriage :
    ((carriageIn .traverse (-500)).cmu.position + dirSign .rev < -500 ∧
      (carriageIn .traverse (-500)).cmu.state ≠ .fault) ∧
    (let s := carriageIn .fault 110500
     s.cmu.homed = true ∧ (s.rbs.common.pMax : Int) + 500 < s.cmu.position + dirSign .fwd ∧ s.cmu.state = .fault ∧
     s.cmu.overrideUntaken = false ∧ driveSettled s) ∧
    (let s : State := { live with cmu := { live.cmu with skipCount := 2 } }
     s.held = false ∧ s.cmu.state ≠ .fault ∧ s.cmu.skipCount < 3) ∧
    (let s : State := { live with cmu := { live.cmu with skipCount := 3 } }
     s.held = false ∧ s.cmu.state ≠ .fault ∧ s.cmu.skipCount = 3) := by decide +kernel

/-- The hold point armed at the next count, and whether the carriage goes on in TRAVERSE or stands HELD after it. -/
def startedAt (h : HoldKind) (p : Int) : Option HoldStop × Bool :=
  let s := edges (banked (some 0) none (withCmu (carriageIn .turning p) fun c => { c with hold := .owed h }))
  match exec (.encoderCount .fwd) s with
  | .next t => ((match h with | .hold => holdStop t | .step => stepStop t), t.cmu.state == .held)
  | _ => (none, false)

/-- Both starts; no pending grade and a pending one that is stored; no bank, a bank without edges, and a bank with edges that
leave a valid map and, one count closer, a narrow one; an owed hold of each kind, and one whose command point the first count
reaches and one it does not. -/
theorem witness_TraverseStartOpensTheTraverse :
    (let s := travelling .toLimit 4000 3999
     s.held = false ∧ s.cmu.homed = true ∧ s.cmu.hold = .none ∧ s.cmu.overrideUntaken = false ∧
     s.cmu.approach = .outside ∧ reached s.cmu.travelDir (s.cmu.position + dirSign .fwd) s.cmu.travelTarget = true) ∧
    (let s := carriageIn .turning 4000
     s.cmu.state = .turning ∧ Dir.fwd = s.cmu.travelDir) ∧
    (let s := banked (some 0) (some (1, .machine)) (carriageIn .turning 4000)
     s.rbs.pending = some (1, .machine) ∧ s.rbs.banks[(1 : BankNo)] = some { bank with n := 300 }) ∧
    ((banked none none (carriageIn .turning 4000)).rbs.pending = none ∧
      (banked none none (carriageIn .turning 4000)).rbs.activeBank = none) ∧
    ((banked (some 0) none (carriageIn .turning 4000)).rbs.activeBank = some bank ∧
      (banked (some 0) none (carriageIn .turning 4000)).ebm.ef = none) ∧
    (buildMap (some bank) (some 10000) (some 17000)).valid = true ∧
    (buildMap (some bank) (some 10000) (some 16999)).valid = false ∧
    (∀ k ∈ [HoldKind.hold, .step],
      let s := withCmu (carriageIn .turning 4000) fun c => { c with hold := .owed k }
      s.cmu.hold = .owed k ∧ s.osq.due = false ∧ (dueNow false { s with osq := { s.osq with step := .settle } }).osq.step ≠ .idle) ∧
    startedAt .hold 10498 = (some ⟨10649, 10499⟩, true) ∧ startedAt .hold 10497 = (some ⟨10649, 10499⟩, false) ∧
    (startedAt .step 10498).2 = false := by decide +kernel

/-- The traverse end; the same in THREAD with captures as wide as the width test asks and one count less, before the first and
the second pass; in RUN with the settle count used up and a published property that is not poor; with an override untaken in
BREAK and in DOWN; with a free slot, and with a pinned generation in the slot taken; and for each clause of R17's choice. -/
theorem witness_TraverseEndPublishesTheScan :
    (let s : State := withWindow (traversing .none 105999)
     s.held = false ∧ s.osq.scanCount ≤ 255 ∧ s.cmu.homed = true ∧ s.cmu.overrideUntaken = false ∧
     s.cmu.state = .traverse ∧ s.cmu.compareTarget = some 106000 ∧ reached s.cmu.direction (s.cmu.position + dirSign .fwd) 106000 = true ∧
     s.pen.window = some openWindow ∧ s.msm.holeSeen = false ∧ s.rbs.pending = none) ∧
    (let s := machineIn .thread (banked (some 0) none (traversing .none 105999))
     s.msm.state = .thread ∧ s.rbs.activeBank = some bank ∧ 9 * (bank.width : Int) ≤ (18100 - 10000) * 10 ∧
     ¬9 * (bank.width : Int) ≤ (18099 - 10000) * 10 ∧ s.msm.widthPasses = 0 ∧
     ({ s.msm with widthPasses := 1 } : Msm).widthPasses ≠ 0) ∧
    (let s := machineIn .run (banked (some 0) none (traversing .none 105999))
     s.msm.state = .run ∧ s.rbs.settle = 0 ∧ s.rbs.activeBank ≠ none ∧
     ((formGeneration s sampledWindow).1.stats.get .bw).poor = false ∧
     ((formGeneration s sampledWindow).1.stats.get .bw).avg = some 100 ∧
     ((formGeneration s sampledWindow).1.stats.get .bw).spread = some 0 ∧
     ((formGeneration s openWindow).1.stats.get .bw).poor = true) ∧
    (∀ m ∈ [MachineState.brk, .down],
      let s := withCmu (machineIn m (traversing .none 105999)) fun c => { c with overrideWait := 1 }
      s.cmu.overrideUntaken = true ∧ s.override = true ∧ s.msm.state ∈ [MachineState.brk, .down] ∧ s.osq.due = false ∧
      ¬(s.cta.pending.getD s.cmu.plan).interval ≤ min 255 (s.osq.scanCount + 1)) ∧
    (takeSlot (stored live).pen = 2 ∧ (stored live).pen.slots[(2 : Fin 3)] = none) ∧
    (let s := streaming (.running (stream 0 60)) live
     let pen : Pen := { s.pen with
       slots := #v[some (generation 7), some (generation 8), some (generation 9)], pins := ⟨some 7, some 8, some 9⟩ }
     takeSlot pen = 0 ∧ pen.slots[(0 : Fin 3)] = some (generation 7) ∧ pen.pins.get .quality = some (generation 7).scan ∧
     pen.pins.get .machine ≠ some (generation 7).scan ∧ (s.ports.get .quality).stream = .running (stream 0 60)) ∧
    ((dueNow false (traversing .none 105999)).osq.due = true ∧ (dueNow false (traversing .none 105999)).osq.step = .idle ∧
      (105999 : Int) + 1 ≠ live.rbs.common.stdPos) ∧
    (∀ mode ∈ [PlanMode.park, .fixed, .scan],
      let s := freely mode (traversing (.armed none) 105999)
      s.override = false ∧ s.cmu.overrideUntaken = false ∧ s.osq.due = false ∧
      (s.cta.pending.getD s.cmu.plan).mode = mode ∧ ¬(s.cta.pending.getD s.cmu.plan).interval ≤ min 255 (s.osq.scanCount + 1) ∧
      s.cmu.hold = .armed none) ∧
    (let limits (lf lb : Nat) := limitsOf (withCmu live fun c => { c with plan := { c.plan with policy := .fixedLimits lf lb } })
     (limits 4000 106000).1 < 106000 ∧ (106000 : Int) ≤ (limits 106000 108000).1 ∧
     (4000 : Int) < (limits 4001 106000).2 ∧ (limits 2000 4000).2 ≤ 4000 ∧ (limits 2000 4000).1 < 4000) := by decide +kernel

theorem witness_DriveOutputSendsTheCommand :
    (let s : State := { live with drive := ⟨0, 0, some ⟨9, 9⟩, none, 0, 3⟩ }
     s.held = false ∧ s.drive.dwell ≠ none ∧ s.drive.out = 0 ∧ s.drive.wanted = 0) ∧
    (let s : State := { live with drive := ⟨-300, 0, some ⟨9, 9⟩, none, 0, 3⟩ }
     s.drive.dwell ≠ none ∧ s.drive.out = 0 ∧ s.drive.wanted ≠ 0) ∧
    live.drive.dwell = none ∧ (-300 : Int) * 300 < 0 ∧ (0 : Int) < 300 * 50 := by decide +kernel

theorem witness_StallAndDriveFaults :
    (let s : State := { carriageIn .traverse 5000 with drive := ⟨300, 300, none, some 7, driveWord 300, 3⟩ }
     s.held = false ∧ s.drive.stall ≠ none ∧ s.cmu.state ≠ .fault) ∧
    (let s : State := { live with cmu := { live.cmu with drvflt := ⟨some false, 2, some false⟩ } }
     s.cmu.drvflt.confirmed = some false ∧ s.cmu.state ≠ .fault) ∧
    (live.drive.stall = none ∧ live.cmu.drvflt.confirmed ≠ some false ∧ live.cmu.state = .unhomed ∧
      live.cmu.home.confirmed ≠ some true) ∧
    (carriageIn .parked 800).cmu.state ≠ .unhomed ∧
    (let s := withCmu (carriageIn .fault 800) fun c => { c with drvflt := ⟨some false, 2, some false⟩ }
     s.cmu.state = .fault ∧ s.cmu.drvflt.confirmed = some false ∧ driveSettled s) ∧
    (withCmu live fun c => { c with home := ⟨some true, 2, some true⟩ }).cmu.home.confirmed = some true := by
  decide +kernel

theorem witness_HomeFoundZeroesThePosition :
    (let s := carriageIn .homing (-70)
     s.held = false ∧ s.cmu.state = .homing ∧ s.cmu.home.confirmed ≠ some true) ∧
    live.cmu.state ≠ .homing := by decide +kernel

/-- A RESET in IDLE and in both head steps; an ABSENT head; a channel newly enabled in each kind of step, and one newly
disabled, with a sequence in flight that does not and does hold it. -/
theorem witness_CycleStartNumbersAndResets :
    (live.held = false ∧ live.hbc.resetPending = true ∧ (∀ ch ∈ allChannels, live.rbs.common.mask.get ch = true) ∧
      live.rbs.common.mask = live.hbc.mask ∧ live.osq.step = .idle) ∧
    (let s := withHead .cal ⟨.absent, 0, 16, .missingRun⟩ { live with hbc := { live.hbc with resetPending := false } }
     s.hbc.resetPending = false ∧ s.hbc.seq = none ∧ s.rbs.common.mask = s.hbc.mask ∧
     (s.hbc.heads.get .cal).state = .absent) ∧
    (∀ step ∈ [OsqStep.idle, .reference],
      let s := inCycle 1 (oneEntry ⟨.measuring, none, none, false⟩)
        { live with hbc := { live.hbc with mask := ⟨true, true, false, true, true⟩ }, osq := { live.osq with step := step } }
      s.rbs.common.mask.get .irw = true ∧ s.hbc.mask.get .irw = false ∧ Channel.irw = RefChan.chan .irw ∧
      s.osq.step = step ∧ s.scv.refs.get .irw = none ∧
      ∀ q ∈ s.hbc.seq, q.entries.get .irw = none) ∧
    (let common := { live.rbs.common with mask := ⟨true, false, true, true, true⟩ }
     let s := inCycle 1 (oneEntry ⟨.measuring, none, none, false⟩) { live with rbs := { live.rbs with common := common } }
     s.rbs.common.mask.get .beta = false ∧ s.hbc.mask.get .beta = true ∧
     (oneEntry ⟨.measuring, none, none, false⟩).entries.get .beta ≠ none) ∧
    (∀ step ∈ [OsqStep.reference, .fetch],
      let s := dueNow false { carriageIn .atStd 2500 with osq := { live.osq with step := step, renewal := some true } }
      s.hbc.resetPending = true ∧ s.rbs.common.mask = s.hbc.mask ∧ s.osq.step = step ∧ s.osq.due = true ∧
      s.cmu.state = .atStd) ∧
    (let s := withHead .cal ⟨.absent, 0, 16, .missingRun⟩ live
     (s.hbc.heads.get .cal).state = .absent ∧ s.hbc.resetPending = true ∧ absentFinished s.hbc) := by
  refine ⟨by decide +kernel, by decide +kernel, by decide +kernel, by decide +kernel, by decide +kernel,
    by decide +kernel, by decide +kernel, fun _ _ _ h => nomatch h⟩

/-- An idle bus, a held REFERENCE to a READY head, and a channel asked for that has shown DONE. -/
theorem witness_DownlinkCommandIsChosen :
    let s : State := { live with hbc := { live.hbc with resetPending := false } }
    (s.held = false ∧ s.hbc.resetPending = false ∧ s.rbs.common.mask = s.hbc.mask ∧ s.hbc.seq = none ∧
      s.hbc.heldRef = none) ∧
    (let u := withHead .irw ⟨.ready, 4, 0, .none⟩ { s with hbc := { s.hbc with heldRef := some ⟨true, true, true⟩ } }
     u.hbc.heldRef = some ⟨true, true, true⟩ ∧
     ∀ k ∈ allRefChans, (⟨false, true, false⟩ : PerRef Bool).get k =
       ((⟨true, true, true⟩ : PerRef Bool).get k && decide ((u.hbc.heads.get k.chan).state = .ready))) ∧
    (let q := oneEntry ⟨.doneSeen, none, some .done, true⟩
     (inCycle 40 q s).hbc.seq = some q ∧ q.abandoned = false ∧
     q.entries.get .beta = some ⟨.doneSeen, none, some .done, true⟩) := by decide +kernel

/-- An even sample, and heads in each state at the counts where the clauses meet. -/
theorem witness_SamplesOutsideASequence :
    (bitsSet (plain 3) % 2 = 0 ∧ (plain 3).fault = false ∧ (plain 3).busy = false) ∧
    (let s := withHead .beta ⟨.ready, 4, 14, .none⟩ live
     s.held = false ∧ s.hbc.slot < slotOf .beta ∧ s.hbc.seq = none ∧ driveSettled s ∧
     (s.hbc.heads.get .beta).state = .ready ∧ (s.hbc.heads.get .beta).missing < 15) ∧
    (withHead .beta ⟨.probing, 2, 0, .none⟩ live).hbc.heads.get .beta = ⟨.probing, 2, 0, .none⟩ ∧
    (let s : State := withHead .beta ⟨.probing, 3, 0, .none⟩ { live with scv := { live.scv with refs := ⟨some 4, none, none⟩ } }
     (s.hbc.heads.get .beta).good = 3 ∧ s.scv.refs.get .beta ≠ none) ∧
    ((withHead .edge ⟨.absent, 4, 3, .noAck⟩ live).hbc.heads.get .edge).state = .absent ∧
    ((withHead .temp ⟨.off, 0, 0, .none⟩ live).hbc.heads.get .temp).state = .off := by decide +kernel

/-- A head lost by its missing run and by its fault flag; the abort of a sequence with one channel to finish and with two;
and each window of a sequence at its first and its last cycle, with the answer and without it. -/
theorem witness_LostHeadsGoAbsent :
    (let h : Hbc := { live.hbc with seq := some (oneEntry ⟨.doneSeen, none, some .done, true⟩) }
     (abandonSeq h).seq = none ∧ ((abandonSeq h).heads.get .beta).state = .ready) ∧
    (let q : Sequence := { oneEntry ⟨.doneSeen, none, some .done, true⟩ with
       entries := ⟨some ⟨.doneSeen, none, some .done, true⟩, some ⟨.measuring, none, none, false⟩, none⟩ }
     ({ live.hbc with seq := some q } : Hbc).seq = some q ∧
     q.entries.get .irw = some ⟨.measuring, none, none, false⟩ ∧ SeqPhase.measuring ≠ .finished) ∧
    (let s := withHead .temp ⟨.probing, 0, 15, .none⟩ live
     s.held = false ∧ s.hbc.slot < slotOf .temp ∧ (s.hbc.heads.get .temp).missing = 15 ∧
     (s.hbc.heads.get .temp).state ∈ [HeadState.probing, .ready, .busy]) ∧
    (bitsSet (even { plain 3 with fault := true }) % 2 = 0 ∧ (even { plain 3 with fault := true }).fault = true) ∧
    (let q := oneEntry ⟨.awaitingAck, none, none, false⟩
     let s (c : Cycle) := inCycle c q (withHead .beta ⟨.ready, 4, 0, .none⟩ live)
     Channel.beta = RefChan.beta.chan ∧ (s 2).hbc.seq = some q ∧ (s 2).hbc.cycle - q.refCycle = 2 ∧
     (s 0).hbc.cycle - q.refCycle = 0 ∧ (s 1).hbc.cycle - q.refCycle = 1 ∧ driveSettled (s 1) ∧
     bitsSet (plain 3) % 2 = 0 ∧ (plain 3).ack = false ∧ (plain 3).busy = false ∧ (plain 3).fault = false ∧
     ((s 2).hbc.heads.get .beta).state = .ready ∧
     (let w := even { plain 3 with ack := true }
      bitsSet w % 2 = 0 ∧ w.ack = true ∧ w.fault = false ∧ w.busy = false)) ∧
    (let q := oneEntry ⟨.measuring, none, none, false⟩
     let s (c : Cycle) := inCycle c q (withHead .beta ⟨.busy, 4, 0, .none⟩ live)
     (s 2000).hbc.cycle - q.refCycle = 2000 ∧ ((s 1999).hbc.cycle - q.refCycle).toNat < 2000 ∧ (plain 3).done = false ∧
     ((s 2000).hbc.heads.get .beta).state = .busy ∧
     (let w := even { plain 3 with done := true }
      bitsSet w % 2 = 0 ∧ w.done = true ∧ w.fault = false) ∧
     q.entries.irw = none ∧ q.entries.cal = none ∧ q.reported = false ∧ q.abandoned = false ∧
     osqWaits { s 9 with osq := { live.osq with step := .reference } } = true ∧ osqWaits (s 9) = false ∧
     ({ q with abandoned := true } : Sequence).abandoned = true ∧
     ({ q with entries := ⟨q.entries.beta, some ⟨.measuring, none, none, false⟩, none⟩ } : Sequence).entries.get .irw =
       some ⟨.measuring, none, none, false⟩) ∧
    (let e : SeqEntry := ⟨.awaitingStatus, some 50, some .done, true⟩
     let q : Sequence := { oneEntry e with reported := true }
     let s (c : Cycle) : State :=
       { inCycle c q (withHead .beta ⟨.busy, 4, 0, .none⟩ live) with osq := { live.osq with step := .fetch } }
     e.fetchCycle = some 50 ∧ (s 50).hbc.cycle - 50 = 0 ∧ (s 51).hbc.cycle - 50 = 1 ∧ (s 52).hbc.cycle - 50 = 2 ∧
     (plain 3).status = false ∧ ((s 52).hbc.heads.get .beta).state = .busy ∧ driveSettled (s 51) ∧
     (let w := even { plain 3 with status := true }
      bitsSet w % 2 = 0 ∧ w.status = true ∧ w.fault = false) ∧
     q.reported = true ∧ q.abandoned = false ∧ (s 51).osq.step = .fetch ∧ (s 51).osq.renewal = none ∧
     ({ q with entries := ⟨some e, none, some e⟩ } : Sequence).entries.get .cal = some e) := by decide +kernel

/-- Before and after the record is formed; no bank and a bank; a slot that left its head READY, with a sample. -/
theorem witness_CycleRecordIsHandedOn :
    ({ live with hbc := { live.hbc with slot := 5 } } : State).hbc.slot < 6 ∧ live.held = false ∧ 6 ≤ live.hbc.slot ∧
    live.rbs.activeBank = none ∧ (banked (some 0) none live).rbs.activeBank = some bank ∧
    ({ live.hbc with record := live.hbc.record.set .edge (some ⟨.ready, some (plain 3)⟩) } : Hbc).record.get .edge =
      some ⟨.ready, some (plain 3)⟩ := by decide +kernel

/-- No candidate and one, the two sides of R51's example at tolerance 20 against 40,000, a candidate of 0, a renewal and a
point that COMMIT does not own. -/
theorem witness_CommitAppliesTheDriftCheck :
    live.osq.candidates.get .beta = none ∧
    (let s : State := { live with
      osq := { live.osq with candidates := ⟨some 40781, some 40782, some 0⟩, renewal := some true }
      scv := { live.scv with refs := ⟨some 40000, some 40000, none⟩ } }
     (s.osq.candidates.get .beta = some 40781 ∧ s.scv.refs.get .beta = some 40000 ∧ (40781 - 40000) * 1024 ≤ 20 * 40000) ∧
     (s.osq.candidates.get .irw = some 40782 ∧ s.scv.refs.get .irw = some 40000 ∧ ¬(40782 - 40000) * 1024 ≤ 20 * 40000) ∧
     s.osq.candidates.get .cal = some 0 ∧ s.osq.renewal.isSome = true) ∧
    (ptBreak ≠ ptOverdue ∧ ∀ c, ptBreak ≠ ptStdDrift c) :=
  ⟨rfl, ⟨by decide +kernel, by decide +kernel, by decide, by decide⟩, by decide, fun c => by cases c <;> decide⟩

theorem witness_StandardizationTimersExpire :
    ({ carriageIn .atStd 2500 with osq := { live.osq with step := .settle, settle := some 0 } } : State).osq.step = .settle ∧
    live.osq.step ≠ .settle ∧ live.osq.due = false ∧
    ({ live with osq := { live.osq with due := true } } : State).osq.due = true ∧ live.osq.overdue = false := by decide

/-- The ratio at twice its reference, and one below it. -/
theorem witness_RatioIsFlooredAndCapped :
    (65534 ≤ 65535 ∧ 1 ≤ 32767 ∧ (ratio 65534 32767).2 = true) ∧ (ratio 65533 32767).2 = false := by decide

/-- Below the table, above it, on its first and its last segment, and capped. -/
theorem witness_CalibrationFollowsTheTable :
    2 ≤ betaTable.length ∧ betaTable.length ≤ 16 ∧ ascending betaTable = true ∧
    (∀ b ∈ betaTable, b.x ≤ 65535 ∧ b.y ≤ 65535) ∧ 16383 < (betaTable.head?.map Breakpoint.x).getD 0 ∧
    (betaTable.getLast?.map Breakpoint.x).getD 0 < 24577 ∧ 16384 ≤ 16384 ∧ 24576 ≤ 24576 := by decide

theorem witness_PropertyFormulasClampAndMark :
    (((1000 : Nat) : Int) + roundHalfAway (1000 * 32767 * (-2732 - 10000)) 1048576 < 0) ∧
    (65535 < ((65535 : Nat) : Int) + roundHalfAway (65535 * 3277 * (520 - 500)) 1048576) ∧
    (((1100 : BitVec 16).toNat : Int) - (1200 : BitVec 16).toNat) * 2000 < 0 ∧
    (1199 : BitVec 16).toNat < (1200 : BitVec 16).toNat ∧
    (((1200 : BitVec 16).toNat : Int) - (1200 : BitVec 16).toNat) * 0 ≤ 268433407 ∧
    (268433407 : Int) < ((5500 : BitVec 16).toNat - (1200 : BitVec 16).toNat : Int) * 65535 ∧
    10000 < roundHalfUp (10000 * 3200) 1000 ∧ roundHalfUp (10000 * 850) 20161 ≤ 10000 := by decide +kernel

theorem witness_PenTakesRecords :
    (let s := toPen (record .traverse 55000 none) (machineIn .run (withWindow live))
     s.held = false ∧ s.scv.toPen = record .traverse 55000 none :: [] ∧ s.pen.window = some openWindow ∧
     s.pen.period = none ∧ binOf openWindow.ctx.map 55000 = some 300 ∧ openWindow.uncomp < 4294967295) ∧
    binOf openWindow.ctx.map 99500 = none ∧
    (let f : FixedPeriod := ⟨1999, PerProp.const ⟨0, 0⟩⟩
     let s : State := toPen (record .fixed 55000 none) { live with pen := { live.pen with period := some f } }
     s.pen.window = none ∧ s.pen.period = some f ∧ (record .fixed 55000 none).snap.state = .fixed ∧ f.records = 1999) := by
  decide +kernel

theorem witness_EdgeWatchReadsSheet :
    let watch (w : EdgeWatch) (x : Option Bool) : State :=
      toEbm (record .traverse 10500 x) { live with ebm := { live.ebm with watch := w } }
    let seen : EdgeWatch := { openWatch .fwd with previous := some false, anyReading := true }
    (live.held = false ∧ (toEbm (record .held 3 none) live).ebm.watch.opened = false) ∧
    ((watch { seen with gap := 14 } none).ebm.watch.gap < 15 ∧ (watch { seen with gap := 15 } none).ebm.watch.gap = 15 ∧
      (watch { seen with gap := 16, previous := none } none).ebm.watch.gap = 16) ∧
    ((watch (openWatch .fwd) (some true)).ebm.watch.previous = none ∧ (openWatch .fwd).opened = true) ∧
    ((watch seen (some false)).ebm.watch.previous = some false ∧ (watch seen (some true)).ebm.watch.previous = some (!true) ∧
      (watch seen (some true)).ebm.watch.trailing = none ∧ (watch seen (some true)).ebm.watch.leading = none) ∧
    (watch { seen with leading := some 99 } (some true)).ebm.watch.leading ≠ none ∧
    ((watch { seen with previous := some true } (some false)).ebm.watch.previous = some (!false)) ∧
    (watch { seen with trailing := some 99 } (some true)).ebm.watch.trailing ≠ none := by decide +kernel

theorem witness_SheetRunsAreCounted :
    let at_ (x : Option Bool) : State := toMsm (record .traverse 55000 x) (edges live)
    (at_ none).held = false ∧ driveSettled (at_ none) ∧ (at_ none).ebm.ef = some 10000 ∧ (at_ none).ebm.eb = some 100000 ∧
    (at_ none).msm.run = none ∧ 1 < (at_ none).rbs.common.sheetLost ∧
    (running ⟨54000, 998, 0, false⟩ (at_ (some false))).msm.run = some ⟨54000, 998, 0, false⟩ ∧
    998 + 1 < live.rbs.common.sheetLost ∧
    (running ⟨54000, 4000, 15, true⟩ (at_ none)).msm.run = some ⟨54000, 4000, 15, true⟩ ∧
    (running ⟨54000, 7, 0, false⟩ (at_ (some true))).msm.run = some ⟨54000, 7, 0, false⟩ ∧
    (running ⟨54000, 8, 14, false⟩ (at_ (some true))).msm.run = some ⟨54000, 8, 14, false⟩ ∧
    (toMsm (record .traverse 10000 none) (edges live)).ebm.ef = some 10000 := by decide +kernel

theorem witness_SheetLostIsABreakCause :
    let s := running ⟨54000, 999, 3, false⟩ (toMsm (record .fixed 55000 (some false)) (edges live))
    (s.held = false ∧ s.ebm.ef = some 10000 ∧ s.ebm.eb = some 100000 ∧ s.rbs.common.sheetLost ≤ 999 + 1 ∧ 999 < 4000 ∧
      s.msm.state = .down ∧ driveSettled s) ∧
    (machineIn .run s).msm.state = .run ∧ (machineIn .thread s).msm.state = .thread ∧
    (let u := logged [openBreak] (machineIn .brk s)
     u.msm.state = .brk ∧ driveSettled u ∧ u.msm.log = openBreak :: [] ∧ openBreak.isOpen = true ∧
     openBreak.first.kind ≠ .sheetLost ∧ openBreak.later.length < 4) := by decide +kernel

theorem witness_BreakLinesAreRead :
    (live.rbs.common.lineEnable.get .bl1 = false ∧ driveSettled live ∧ live.held = false) ∧
    (let s := lineBl0 (some true) (machineIn .run live)
     s.rbs.common.lineEnable.get .bl0 = true ∧ false = s.rbs.common.lineLow.get .bl0 ∧
     (s.msm.lines.get .bl0).confirmed ≠ some false ∧ s.msm.state = .run) ∧
    (lineBl0 none (machineIn .thread live)).msm.state = .thread ∧
    ((lineBl0 none live).msm.state = .down ∧ driveSettled (lineBl0 none live)) ∧
    (let four : List LaterCause := [⟨.sheetLost, 1, 2⟩, ⟨.line .bl1, 1, 2⟩, ⟨.line .bl2, 1, 2⟩, ⟨.line .bl3, 1, 2⟩]
     let r := { openBreak with later := four }
     let s := logged [r] (lineBl0 (some true) (machineIn .brk live))
     s.msm.log = r :: [] ∧ r.isOpen = true ∧ r.first.kind ≠ .line .bl0 ∧ (∀ c ∈ r.later, c.kind ≠ .line .bl0) ∧
     r.later.length = 4) ∧
    (let s := lineBl0 (some false) (machineIn .brk live)
     true ≠ s.rbs.common.lineLow.get .bl0 ∧ (s.msm.lines.get .bl0).confirmed ≠ some true ∧ s.msm.state = .brk ∧
     ∀ k ∈ allLines, s.rbs.common.lineEnable.get k = true → k = .bl0) := by decide +kernel

theorem witness_BinsOfAMap :
    map600.n = some 600 ∧ map600.start = some 10500 ∧ map600.stop = some 99500 ∧ map600.span = some 89000 ∧
    (89000 : Int) = 99500 - 10500 ∧ 16 ≤ 600 ∧ 10 * (600 : Int) ≤ 89000 ∧ map600.valid = true ∧ (10500 : Int) ≤ 99499 ∧
    (boundaries map600)[599]? = some 99352 ∧ (boundaries map600)[599 + 1]? = some 99500 ∧
    (buildMap none (some 10000) (some 100000)).valid = false ∧ (buildMap (some bank) none (some 100000)).valid = false ∧
    (buildMap (some bank) (some 10000) (some 16999)).valid = false := by decide +kernel

/-- A window of 600 bins whose first two BW bins have 8 and 7 samples, on a filter with one SEEDED bin. -/
theorem witness_BinsAreFinalizedAndFiltered :
    let w := sampledWindow
    let s : State := { live with
      rbs := { live.rbs with banks := live.rbs.banks.set 0 (some bank) }
      msm := { live.msm with state := .run }
      pen := { live.pen with
        carry := ⟨some 600, PerProp.const [⟨none, 0⟩, ⟨some 9, 3⟩]⟩
        filter := ⟨some 600, PerProp.const (some 90 :: List.replicate 599 none)⟩ } }
    w.ctx.map.n = some 600 ∧ s.rbs.banks[(0 : BankNo)] = some bank ∧ bank.minSamples = 8 ∧ bank.weight ≤ 256 ∧
    ((formGeneration s w).1.stats.get .bw).frozen = false ∧
    ((formGeneration { s with msm := { s.msm with state := .thread } } w).1.stats.get .bw).frozen = true := by
  decide +kernel

theorem witness_StatisticsOfTheValidBins :
    let vs (bins : List BinOut) : List Nat := bins.filterMap (fun b => if b.status = .valid then b.value else none)
    vs [⟨.held, some 4, 0⟩] = [] ∧ vs [⟨.valid, some 4, 0⟩] ≠ [] ∧
    (vs [⟨.valid, some 65535, 0⟩, ⟨.valid, some 0, 0⟩]).length ≤ 600 ∧
    ∀ v ∈ vs [⟨.valid, some 65535, 0⟩, ⟨.valid, some 0, 0⟩], v ≤ 65535 := by decide

/-- A bin of one zone of two; and a side computed, with a zone that has a seeded bin and one that has none. -/
theorem witness_ZonesTakeTheirBins :
    (16 ≤ 600 ∧ 600 ≤ 600 ∧ 120 < 600 ∧ spansOrdered none [⟨0, 13100⟩, ⟨13100, 65536⟩] = true ∧
      inZone 600 ⟨13100, 65536⟩ 120 = true) ∧
    (let m : ZoneMap := ⟨.bw, [⟨0, 13100⟩, ⟨13100, 65536⟩]⟩
     let side : ZoneSide := ⟨some m, none, [.valid 5, .none], none, false, none⟩
     let copy : FilterCopy := ⟨some 10, List.replicate 120 none ++ [some 12]⟩
     let g : Generation := { generation 7 with
       map := map600, filter := some (PerProp.const copy)
       stats := PerProp.const ⟨some 10, some 0, 600, false, false⟩ }
     let after := (azmPublish g ⟨side, side⟩).a
     after.active = some m ∧ (g.stats.get .bw).frozen = false ∧ g.map.n = some 600 ∧
     ({ side with staged := some m } : ZoneSide).staged ≠ none ∧
     after.outs = [.held 5, .valid 2]) := by decide +kernel

theorem witness_PublicationTakesTheOldestFreeSlot :
    (stored live).pen.slots[(2 : Fin 3)] = none ∧
    (let p : Pen := { live.pen with
       slots := #v[some (generation 7), some (generation 8), some (generation 6)], pins := ⟨some 6, none, none⟩ }
     (∀ i : Fin 3, p.slots[i] = some (![generation 7, generation 8, generation 6] i)) ∧
     (∀ q ∈ allPorts, p.pins.get q ≠ some 7)) ∧
    (let p : Pen := { live.pen with
       slots := #v[some (generation 7), some (generation 8), some (generation 6)], pins := ⟨some 6, some 7, some 8⟩ }
     p.pins.get .quality = some 6 ∧ p.pins.get .machine = some 7 ∧ p.pins.get .actuator = some 8) := by decide +kernel

theorem witness_FramesAreReceived :
    ([] : List Byte).length ≤ 250 ∧ live.held = false ∧ (live.ports.get .machine).receiver = .hunting ∧
    (live.ports.get .machine).noise ≤ 65535 ∧ (live.ports.get .machine).silent = false ∧
    ({ live.ports.get .machine with silent := true } : PortState).silent = true ∧
    (0 : Byte).toNat * 256 + (0 : Byte).toNat ≠ (crc16 [0, 1, 9]).toNat := by decide +kernel

/-- No character; SYNC and another byte while hunting; a stop-bit error, the longest LEN and one above it. -/
theorem witness_ReceiverTakesCharacters :
    startOk ⟨0x3FF, 0x3FF, 0x3FF⟩ = false ∧ (startOk (cleanChar 0xA5) = true ∧ stopOk (cleanChar 0xA5) = true ∧
      dataOf (cleanChar 0xA5) = 0xA5) ∧ dataOf (cleanChar 0x5A) ≠ 0xA5 ∧
    (startOk ⟨0, 0, 0⟩ = true ∧ stopOk ⟨0, 0, 0⟩ = false) ∧ 250 < (dataOf (cleanChar 251)).toNat ∧
    (dataOf (cleanChar 250)).toNat ≤ 250 ∧ (live.ports.get .quality).receiver = .hunting ∧
    (Receiver.assembling [] 0 = .assembling [] 0 ∧ [1, 2, 3, 4].length + 2 < (2 : Byte).toNat + 5) := by decide +kernel

theorem witness_PortGoesSilent :
    ((live.ports.get .actuator).silent = false ∧ live.rbs.common.silentTime ≠ 0 ∧ live.held = false) ∧
    (holding .actuator live).cta.holder = some .actuator ∧ live.cta.holder ≠ some .actuator := by decide +kernel

/-- A bin with a value, a filter copy and none; values at the ends of the encodings; a descriptor that is idle, one that is
not admitted, one with reports left and one with its last; and a stream short of its last bin, at it, and ending. -/
theorem witness_PortsSendAndStream :
    (((generation 7).bins.get .bw)[599]? = some ⟨.valid, some 20130, 0⟩ ∧ (generation 7).filter = none ∧
      (⟨some 10, [none, some 12]⟩ : FilterCopy).bins[1]? = some (some 12)) ∧
    (65535 ≤ 65535 ∧ (-65535 : Int) ≤ -65535 ∧ Form.raw ∈ [Form.raw, .filtered] ∧
      Form.deviation ∈ [Form.deviation, .filteredDeviation]) ∧
    (let port (n : Nat) (d : Descriptor) : PortState :=
       { (full n live).ports.get .quality with descriptors := (live.ports.get .quality).descriptors.set 3 d }
     let d : Descriptor := { descriptorIdle with active := true }
     (port 0 descriptorIdle).descriptors[3].active = false ∧ (port 24 d).descriptors[3].active = true ∧
     (port 24 d).outbound.length + (port 24 d).reserved ≤ 24 ∧
     (port 24 d).outbound.countP (fun m => m.cls == .push) < 24 ∧
     ¬(port 25 d).outbound.length + (port 25 d).reserved ≤ 24 ∧ d.remaining ≠ 1 ∧
     (port 24 { d with remaining := 1 }).descriptors[3].remaining = 1 ∧ (port 24 d).silent = false) ∧
    inSlot (stored (streaming (.running (stream 0 60)) live)).pen (generation 7) ∧
    ((stored (streaming (.running (stream 0 60)) live)).ports.get .quality).stream = .running (stream 0 60) ∧
    (generation 7).scan = (stream 0 60).scan ∧
    (stream 0 60).nextBin + min (binsPerChunk .raw .wide) (60 + 1 - 0) ≤ (stream 0 60).lastBin ∧
    (stream 60 60).lastBin < 60 + min (binsPerChunk .raw .wide) (60 + 1 - 60) ∧
    ((full 30 (streaming (.ending (stream 0 60)) live)).ports.get .quality).outbound.length +
      ((full 30 (streaming (.ending (stream 0 60)) live)).ports.get .quality).reserved ≤ 30 ∧
    30 < ((full 31 live).ports.get .quality).outbound.length + ((full 31 live).ports.get .quality).reserved :=
  ⟨by decide +kernel, by decide, by decide +kernel, (inSlot_stored _).1, rfl, rfl, by decide, by decide,
    by decide +kernel, by decide +kernel⟩

/-- A KIND of 0, of 28 and of 127; a port not allowed; a wrong length; no token; another holder. -/
theorem witness_PortsRefuseRequests :
    (∀ k ∈ [(0 : Byte), 28, 127], waits (asked live .quality k []) .quality (msg k []) (replyNeed k.toNat)) ∧
    (waits (asked live .actuator 26 []) .actuator (msg 26 []) 1 ∧
      (26, none, Instr.restart) ∈ (requestTable .overrideFirst).map (fun r => (r.1, r.2.1, r.2.2)) ∧
      forRow 26 none (msg 26 [])) ∧
    (waits (asked live .machine 22 [1]) .machine (msg 22 [1]) 1 ∧ forRow 22 (some 1) (msg 22 [1])) ∧
    (waits (asked live .quality 2 [0]) .quality (msg 2 [0]) 2 ∧ forRow 2 none (msg 2 [0])) ∧
    (waits (asked live .machine 16 []) .machine (msg 16 []) 1 ∧ live.cta.holder ≠ some .machine) ∧
    (waits (asked (holding .quality live) .machine 20 []) .machine (msg 20 []) 1 ∧
      (asked (holding .quality live) .machine 20 []).cta.holder = some .quality) := by
  refine ⟨by decide +kernel, ⟨by decide +kernel, by simp [requestTable], rfl, by simp⟩, ⟨by decide +kernel, rfl, ?_⟩,
    ⟨by decide +kernel, rfl, by simp⟩, by decide +kernel, by decide +kernel⟩
  intro k hk _
  cases hk
  rfl

theorem witness_RequestsAreTakenThenAnswered :
    (let s := asked live .quality 5 [0]
     (s.ports.get .quality).inbound.head? = some (msg 5 [0]) ∧ (s.ports.get .quality).handling = none ∧
     portCheck .quality (msg 5 [0]) = none) ∧
    (let s := full 29 (asked live .quality 5 [0])
     (s.ports.get .quality).inbound.head? = some (msg 5 [0]) ∧ 32 < (s.ports.get .quality).outbound.length + 4) ∧
    ({ live.ports.get .quality with handling := some ⟨msg 5 [0], 4, true⟩ } : PortState).handling ≠ none ∧
    (∀ n ∈ [1, 2, 25, 26], n ∈ (requestTable .overrideFirst).map Prod.fst ∧
      (msg (BitVec.ofNat 8 n) []).kind = BitVec.ofNat 8 n) := by decide +kernel

theorem witness_TablesAreRead :
    waits (asked live .actuator 1 []) .actuator (msg 1 []) 1 ∧ waits (asked live .actuator 2 []) .actuator (msg 2 []) 2 ∧
    (waits (asked (stored live) .actuator 4 [0, 0, 0, 0, 0]) .actuator (msg 4 [0, 0, 0, 0, 0]) 1 ∧
      (stored live).pen.lastScan = some (generation 8).scan ∧ inSlot (stored live).pen (generation 8)) ∧
    (msg 4 [1, 0, 0, 0, 7]).payload = [1] ++ bytesBE 4 (generation 7).scan.toNat ∧
    waits (asked live .actuator 5 [1]) .actuator (msg 5 [1]) 4 ∧ waits (asked live .actuator 6 []) .actuator (msg 6 []) 1 ∧
    waits (asked live .actuator 7 []) .actuator (msg 7 []) 2 ∧ waits (asked live .actuator 8 []) .actuator (msg 8 []) 3 ∧
    live.pen.fixedRec = none ∧ live.azm.b.active = none ∧ live.msm.log.length ≤ 8 :=
  ⟨by decide +kernel, by decide +kernel, ⟨by decide +kernel, rfl, (inSlot_stored _).2⟩, by decide +kernel,
    by decide +kernel, by decide +kernel, by decide +kernel, by decide +kernel, rfl, rfl, by decide⟩

/-- The payload of READ PROFILE of the newest scan, bins 0 to 599, and a part that holds scans 7 and 8. -/
theorem witness_ReadProfileStartsAStream :
    (waits (asked (stored live) .quality 3 [0, 0, 0, 7, 0, 0, 0, 0, 0, 0, 0, 2, 87]) .quality
      (msg 3 [0, 0, 0, 7, 0, 0, 0, 0, 0, 0, 0, 2, 87]) 1 ∧
      (msg 3 [0, 0, 0, 7, 0, 0, 0, 0, 0, 0, 0, 2, 87]).payload =
        [BitVec.ofNat 8 (propCode .bw), BitVec.ofNat 8 (formCode .raw), BitVec.ofNat 8 (encCode .wide), BitVec.ofNat 8 7,
          if true then 0 else 1] ++ bytesBE 4 (0 : ScanNo).toNat ++ bytesBE 2 0 ++ bytesBE 2 599) ∧
    ((stored live).ports.get .quality).stream = .idle ∧ inSlot (stored live).pen (generation 8) ∧
    (stored live).pen.lastScan = some (generation 8).scan ∧ (generation 8).map.n = some 600 ∧
    ((streaming (.ending (stream 0 60)) live).ports.get .quality).stream ≠ .idle ∧ 7 < (8 : Byte).toNat :=
  ⟨by decide +kernel, rfl, (inSlot_stored _).2, rfl, rfl, by decide +kernel, by decide⟩

theorem witness_BanksAndDescriptorsAreStored :
    (let s := asked live .quality 9 (bankBytes 6 bank)
     waits s .quality (msg 9 (bankBytes 6 bank)) 1 ∧ s.rbs.active ≠ some 6 ∧ s.rbs.pending = none ∧ bankOk bank = true ∧
     bank.betaTable.length ≤ 16 ∧ bank.irwTable.length ≤ 16) ∧
    bankFits bank ∧
    (banked (some 0) (some (1, .machine)) live).rbs.pending = some (1, .machine) ∧
    bankFits { bank with tolerance := 9 } ∧
    waits (asked live .machine 25 [3, 1, 0, 0, 0, 0, 0, 0, 0, 0, 0, 255]) .machine
      (msg 25 [3, 1, 0, 0, 0, 0, 0, 0, 0, 0, 0, 255]) 1 ∧
    waits (asked live .machine 25 [0, 1, 3, 0, 0, 0, 7, 0, 0, 0, 58, 0]) .machine
      (msg 25 [0, 1, 3, 0, 0, 0, 7, 0, 0, 0, 58, 0]) 1 ∧ 58 + 1 - 0 ≤ 59 ∧ 4 ≤ (4 : Byte).toNat := by
  refine ⟨by decide +kernel, ⟨by decide, by decide, by decide, fun q => by cases q <;> decide⟩, rfl,
    ⟨by decide, by decide, by decide, fun q => by cases q <;> decide⟩, by decide +kernel, by decide +kernel, by decide,
    by decide⟩

theorem witness_ZoneMapPartsAreAssembled :
    let pl : List Byte := [0, 0, 2, 1, 128, 0, 255, 255]
    let s : State := asked { live with azm := ⟨{ live.azm.a with assembly := some ⟨.bw, 2, [⟨0, 32768⟩]⟩ }, live.azm.b⟩ }
      .actuator 12 pl
    waits s .actuator (msg 12 pl) 1 ∧ s.azm.a.assembly = some ⟨.bw, 2, [⟨0, 32768⟩]⟩ ∧
    spansOrdered (some ⟨0, 32768⟩) [⟨32768, 65536⟩] = true ∧ spansOrdered (some ⟨0, 32769⟩) [⟨32768, 65536⟩] = false ∧
    pl = [0, BitVec.ofNat 8 (propCode .bw), BitVec.ofNat 8 2, BitVec.ofNat 8 1] ++
      [(⟨32768, 65536⟩ : Zone)].flatMap (fun z => bytesBE 2 z.a ++ bytesBE 2 (z.b - 1)) := by decide +kernel

theorem witness_CommonBankIsWritten :
    let es : List (Nat × Nat) := [(2, 3000), (4, 600)]
    let pl : List Byte := [2, 2, 0, 11, 184, 4, 0, 2, 88]
    (let s := asked (holding .machine live) .machine 10 pl
     waits s .machine (msg 10 pl) 1 ∧ s.cta.holder = some .machine ∧
     pl = bytesBE 1 es.length ++ es.flatMap (fun e => bytesBE 1 e.1 ++ bytesBE 3 e.2) ∧
     s.cmu.state ∈ [CarriageState.parked, .unhomed, .fault] ∧ (es.map Prod.fst).Nodup ∧
     (∀ e ∈ es, commonFieldOk (writeEntries s.rbs.common es).pMax e.1 e.2 = true) ∧ driveSettled s ∧
     isOverdue s = s.osq.overdue) ∧
    (carriageIn .traverse 5000).cmu.state ∉ [CarriageState.parked, .unhomed, .fault] ∧
    commonFieldOk 110000 4 601 = false ∧
    (let b := writeEntries live.rbs.common [(41, 1)]
     let at_ (n : Nat) : State :=
       { live with ports := live.ports.set .quality { live.ports.get .quality with silentTimer := n } }
     b.silentTime = 1 ∧ ((at_ 2000).ports.get .quality).silent = false ∧
     b.silentTime * 2000 ≤ ((at_ 2000).ports.get .quality).silentTimer ∧
     ¬b.silentTime * 2000 ≤ ((at_ 1999).ports.get .quality).silentTimer ∧
     (holding .machine live).cta.waiting = []) ∧
    (let b := writeEntries live.rbs.common [(42, 1)]
     let due (n : Nat) (overdue : Bool) : State := { live with osq := { live.osq with due := true, dueAge := n, overdue := overdue } }
     (due 122000 false).osq.overdue = false ∧ 60 * b.overdueTime < dueSeconds (due 122000 false).osq ∧
     (due 121999 true).osq.overdue = true ∧ ¬60 * b.overdueTime < dueSeconds (due 121999 true).osq) ∧
    (let b := writeEntries live.rbs.common [(21, 1), (40, 4)]
     (∀ e ∈ [((21 : Nat), (1 : Nat)), (40, 4)], 10 ≤ e.1 ∧ e.1 ≤ 40) ∧
     (b.levels ≠ live.rbs.common.levels ∨ b.ceiling ≠ live.rbs.common.ceiling)) ∧
    (let b := writeEntries live.rbs.common [(5, 200)]
     b.crawl ≠ live.rbs.common.crawl ∧ live.msm.state = .down ∧ live.msm.speed < b.crawl ∧
     (machineIn .run live).msm.state ≠ .down ∧ ¬({ live.msm with speed := 200 } : Msm).speed < b.crawl) ∧
    (let b := writeEntries live.rbs.common [(43, 1)]
     let line (m : MachineState) (high : Bool) : State :=
       machineIn m { live with msm := { live.msm with lines := { live.msm.lines with bl0 := ⟨some high, 3, some high⟩ } } }
     b.lineEnable ≠ live.rbs.common.lineEnable ∧
     (∀ k ∈ allLines, (lineReading b (line .run false).msm k = .absent ∧
       lineReading live.rbs.common (line .run false).msm k ≠ .absent) ↔ k = .bl0) ∧
     (∀ k ∈ allLines, ¬lineReading b (line .brk true).msm k = .absent) ∧
     lineCondition b (line .brk true).msm = true) := by decide +kernel

theorem witness_GradesAreSelected :
    (waits (asked live .quality 11 [8]) .quality (msg 11 [8]) 1 ∧ 8 ≤ (8 : Byte).toNat) ∧
    (let s := asked (banked none none live) .quality 11 [2]
     waits s .quality (msg 11 [2]) 1 ∧ s.rbs.banks[(1 : BankNo)] = some { bank with n := 300 } ∧ s.rbs.active = none) ∧
    (banked (some 1) none live).rbs.active = some 1 ∧
    (let s := asked (banked (some 1) (some (0, .machine)) (carriageIn .traverse 5000)) .quality 11 [2]
     s.rbs.active = some 1 ∧ s.rbs.pending = some (0, .machine)) ∧
    (let s : State := { live with ports := live.ports.set .machine { live.ports.get .machine with silent := true } }
     (s.ports.get .machine).silent = true ∧ ((full 32 live).ports.get .quality).outbound.length = 32) ∧
    (let s := asked (banked (some 0) (some (2, .machine)) (carriageIn .traverse 5000)) .quality 11 [2]
     s.rbs.active = some 0 ∧ s.cmu.state ∉ [CarriageState.parked, .fixed, .unhomed, .fault, .held] ∧
     s.rbs.pending = some (2, .machine) ∧ (s.ports.get .machine).silent = false ∧
     (s.ports.get .machine).outbound.length + (s.ports.get .machine).reserved < 32) ∧
    live.rbs.banks[(6 : BankNo)] = none := by decide +kernel

theorem witness_TheTokenIsClaimedAndReleased :
    (waits (asked live .machine 13 []) .machine (msg 13 []) 1 ∧ live.cta.holder = none) ∧
    (holding .quality live).cta.holder = some .quality ∧
    (let s : State := asked { live with cta := ⟨some .quality, [.machine, .actuator], none⟩ } .quality 14 []
     waits s .quality (msg 14 []) 1 ∧ s.cta.holder = some .quality ∧ s.cta.waiting = .machine :: [.actuator] ∧
     (s.ports.get .machine).silent = false) ∧
    Port.actuator ∈ ({ live with cta := ⟨some .quality, [.actuator], none⟩ } : State).cta.waiting := by decide +kernel

/-- A plan in range, one with a speed below it, and carriages in TRAVERSE, UNHOMED and PARKED. -/
theorem witness_PlansAreStagedOrApplied :
    let plan : ScanPlan := ⟨.scan, .edgeFollow 5000, 600, 255, 120000, false⟩
    let s (u : State) : State := asked (holding .quality u) .quality 15 (planBytes plan)
    (waits (s live) .quality (msg 15 (planBytes plan)) 1 ∧ (s live).cta.holder = some .quality ∧
      (s live).cmu.state = .unhomed ∧ driveSettled (s live) ∧ (s live).cmu.overrideUntaken = false) ∧
    planFits plan ∧ planInRange plan ∧ planFits { plan with speed := 49 } ∧ ¬planInRange { plan with speed := 49 } ∧
    (s (carriageIn .traverse 5000)).cmu.state ∉ [CarriageState.unhomed, .parked, .fixed, .held] ∧
    (s (carriageIn .parked 800)).cmu.state ∈ [CarriageState.unhomed, .parked, .fixed, .held] ∧
    ((dueNow true (carriageIn .fixed 800)).osq.due = true ∧ (dueNow true (carriageIn .fixed 800)).osq.requested = true ∧
      (dueNow true (carriageIn .fixed 800)).osq.step = .idle ∧ (carriageIn .parked 800).override = true) ∧
    (∀ st ∈ [CarriageState.parked, .fixed, .held],
      let u := freely .scan (carriageIn st 800)
      u.override = false ∧ u.osq.due = false ∧ ¬plan.interval ≤ u.osq.scanCount ∧ u.cmu.state = st) ∧
    ((withCmu live fun c => { c with plan := { c.plan with mode := .fixed, fixedPos := 800 } }).cmu.plan.fixedPos = 800 ∧
      (carriageIn .held 800).cmu.turnOwed = false) := by
  refine ⟨by decide +kernel, by simp [planFits], by simp [planInRange], by simp [planFits], by simp [planInRange],
    by decide, by decide, by decide +kernel, by decide +kernel, by decide +kernel⟩

/-- HOLD on the way to standardize, in TRAVERSE with a stop ahead, with one already reached, with none and with one armed; STEP
and RESUME from HELD mid-traverse, at the compare target, and at a limit. -/
theorem witness_HoldStepAndResume :
    let s (u : State) (k : Byte) : State := asked (holding .quality u) .quality k []
    let held (p : Int) (owed : Bool) : State :=
      withCmu (carriageIn .held p) fun c => { c with turnOwed := owed, compareTarget := some 106000 }
    let mapped (u : State) : State := { u with ebm := { u.ebm with map := some map600 } }
    let on (p : Int) : State := s (mapped (traversing .none p)) 16
    (let u := s (carriageIn .toStd 5000) 16
     waits u .quality (msg 16 []) 1 ∧ u.cta.holder = some .quality ∧ driveSettled u ∧ u.cmu.overrideUntaken = false) ∧
    ((on 10560).cmu.state = .traverse ∧ holdStop (on 10560) = some ⟨10797, 10647⟩ ∧
      reached .fwd 10560 10647 = false) ∧
    (holdStop (on 10499) = some ⟨10649, 10499⟩ ∧ reached .fwd 10499 10499 = true ∧ (on 10499).osq.due = false) ∧
    (holdStop (on 99351) = none ∧ stepStop (on 99499) = some ⟨99500, 99500⟩ ∧ stepStop (on 99500) = none) ∧
    (s (traversing (.armed none) 5000) 16).cmu.hold = .armed none ∧
    (waits (s (held 5000 false) 17) .quality (msg 17 []) 1 ∧ (s (held 5000 false) 17).cmu.turnOwed = false ∧
      reached .fwd 5000 106000 = false) ∧
    (let u := withWindow (s (held 106000 false) 18)
     waits u .quality (msg 18 []) 1 ∧ reached .fwd u.cmu.position 106000 = true ∧ u.pen.window ≠ none) ∧
    (waits (s (held 106000 true) 18) .quality (msg 18 []) 1 ∧ (s (held 106000 true) 18).cmu.turnOwed = true) ∧
    (carriageIn .parked 800).cmu.state ∉ [CarriageState.toStd, .atStd, .traverse] := by decide +kernel

theorem witness_StandardizeIsAcceptedByStep :
    let s (u : State) : State := asked (holding .quality u) .quality 19 []
    (waits (s live) .quality (msg 19 []) 1 ∧ (s live).cta.holder = some .quality ∧ driveSettled (s live) ∧
      (s live).osq.requested = false ∧ (s live).osq.step = .idle ∧
      (s live).cmu.state ∉ [CarriageState.parked, .held, .fixed]) ∧
    (s { live with osq := { live.osq with requested := true } }).osq.requested = true ∧
    (s { live with osq := { live.osq with step := .settle } }).osq.step ∈ [OsqStep.travel, .settle] ∧
    (s { live with osq := { live.osq with step := .fetch } }).osq.step ∈ [OsqStep.reference, .fetch, .commit] ∧
    (s (carriageIn .parked 800)).cmu.state ∈ [CarriageState.parked, .held, .fixed] ∧
    (carriageIn .fixed 2500).cmu.position = live.rbs.common.stdPos := by decide +kernel

theorem witness_FaultsAreCleared :
    let s (u : State) : State := asked u .quality 20 []
    (waits (s live) .quality (msg 20 []) 1 ∧ (s live).cta.holder = none ∧ (s live).cmu.state ≠ .fault) ∧
    ((s (carriageIn .fault 5000)).cmu.state = .fault ∧ (s (carriageIn .fault 5000)).cmu.drvflt.confirmed ≠ some true ∧
      (s (carriageIn .fault 5000)).cmu.homed = true ∧ live.cmu.homed = false ∧ live.cmu.home.confirmed ≠ some true) ∧
    (s { carriageIn .fault 5000 with cta := ⟨some .quality, [], some planPowerOn⟩ }).cta.pending = some planPowerOn ∧
    (withCmu (carriageIn .fault 5000) fun c => { c with motionFault := true }).cmu.motionFault = true := by
  decide +kernel

theorem witness_SpeedAndDeclareChangeTheMachine :
    let s (u : State) (k : Byte) (pl : List Byte) : State := asked u .machine k pl
    (waits (s live 21 (bytesBE 2 3001)) .machine (msg 21 (bytesBE 2 3001)) 1 ∧ 3000 < 3001) ∧
    (waits (s live 21 (bytesBE 2 49)) .machine (msg 21 (bytesBE 2 49)) 1 ∧ driveSettled live ∧ live.msm.state = .down ∧
      49 < live.rbs.common.crawl) ∧
    ((machineIn .run live).msm.state ≠ .down ∧ live.rbs.common.crawl ≤ 50 ∧
      lineCondition live.rbs.common live.msm = false ∧
      lineCondition (lineBl0 (some true) live).rbs.common (lineBl0 (some true) live).msm = true) ∧
    waits (s (machineIn .brk live) 22 [1]) .machine (msg 22 [1]) 1 ∧
    (logged [openBreak] (machineIn .thread live)).msm.log = openBreak :: [] ∧ openBreak.isOpen = true ∧
    (let r := { openBreak with isOpen := false }
     let u := logged [r] (machineIn .brk live)
     driveSettled u ∧ u.msm.state = .brk ∧ u.msm.log = r :: [] ∧ r.isOpen = false) ∧ 4 ≤ (4 : Byte).toNat := by
  decide +kernel

theorem witness_ParkMovesAndFreesTheCarriage :
    let s (u : State) (c : Byte) : State := asked u .machine 23 [c]
    let free (st : CarriageState) (mode : PlanMode) (resume : Bool) : State := machineIn .run { carriageIn st 800 with
      cmu := { (carriageIn st 800).cmu with
        parkSource := true, plan := { planPowerOn with mode := mode, resume := resume } } }
    (waits (s (carriageIn .traverse 5000) 1) .machine (msg 23 [1]) 1 ∧
      (s (carriageIn .traverse 5000) 1).cmu.inTraverse = true) ∧
    (live.cmu.state ∉ [CarriageState.traverse, .turning, .toLimit, .toFixed, .fixed, .held] ∧ driveSettled live) ∧
    (live.msm.source || live.cmu.motionFault) = true ∧
    (let u := free .parked .scan true
     (u.msm.source || u.cmu.motionFault) = false ∧ u.cmu.parkSource = true ∧ u.cmu.state = .parked ∧ u.osq.due = false ∧
     u.cmu.plan.resume = true ∧ u.cmu.plan.mode = .scan ∧ u.cmu.overrideUntaken = false ∧ driveSettled u) ∧
    (free .parked .scan false).cmu.plan.resume = false ∧ (free .unhomed .scan false).cmu.state ≠ .parked ∧
    2 ≤ (2 : Byte).toNat := by decide +kernel

theorem witness_AlarmsAreAcknowledged :
    let point (i : PointNo) (st : PointState) : State :=
      asked { live with alt := { live.alt with points := live.alt.points.set i { pointNormal with state := st } } } .quality
        24 [BitVec.ofNat 8 i.val]
    waits (asked live .quality 24 [30]) .quality (msg 24 [30]) 1 ∧ 30 ≤ (30 : Byte).toNat ∧
    ((point 29 .normal).alt.points[(29 : PointNo)]).state ∈ [PointState.normal, .activeAck] ∧
    ((point ptBreak .activeUnack).alt.points[ptBreak]).state ∈ [PointState.activeUnack, .returnUnack] ∧
    (logged [openBreak] (point ptBreak .activeUnack)).msm.log = openBreak :: [] ∧
    waits (point 23 .returnUnack) .quality (msg 24 [23]) 1 := by decide +kernel

theorem witness_RestartsKeepWhatTheTablesKeep :
    waits (asked live .quality 27 []) .quality (msg 27 []) 1 ∧
    (waits (asked (carriageIn .traverse 5000) .machine 26 []) .machine (msg 26 []) 1 ∧
      (carriageIn .traverse 5000).cmu.inTraverse = true) ∧
    (carriageIn .fault 5000).cmu.state = .fault ∧
    (let s := inCycle 40 (oneEntry ⟨.doneSeen, none, some .done, true⟩) { carriageIn .atStd 2500 with osq := { live.osq with step := .fetch } }
     s.osq.step ≠ .idle ∧ s.hbc.seq = some (oneEntry ⟨.doneSeen, none, some .done, true⟩)) ∧
    (dueNow true (carriageIn .parked 800)).osq.due = true := by decide +kernel

/-- A port that holds the token and streams from the generation it has pinned, and a break on record. -/
def busy : State :=
  let s := logged [openBreak] (holding .quality (stored (streaming (.running (stream 0 60)) live)))
  { s with pending := [.encoderSkip], pen := { s.pen with pins := ⟨some 7, none, none⟩ } }

/-- Every invariant has a state that is not the reset state, meets it and takes a step. -/
theorem witness_EveryStepKeeps :
    queuesOk busy ∧ tokenOk busy ∧ pinsOk busy ∧ floorOk busy ∧ logOk busy.msm ∧ carriageOk busy ∧ driveOk busy.drive ∧
    ∃ t, step busy = .next t := by
  refine ⟨?_, ⟨?_, ?_⟩, ?_, ⟨by decide, by decide, .inl rfl⟩, ?_, ?_, ?_, _, rfl⟩
  · intro p; cases p <;> simp [portQueuesOk] <;> decide
  · refine ⟨by decide, by decide, ?_⟩
    intro p h; cases p <;> revert h <;> decide
  · intro p
    have h : (busy.ports.get p).silent = false := by cases p <;> rfl
    exact ⟨fun hs => by simp [h] at hs, fun hs => by simp [h] at hs⟩
  · intro p
    cases p
    · exact ⟨rfl, 0, generation 7, rfl, rfl⟩
    · rfl
    · rfl
  · unfold logOk recordOk; decide
  · refine ⟨?_, ⟨by decide, by decide, by decide, by decide, by decide, fun _ _ _ h => nomatch h⟩, ?_, ?_⟩
    · unfold overrideOk; decide
    · unfold traverseOk; decide
    · unfold faultOk; decide
  · simp [driveOk]; decide

end Sys2Proof.Tests
end

section
/-! PROOFS. The ratio and the calibration of the Sample Converter (R64 … R66). -/

namespace Sys2Proof.Machine

/-! ### The ratio (R64) -/

theorem ratio_of_twice_le {raw ref : Nat} (href : 0 < ref) (h : 2 * ref ≤ raw) : ratio raw ref = (65535, true) :=
  if_pos ((Nat.le_div_iff_mul_le href).2 (by omega))

theorem ratio_of_lt_twice {raw ref : Nat} (href : 0 < ref) (h : raw < 2 * ref) :
    ratio raw ref = (raw * 32768 / ref, false) :=
  if_neg (Nat.not_le.2 ((Nat.div_lt_iff_lt_mul href).2 (by omega)))

/-- Settles O20: the two equations of `ratio`, below twice the reference and from there on. -/
theorem ratioIsFlooredAndCapped : Obligations.RatioIsFlooredAndCapped := by
  refine ⟨fun raw ref hraw href _ => ⟨by omega, ?_⟩, fun _ _ _ => rfl⟩
  rcases Nat.lt_or_ge raw (2 * ref) with h | h
  · have below := (Nat.div_lt_iff_lt_mul href).1 (Nat.lt_succ_self (raw * 32768 / ref))
    simp [ratio_of_lt_twice href h, Nat.div_mul_le_self, below, h]
  · simp [ratio_of_twice_le href h, h]

/-! ### Rounding -/

@[simp] theorem roundHalfUp_mul (m : Nat) {d : Nat} (hd : 0 < d) : roundHalfUp (m * d) d = m := by
  have hform : 2 * (m * d) + d = d + 2 * d * m := by ring
  rw [roundHalfUp, hform, Nat.add_mul_div_left _ _ (by omega), Nat.div_eq_of_lt (by omega), Nat.zero_add]

theorem roundHalfUp_mono {a a' : Nat} (h : a ≤ a') (d : Nat) : roundHalfUp a d ≤ roundHalfUp a' d :=
  Nat.div_le_div_right (by omega)

/-- An exact quotient is its own rounding. -/
theorem roundHalfAway_mul (m : Int) {d : Nat} (hd : 0 < d) : roundHalfAway (m * d) d = m := by
  have hmag : roundHalfUp (m * d).natAbs d = m.natAbs := by simp [Int.natAbs_mul, hd]
  have hsign : m * d < 0 ↔ m < 0 := by
    simpa using Int.mul_lt_mul_right (b := m) (c := 0) (Int.natCast_pos.2 hd)
  simp only [roundHalfAway, hmag, hsign]
  split <;> omega

theorem roundHalfAway_zero {d : Nat} (hd : 0 < d) : roundHalfAway 0 d = 0 := by
  simpa using roundHalfAway_mul 0 hd

theorem roundHalfAway_mono {a a' : Int} (h : a ≤ a') (d : Nat) : roundHalfAway a d ≤ roundHalfAway a' d := by
  unfold roundHalfAway
  split <;> split
  · have := roundHalfUp_mono (show a'.natAbs ≤ a.natAbs by omega) d
    omega
  · omega
  · omega
  · have := roundHalfUp_mono (show a.natAbs ≤ a'.natAbs by omega) d
    omega

/-- R65: the rounded part `n / d` of a difference lies between nothing and all of it, for a fraction from 0 to 1. -/
theorem roundHalfAway_part_between (m : Int) {n : Int} {d : Nat} (hd : 0 < d) (hn : 0 ≤ n) (hnd : n ≤ d) :
    min 0 m ≤ roundHalfAway (m * n) d ∧ roundHalfAway (m * n) d ≤ max 0 m := by
  have hnone : roundHalfAway 0 d = 0 := roundHalfAway_zero hd
  have hall : roundHalfAway (m * d) d = m := roundHalfAway_mul m hd
  rcases Int.le_total 0 m with hm | hm
  · have hlow := roundHalfAway_mono (Int.mul_nonneg hm hn) d
    have hhigh := roundHalfAway_mono (Int.mul_le_mul_of_nonneg_left hnd hm) d
    omega
  · have hlow := roundHalfAway_mono (Int.mul_le_mul_of_nonpos_left hm hnd) d
    have hhigh := roundHalfAway_mono (Int.mul_nonpos_of_nonpos_of_nonneg hm hn) d
    omega

/-! ### Ascending tables (R65) -/

theorem ascending_iff_isChain : ∀ t : List Breakpoint, ascending t = true ↔ t.IsChain (·.x < ·.x)
  | [] => by simp [ascending]
  | [_] => by simp [ascending]
  | a :: b :: rest => by simp [ascending, ascending_iff_isChain (b :: rest)]

theorem ascending_pairwise {t : List Breakpoint} (h : ascending t = true) : t.Pairwise (·.x < ·.x) :=
  have : IsTrans Breakpoint (·.x < ·.x) := ⟨fun _ _ _ => Nat.lt_trans⟩
  List.isChain_iff_pairwise.1 ((ascending_iff_isChain t).1 h)

theorem ascending_lt {t : List Breakpoint} (h : ascending t = true) {i j : Nat} (hij : i < j) (hj : j < t.length) :
    t[i].x < t[j].x :=
  List.pairwise_iff_getElem.1 (ascending_pairwise h) i j (by omega) hj hij

theorem ascending_le {t : List Breakpoint} (h : ascending t = true) {i j : Nat} (hij : i ≤ j) (hj : j < t.length) :
    t[i].x ≤ t[j].x := by
  rcases Nat.lt_or_eq_of_le hij with hlt | rfl
  · exact (ascending_lt h hlt hj).le
  · exact le_rfl

/-! ### The calibration (R65, R66) -/

section
variable {t : List Breakpoint} {q : Nat}

/-- R66: the three rows, in the order the model tries them. -/
theorem calibrate_eq_ite (ht : 2 ≤ t.length) (capped : Bool) : calibrate t q capped =
    if (t[t.length - 1]).x < q then ⟨(t[t.length - 1]).y, .highClamp⟩
    else if q < (t[0]).x then ⟨(t[0]).y, if capped then .highClamp else .lowClamp⟩
    else ⟨interpolate q t, if capped then .highClamp else .valid⟩ := by
  have hfirst : t.head? = some t[0] := List.head?_eq_getElem? ▸ List.getElem?_eq_getElem _
  have hlast : t.getLast? = some t[t.length - 1] := List.getLast?_eq_getElem? ▸ List.getElem?_eq_getElem _
  simp only [calibrate, hfirst, hlast, Option.getD_some]

theorem calibrate_of_last_lt (ht : 2 ≤ t.length) (capped : Bool) (h : (t[t.length - 1]).x < q) :
    calibrate t q capped = ⟨(t[t.length - 1]).y, .highClamp⟩ := by
  rw [calibrate_eq_ite ht, if_pos h]

theorem calibrate_uncapped_of_lt_first (ht : 2 ≤ t.length) (hasc : ascending t = true) (h : q < (t[0]).x) :
    calibrate t q false = ⟨(t[0]).y, .lowClamp⟩ := by
  have hends := ascending_le hasc (Nat.zero_le (t.length - 1)) (by omega)
  rw [calibrate_eq_ite ht, if_neg (by omega), if_pos h]
  rfl

theorem calibrate_of_inside (ht : 2 ≤ t.length) (capped : Bool) (hfirst : (t[0]).x ≤ q)
    (hlast : q ≤ (t[t.length - 1]).x) :
    calibrate t q capped = ⟨interpolate q t, if capped then .highClamp else .valid⟩ := by
  rw [calibrate_eq_ite ht, if_neg (Nat.not_lt.2 hlast), if_neg (Nat.not_lt.2 hfirst)]

end

/-- R65: the segment chosen is the last, short of the end of the table, whose left end does not exceed the ratio. -/
theorem interpolate_eq_onSegment (q : Nat) (t : List Breakpoint) :
    ∀ (k : Nat) (hk : k + 1 < t.length), ascending t = true → (t[k]).x ≤ q →
      (q < (t[k + 1]).x ∨ k + 2 = t.length) → interpolate q t = onSegment t[k] t[k + 1] q := by
  induction t using interpolate.induct (q := q) with
  | case1 a b c rest hb ih =>
    intro k hk hasc hleft hright
    rw [interpolate, if_pos hb]
    cases k with
    | zero =>
      rcases hright with h | h
      · exact absurd hb (Nat.not_le.2 h)
      · simp at h
    | succ k =>
      have htail : ascending (b :: c :: rest) = true := (Bool.and_eq_true_iff.1 hasc).2
      exact ih k (by simpa using hk) htail hleft (by simpa using hright)
  | case2 a b c rest hb =>
    intro k hk hasc hleft _
    rw [interpolate, if_neg hb]
    cases k with
    | zero => rfl
    | succ k =>
      have hsecond : b.x ≤ _ := ascending_le hasc (Nat.le_add_left 1 k) (by omega)
      omega
  | case3 a b =>
    intro k hk _ _ _
    obtain rfl : k = 0 := by simpa using hk
    rfl
  | case4 a => intro k hk; simp at hk
  | case5 => intro k hk; simp at hk

/-- Settles O21: the two clamps and the segment chosen by the equations of `calibrate`, and the bounds of the rounded
correction on that segment. -/
theorem calibrationFollowsTheTable : Obligations.CalibrationFollowsTheTable := by
  intro t q capped ht _ hasc hrange hcap _
  refine ⟨fun hq => ?_, calibrate_of_last_lt ht capped, fun k hk hleft hright hlast => ?_⟩
  · have hx := (hrange t[0] (List.getElem_mem _)).1
    obtain rfl : capped = false := by
      rw [Bool.eq_false_iff]
      intro hc
      have := hcap hc
      omega
    exact calibrate_uncapped_of_lt_first ht hasc hq
  · intro a b v
    have hab : a.x < b.x := ascending_lt hasc (Nat.lt_succ_self k) hk
    have hqb : q ≤ b.x := by
      rcases hright with h | h
      · exact h.le
      · simpa [b, ← h] using hlast
    have haq : a.x ≤ q := hleft
    have hd : 0 < b.x - a.x := by omega
    have hpart := roundHalfAway_part_between ((b.y : Int) - a.y) hd (n := (q : Int) - a.x) (by omega) (by omega)
    have hfirst : (t[0]).x ≤ q := (ascending_le hasc (Nat.zero_le k) (by omega)).trans hleft
    refine ⟨by omega, ?_, by omega, by omega, fun h => ?_, fun h => ?_⟩
    · rw [calibrate_of_inside ht capped hfirst hlast, interpolate_eq_onSegment q t k hk hasc hleft hright]
      rfl
    · simp only [v, h, Int.sub_self, Int.mul_zero, roundHalfAway_zero hd, Int.add_zero]
    · have hall := roundHalfAway_mul ((b.y : Int) - a.y) hd
      rw [Int.natCast_sub hab.le] at hall
      simp only [v, h, hall, add_sub_cancel]

end Sys2Proof.Machine
end

section
/-! PROOFS. The rounded average and root of 00_scope, and the statistics of the VALID bins (R113 … R115). -/

namespace Sys2Proof.Machine

/-! ### Rounding -/

theorem roundHalfUp_le {a m d : Nat} (hd : 0 < d) (h : a ≤ m * d) : roundHalfUp a d ≤ m :=
  (roundHalfUp_mono h d).trans_eq (roundHalfUp_mul m hd)

/-! ### The floored root -/

/-- The root of `n` lies in the interval of length `2 ^ k` above `r`, and each bit halves the interval. -/
theorem sqrtBits_eq_sqrt (n : Nat) : ∀ k r : Nat, r * r ≤ n → n < (r + 2 ^ k) * (r + 2 ^ k) → sqrtBits n k r = n.sqrt
  | 0, _, hlow, hhigh => Nat.eq_sqrt.2 ⟨hlow, hhigh⟩
  | k + 1, r, hlow, hhigh => by
    rw [sqrtBits]
    split
    next hbit =>
      have hhalf : r + 2 ^ (k + 1) = r + 2 ^ k + 2 ^ k := by ring
      exact sqrtBits_eq_sqrt n k _ hbit (hhalf ▸ hhigh)
    next hbit => exact sqrtBits_eq_sqrt n k r hlow (Nat.not_le.1 hbit)

theorem floorSqrt_eq_sqrt (n : Nat) : floorSqrt n = n.sqrt := by
  refine sqrtBits_eq_sqrt n _ 0 (Nat.zero_le n) ?_
  calc
    n < 2 ^ (n.log2 + 1) := Nat.lt_log2_self
    _ ≤ 2 ^ (n.log2 / 2 + 1 + (n.log2 / 2 + 1)) := Nat.pow_le_pow_right (by omega) (by omega)
    _ = (0 + 2 ^ (n.log2 / 2 + 1)) * (0 + 2 ^ (n.log2 / 2 + 1)) := by rw [Nat.zero_add, Nat.pow_add]

theorem floorSqrt_spec (n : Nat) :
    floorSqrt n * floorSqrt n ≤ n ∧ n < (floorSqrt n + 1) * (floorSqrt n + 1) :=
  Nat.eq_sqrt.1 (floorSqrt_eq_sqrt n)

theorem floorSqrt_le {n m : Nat} (h : n ≤ m ^ 2) : floorSqrt n ≤ m := by
  rw [floorSqrt_eq_sqrt, ← Nat.sqrt_eq' m]
  exact Nat.sqrt_le_sqrt h

/-! ### The statistics (R113, R114, R115) -/

/-- R114: the sum of the squared deviations of values from an average. -/
def squaresAbout (a : Nat) (vs : List Nat) : Nat := (vs.map (fun (v : Nat) => ((v : Int) - a).natAbs ^ 2)).sum

/-- The statement lifts the list of values to the integers as a whole, the model each value by itself. -/
theorem squaresAbout_of_lifted (a : Nat) (vs : List Nat) :
    ((vs : List Int).map (fun (v : Int) => (v - a).natAbs ^ 2)).sum = squaresAbout a vs := by
  have hlift : (vs : List Int) = vs.map (fun (v : Nat) => (v : Int)) := List.flatMap_pure_eq_map _ vs
  rw [hlift, List.map_map]
  rfl

theorem squaresAbout_le {a m : Nat} {vs : List Nat} (ha : a ≤ m) (hvs : ∀ v ∈ vs, v ≤ m) :
    squaresAbout a vs ≤ m ^ 2 * vs.length := by
  have hterm : ∀ x ∈ vs.map (fun (v : Nat) => ((v : Int) - a).natAbs ^ 2), x ≤ m ^ 2 := by
    rw [List.forall_mem_map]
    intro v hv
    have := hvs v hv
    exact Nat.pow_le_pow_left (by omega) 2
  simpa [squaresAbout, Nat.mul_comm] using List.sum_le_card_nsmul _ _ hterm

theorem average_le {m : Nat} {vs : List Nat} (hne : vs ≠ []) (hvs : ∀ v ∈ vs, v ≤ m) :
    roundHalfUp vs.sum vs.length ≤ m := by
  refine roundHalfUp_le (List.length_pos_iff.2 hne) ?_
  simpa [Nat.mul_comm] using List.sum_le_card_nsmul vs m hvs

section
variable {n : Option Nat} {bins : List BinOut}

theorem statsOf_of_none_valid (h : validValues bins = []) :
    statsOf n bins = ⟨none, none, 0, n.elim true (fun n => 0 < ceilDiv n 2), true⟩ := by
  simp [statsOf, h]

theorem statsOf_of_valid (h : validValues bins ≠ []) :
    statsOf n bins =
      let vs := validValues bins
      let a := roundHalfUp vs.sum vs.length
      ⟨some a, some (2 * floorSqrt (roundHalfUp (squaresAbout a vs) vs.length)), vs.length,
        n.elim true (fun n => vs.length < ceilDiv n 2), true⟩ :=
  if_neg (mt List.length_eq_zero_iff.1 h)

theorem statsOf_nValid : (statsOf n bins).nValid = (validValues bins).length := by
  by_cases h : validValues bins = []
  · simp [statsOf_of_none_valid h, h]
  · rw [statsOf_of_valid h]

end

theorem statsOf_poor_iff (n : Nat) (bins : List BinOut) :
    (statsOf (some n) bins).poor = true ↔ 2 * (validValues bins).length < n := by
  have hhalf : (validValues bins).length < ceilDiv n 2 ↔ 2 * (validValues bins).length < n := by
    unfold ceilDiv
    omega
  rw [← hhalf]
  by_cases h : validValues bins = []
  · simp [statsOf_of_none_valid h, h]
  · simp [statsOf_of_valid h]

/-- Settles O30: the root is `Nat.sqrt`, the average and the spread are those of the two equations of `statsOf`, and both
bounds come from an average that lies among the values. -/
theorem statisticsOfTheValidBins : Obligations.StatisticsOfTheValidBins := by
  refine ⟨floorSqrt_spec, fun n bins => ?_⟩
  intro vs st
  refine ⟨statsOf_nValid, statsOf_poor_iff n bins, fun hnone => ?_, fun hsome => ?_⟩
  · have hst : st = _ := statsOf_of_none_valid hnone
    simp [hst]
  · have hst : st = _ := statsOf_of_valid hsome
    have hpos : 0 < vs.length := List.length_pos_iff.2 hsome
    obtain ⟨hlow, hhigh⟩ := roundHalfUp_spec vs.sum hpos
    refine ⟨roundHalfUp vs.sum vs.length, congrArg PropStats.avg hst, by linarith, by linarith, ?_⟩
    intro squares variance
    have hsum : squares = squaresAbout (roundHalfUp vs.sum vs.length) vs := squaresAbout_of_lifted _ vs
    have hspread : st.spread = some (2 * floorSqrt variance) := by
      simp only [variance, hsum]
      exact congrArg PropStats.spread hst
    refine ⟨hspread, fun hlen hvs => ?_⟩
    have hsquares : squares ≤ 65535 ^ 2 * vs.length := hsum.trans_le <| squaresAbout_le (average_le hsome hvs) hvs
    have hroot : floorSqrt variance ≤ 65535 := floorSqrt_le (roundHalfUp_le hpos hsquares)
    omega

end Sys2Proof.Machine
end

section
/-! PROOFS. The annunciation floor at its definition (R167), and what every move of the carriage leaves of the drive, the token,
the sequencer, the alarm points and the plan. -/

namespace Sys2Proof.Machine

open Safety

/-! ### The floor (R167) -/

/-- The fold of `floorOf` over any list of points: a lower bound of the ceiling and of the levels held, and one of them. -/
theorem foldl_floor_spec (levels : Vector Nat 30) (pts : Vector AlarmPoint 30) :
    ∀ (l : List PointNo) (c : Nat),
      let f := l.foldl (fun f i => if (pts[i]).holdsFloor (levelOf levels i) then min f (levelOf levels i) else f) c
      f ≤ c ∧ (∀ i ∈ l, (pts[i]).holdsFloor (levelOf levels i) = true → f ≤ levelOf levels i) ∧
      (f = c ∨ ∃ i, (pts[i]).holdsFloor (levelOf levels i) = true ∧ f = levelOf levels i) := by
  intro l
  induction l with
  | nil => intro c; simp
  | cons j l ih =>
    intro c
    by_cases hj : (pts[j]).holdsFloor (levelOf levels j) = true
    · obtain ⟨hle, hall, hex⟩ := ih (min c (levelOf levels j))
      simp only [List.foldl_cons, hj, if_true]
      refine ⟨by omega, ?_, ?_⟩
      · intro i hi hh
        rcases List.mem_cons.1 hi with rfl | hi
        · omega
        · exact hall i hi hh
      · rcases hex with hex | hex
        · rcases Nat.le_total c (levelOf levels j) with h | h
          · exact .inl (by omega)
          · exact .inr ⟨j, hj, by omega⟩
        · exact .inr hex
    · obtain ⟨hle, hall, hex⟩ := ih c
      simp only [List.foldl_cons, hj]
      refine ⟨hle, ?_, hex⟩
      intro i hi hh
      rcases List.mem_cons.1 hi with rfl | hi
      · exact absurd hh hj
      · exact hall i hi hh

/-- R167: a floor that `floorOf` computes is the one its definition gives. -/
theorem floorOk_of_eq {s : State} (h : s.alt.floor = floorOf s.rbs.common.levels s.rbs.common.ceiling s.alt.points) :
    floorOk s := by
  obtain ⟨hle, hall, hex⟩ := foldl_floor_spec s.rbs.common.levels s.alt.points (List.finRange 30) s.rbs.common.ceiling
  unfold floorOk
  rw [h]
  exact ⟨hle, fun i hi => hall i (List.mem_finRange i) hi, hex⟩

/-- The floor rule reads the points, F, the levels and the ceiling alone. -/
theorem floorOk_congr {s t : State} (hf : t.alt.floor = s.alt.floor) (hp : t.alt.points = s.alt.points)
    (hc : t.rbs.common = s.rbs.common) (h : floorOk s) : floorOk t := by
  unfold floorOk
  rw [hf, hp, hc]
  exact h

/-- R168: a state whose alarm table has just ended an event has the floor of R167. -/
theorem floorOk_settled (s : State) (ap : AltPorts) : floorOk (s.withAlarms (settleAlarms s.alarmCtx ap)) :=
  floorOk_of_eq (settleAlarms_floor s.alarmCtx ap)

theorem activatePoint_floor (x : AlarmCtx) (i : PointNo) (ap : AltPorts) :
    (activatePoint x i ap).1.floor = floorOf x.levels x.ceiling (activatePoint x i ap).1.points := by
  obtain ⟨_, e⟩ | ⟨_, e⟩ | ⟨_, e⟩ := activatePoint_cases x i ap
  · rw [e]; exact settleAlarms_floor ..
  · rw [e]; exact settleAlarms_floor ..
  · rw [e]; exact settleAlarms_floor ..

theorem floorOk_activate (s : State) (i : PointNo) : floorOk (s.activate i) := by
  refine floorOk_of_eq ?_
  by_cases h : i = ptBreak
  · simp only [State.activate, h, if_true]
    exact settleAlarms_floor ..
  · simp only [State.activate, h, if_false]
    exact activatePoint_floor ..

theorem floorOk_returnAlarm (s : State) (i : PointNo) : floorOk (s.returnAlarm i) := floorOk_settled s _
theorem floorOk_unsuppressAll (s : State) : floorOk s.unsuppressAll := floorOk_settled s _
theorem floorOk_relevel (s : State) : floorOk s.relevel := floorOk_settled s _

/-! ### The drive between two events (R6, R7) -/

/-- What holds of the drive inside an event too, while a command may wait for it: all of `driveOk` but that the command in force
is the one wanted. -/
def DriveSound (d : Drive) : Prop :=
  d.word = driveWord d.out ∧ (d.stall.isSome = true ↔ d.out ≠ 0) ∧ (d.dwell.isSome = true → d.out = 0)

theorem DriveSound.of_ok {d : Drive} (h : driveOk d) : DriveSound d := ⟨h.1, h.2.1, h.2.2.1⟩

theorem DriveSound.send {d : Drive} (h : DriveSound d) (hd : d.dwell = none) (v : Int) : DriveSound (d.send v) := by
  obtain ⟨_, hstall, _⟩ := h
  refine ⟨rfl, ?_, by simp [hd]⟩
  by_cases hv : v = 0
  · simp [hv]
  · by_cases ho : d.out = 0
    · simp [hv, ho]
    · simp [hv, ho, hstall]

/-- R6: the end of an event leaves the drive in order. -/
theorem driveOk_settle {d : Drive} (h : DriveSound d) : driveOk d.settle := by
  obtain ⟨hd, e⟩ | ⟨hd, hw, e⟩ | ⟨hd, _, _, e⟩ | ⟨hd, _, _, e⟩ := d.settle_cases <;> rw [e]
  · exact ⟨h.1, h.2.1, h.2.2, fun hn => absurd hn hd⟩
  · exact ⟨h.1, h.2.1, h.2.2, fun _ => hw.symm⟩
  · exact ⟨rfl, by simp, by simp, by simp⟩
  · have k := h.send hd d.wanted
    exact ⟨k.1, k.2.1, k.2.2, fun _ => rfl⟩

theorem DriveSound.halt {d : Drive} (h : DriveSound d) : DriveSound d.halt := by
  unfold Drive.halt
  by_cases ho : d.out = 0
  · simp only [ho, if_true]
    exact ⟨by simpa [ho] using h.1, by simp, by simp⟩
  · simp only [ho, if_false]
    exact ⟨rfl, by simp, by simp⟩

theorem Drive.halt_fields (d : Drive) :
    d.halt.out = 0 ∧ d.halt.wanted = 0 ∧ d.halt.dwell = none ∧ d.halt.stall = none := by
  unfold Drive.halt
  by_cases ho : d.out = 0
  · simp [ho]
  · simp [ho]

/-! ### What a move leaves -/

/-- A move of the carriage inside an event. Beside the blocks `Aside` names it leaves the token and its waiting list, the alarm
points but for those a grade application returns, the position and the readings of the carriage, and the counts and requests of
the sequencer; F stays at its definition, and the drive in order but for the command that waits for it. -/
structure Steady (s t : State) : Prop extends Aside s t where
  holder : t.cta.holder = s.cta.holder
  waiting : t.cta.waiting = s.cta.waiting
  floor : floorOk s → floorOk t
  points : ∀ i : PointNo, i ∉ limitPoints → (t.alt.points[i]).state = (s.alt.points[i]).state
  drive : DriveSound s.drive → DriveSound t.drive
  position : t.cmu.position = s.cmu.position
  phase : t.cmu.phase = s.cmu.phase
  homed : t.cmu.homed = s.cmu.homed
  direction : t.cmu.direction = s.cmu.direction
  drvflt : t.cmu.drvflt = s.cmu.drvflt
  home : t.cmu.home = s.cmu.home
  faultCause : t.cmu.faultCause = s.cmu.faultCause
  motionFault : t.cmu.motionFault = s.cmu.motionFault
  parkSource : t.cmu.parkSource = s.cmu.parkSource
  compareTarget : t.cmu.compareTarget = s.cmu.compareTarget
  wait : t.cmu.overrideWait ≤ s.cmu.overrideWait
  scanCount : t.osq.scanCount = s.osq.scanCount
  requested : t.osq.requested = s.osq.requested
  renewal : t.osq.renewal = s.osq.renewal
  overdue : t.osq.overdue = s.osq.overdue
  due : s.osq.due = true → t.osq.due = true

theorem Steady.refl (s : State) : Steady s s :=
  ⟨Aside.refl s, rfl, rfl, id, fun _ _ => rfl, id, rfl, rfl, rfl, rfl, rfl, rfl, rfl, rfl, rfl, rfl, Nat.le_refl _, rfl, rfl, rfl,
    rfl, id⟩

theorem Steady.trans {s t u : State} (h : Steady s t) (k : Steady t u) : Steady s u :=
  ⟨h.toAside.trans k.toAside, k.holder.trans h.holder, k.waiting.trans h.waiting, fun x => k.floor (h.floor x),
    fun i hi => (k.points i hi).trans (h.points i hi), fun x => k.drive (h.drive x), k.position.trans h.position,
    k.phase.trans h.phase, k.homed.trans h.homed, k.direction.trans h.direction, k.drvflt.trans h.drvflt,
    k.home.trans h.home, k.faultCause.trans h.faultCause, k.motionFault.trans h.motionFault,
    k.parkSource.trans h.parkSource, k.compareTarget.trans h.compareTarget, k.wait.trans h.wait, k.scanCount.trans h.scanCount,
    k.requested.trans h.requested, k.renewal.trans h.renewal, k.overdue.trans h.overdue, fun x => k.due (h.due x)⟩

/-- A move that also leaves the drive but for the command wanted, and the plan the carriage goes by: the pending plan where there
is one, which a move may make the active one, and else the active plan. -/
structure Motion (s t : State) : Prop extends Steady s t where
  wanted : ∃ v, t.drive = { s.drive with wanted := v }
  pendingPlan : t.cta.pending = s.cta.pending ∨ t.cta.pending = none
  planned : t.cta.pending.getD t.cmu.plan = s.cta.pending.getD s.cmu.plan

theorem Motion.refl (s : State) : Motion s s := ⟨Steady.refl s, ⟨_, rfl⟩, .inl rfl, rfl⟩

theorem Motion.trans {s t u : State} (h : Motion s t) (k : Motion t u) : Motion s u := by
  refine ⟨h.toSteady.trans k.toSteady, ?_, ?_, k.planned.trans h.planned⟩
  · obtain ⟨v, hv⟩ := h.wanted
    obtain ⟨w, hw⟩ := k.wanted
    exact ⟨w, by rw [hw, hv]⟩
  · rcases k.pendingPlan with e | e
    · rw [e]; exact h.pendingPlan
    · exact .inr e

/-- With no plan pending a move leaves the active plan and none pending. -/
theorem Motion.plan {s t : State} (h : Motion s t) (hp : s.cta.pending = none) :
    t.cta.pending = none ∧ t.cmu.plan = s.cmu.plan := by
  have e : t.cta.pending = none := by rcases h.pendingPlan with e | e <;> simp [e, hp]
  exact ⟨e, by simpa [e, hp] using h.planned⟩

theorem Motion.override {s t : State} (h : Motion s t) : t.override = s.override := by
  simp [State.override, h.msm, h.parkSource, h.motionFault]

/-! ### Each move is a `Motion` -/

/-- What a move leaves of the carriage's own record. -/
structure SteadyCmu (c x : Cmu) : Prop where
  position : x.position = c.position
  phase : x.phase = c.phase
  homed : x.homed = c.homed
  direction : x.direction = c.direction
  drvflt : x.drvflt = c.drvflt
  home : x.home = c.home
  faultCause : x.faultCause = c.faultCause
  motionFault : x.motionFault = c.motionFault
  parkSource : x.parkSource = c.parkSource
  compareTarget : x.compareTarget = c.compareTarget

theorem steady_withCmu (s : State) (x : Cmu) (h : SteadyCmu s.cmu x := by constructor <;> rfl)
    (hw : x.overrideWait ≤ s.cmu.overrideWait := by exact Nat.le_refl _) :
    Steady s (s.withCmu x) :=
  { Steady.refl s with
    toAside := aside_withCmu s x, floor := floorOk_congr rfl rfl rfl, position := h.position, phase := h.phase
    homed := h.homed, direction := h.direction, drvflt := h.drvflt, home := h.home, faultCause := h.faultCause
    motionFault := h.motionFault, parkSource := h.parkSource, compareTarget := h.compareTarget, wait := hw }

theorem motion_withCmu (s : State) (x : Cmu) (h : SteadyCmu s.cmu x := by constructor <;> rfl)
    (hp : x.plan = s.cmu.plan := by rfl) (hw : x.overrideWait ≤ s.cmu.overrideWait := by exact Nat.le_refl _) :
    Motion s (s.withCmu x) :=
  { steady_withCmu s x h hw with wanted := ⟨_, rfl⟩, pendingPlan := .inl rfl, planned := by simp [hp] }

theorem motion_want (v : Int) (s : State) : Motion s (want v s) :=
  { Motion.refl s with
    toAside := aside_want v s, floor := floorOk_congr rfl rfl rfl, drive := id, wanted := ⟨v, rfl⟩, planned := rfl }

theorem motion_setCarriage (st : CarriageState) (s : State) : Motion s (setCarriage st s) :=
  { Motion.refl s with toAside := aside_setCarriage st s, floor := floorOk_congr rfl rfl rfl }

theorem motion_abortTraverse (s : State) : Motion s (abortTraverse s) := by
  unfold abortTraverse
  split
  · exact { Motion.refl s with toAside := { Aside.refl s with held := rfl }, floor := floorOk_congr rfl rfl rfl }
  · exact Motion.refl s

theorem motion_withOsq (s : State) (x : Osq) (hs : x.scanCount = s.osq.scanCount := by rfl) (hr : x.requested = s.osq.requested := by rfl)
    (hn : x.renewal = s.osq.renewal := by rfl) (ho : x.overdue = s.osq.overdue := by rfl) (hd : s.osq.due = true → x.due = true := by exact id) :
    Motion s (s.withOsq x) :=
  { Motion.refl s with
    toAside := aside_withOsq s x, floor := floorOk_congr rfl rfl rfl, scanCount := hs, requested := hr, renewal := hn
    overdue := ho, due := hd }

theorem motion_withRbs (s : State) (x : Rbs) (hc : x.common = s.rbs.common := by rfl) (hb : x.banks = s.rbs.banks := by rfl) :
    Motion s (s.withRbs x) :=
  { Motion.refl s with toAside := aside_withRbs s x hc hb, floor := floorOk_congr rfl rfl hc }

theorem motion_withPen (s : State) (x : Pen) (hs : x.slots = s.pen.slots := by rfl) (hp : x.pins = s.pen.pins := by rfl)
    (hc : x.counter = s.pen.counter := by rfl) (hl : x.lastScan = s.pen.lastScan := by rfl) (ha : x.carry = s.pen.carry := by rfl) :
    Motion s (s.withPen x) :=
  { Motion.refl s with toAside := aside_withPen s x hs hp hc hl ha, floor := floorOk_congr rfl rfl rfl }

theorem motion_returnAlarm (s : State) {i : PointNo} (hi : i ∈ limitPoints) : Motion s (s.returnAlarm i) :=
  { Motion.refl s with
    toAside := aside_returnAlarm s i
    floor := fun _ => floorOk_returnAlarm s i
    points := fun _ hj => s.returnAlarm_other fun e => hj (e ▸ hi) }

theorem motion_returnAlarms (is : List PointNo) (h : ∀ i ∈ is, i ∈ limitPoints) (s : State) :
    Motion s (s.returnAlarms is) := by
  unfold State.returnAlarms
  induction is generalizing s with
  | nil => exact Motion.refl s
  | cons i is ih =>
    exact (motion_returnAlarm s (h i List.mem_cons_self)).trans (ih (fun _ hj => h _ (List.mem_cons_of_mem _ hj)) _)

theorem motion_applyGrade (k : BankNo) (s : State) : Motion s (applyGrade k s) := by
  unfold applyGrade
  split
  · exact Motion.refl s
  · exact ((motion_withRbs s _).trans (motion_withPen _ _)).trans
      (motion_returnAlarms _ (fun _ h => h) _)

theorem motion_applyPendingGrade (s : State) : Motion s (applyPendingGrade s) := by
  unfold applyPendingGrade
  split
  · exact Motion.refl s
  · exact (motion_withRbs s _).trans (motion_applyGrade _ _)

theorem motion_setDue (s : State) : Motion s (setDue s) := by
  unfold setDue
  split
  · exact Motion.refl s
  · exact motion_withOsq s _ (hd := fun _ => rfl)

theorem motion_intervalCheck (s : State) : Motion s (intervalCheck s) := by
  unfold intervalCheck
  split
  · exact motion_setDue s
  · exact Motion.refl s

/-- Making a plan active is all of a `Motion` but for the plan. -/
theorem steady_applyPlan (p : ScanPlan) (s : State) : Steady s (applyPlan p s) :=
  Steady.trans (t := (s.withCmu { s.cmu with plan := p }).withCta { s.cta with pending := none })
    { Steady.refl s with toAside := (aside_withCmu s _).trans (aside_withCta _ _), floor := floorOk_congr rfl rfl rfl }
    (motion_intervalCheck _).toSteady

theorem intervalCheck_cmu (s : State) : (intervalCheck s).cmu = s.cmu ∧ (intervalCheck s).cta = s.cta ∧
    (intervalCheck s).drive = s.drive := by
  unfold intervalCheck setDue
  split
  · split <;> exact ⟨rfl, rfl, rfl⟩
  · exact ⟨rfl, rfl, rfl⟩

/-- R183: the plan made active. -/
@[simp] theorem applyPlan_cmu (p : ScanPlan) (s : State) : (applyPlan p s).cmu = { s.cmu with plan := p } :=
  (intervalCheck_cmu _).1
@[simp] theorem applyPlan_cta (p : ScanPlan) (s : State) : (applyPlan p s).cta = { s.cta with pending := none } :=
  (intervalCheck_cmu _).2.1
@[simp] theorem applyPlan_drive (p : ScanPlan) (s : State) : (applyPlan p s).drive = s.drive := (intervalCheck_cmu _).2.2

theorem motion_applyPendingPlan (s : State) : Motion s (applyPendingPlan s) := by
  unfold applyPendingPlan
  split
  · exact Motion.refl s
  · next p hp =>
    exact { steady_applyPlan p s with
      wanted := ⟨s.drive.wanted, by simp⟩, pendingPlan := .inr (by simp), planned := by simp [hp] }

/-- R183: the pending plan is the active one, and none is pending. -/
theorem applyPendingPlan_plan (s : State) :
    (applyPendingPlan s).cmu = { s.cmu with plan := s.cta.pending.getD s.cmu.plan } ∧
    (applyPendingPlan s).cta = { s.cta with pending := none } := by
  unfold applyPendingPlan
  split
  · next h => exact ⟨by rw [h]; rfl, by rw [← h]⟩
  · next p h => simp [h]

theorem motion_travel (st : CarriageState) (x : Int) (d : Dir) (a : Approach) (v : Nat) (s : State) :
    Motion s (travel st x d a v s) :=
  ((motion_setCarriage st s).trans (motion_withCmu _ _)).trans (motion_want _ _)

theorem motion_enterTurning (d : Dir) (s : State) : Motion s (enterTurning d s) :=
  ((motion_setCarriage _ s).trans (motion_withCmu _ _)).trans (motion_want _ _)

theorem motion_computeLimits (s : State) : Motion s (computeLimits s) :=
  motion_withCmu s _

theorem motion_goLimit (s : State) : Motion s (goLimit s) := by
  refine (motion_computeLimits s).trans ?_
  simp only [goLimit]
  split
  · exact motion_travel ..
  split
  · exact motion_travel ..
  split
  · exact motion_enterTurning ..
  split
  · exact motion_enterTurning ..
  split
  · exact motion_travel ..
  · exact motion_travel ..

theorem motion_comeToRest (st : CarriageState) (s : State) : Motion s (comeToRest st s) :=
  ((motion_setCarriage st s).trans (motion_withCmu _ _)).trans (motion_want _ _)

theorem motion_arriveStd (s : State) : Motion s (arriveStd s) :=
  (motion_comeToRest _ s).trans (motion_withOsq _ _)

theorem motion_goStd (s : State) : Motion s (goStd s) := by
  unfold goStd
  dsimp only
  split
  · exact (motion_travel ..).trans (motion_arriveStd _)
  · exact motion_travel ..

theorem dropArmed_fields (c : Cmu) :
    ∃ h, dropArmed c = { c with hold := h } ∧ (∀ k, c.hold = .owed k → h = .owed k) ∧ ∀ x, h ≠ .armed x := by
  unfold dropArmed
  split
  · exact ⟨.none, rfl, by simp_all, by simp⟩
  · next hn => exact ⟨c.hold, rfl, fun _ h => h, hn⟩

theorem motion_openStd (s : State) : Motion s (openStd s) := by
  obtain ⟨h, e, _, _⟩ := dropArmed_fields s.cmu
  unfold openStd
  rw [e]
  exact (motion_withCmu s _ (hw := Nat.zero_le _)).trans (motion_withOsq _ _)

theorem motion_beginStd (s : State) : Motion s (beginStd s) := (motion_openStd s).trans (motion_goStd _)

theorem motion_retakeStd (s : State) : Motion s (retakeStd s) := (motion_openStd s).trans (motion_arriveStd _)

theorem motion_takeStd (s : State) : Motion s (takeStd s) := (motion_abortTraverse s).trans (motion_beginStd _)

theorem motion_osqOccasion (s : State) : Motion s (osqOccasion s) := by
  unfold osqOccasion
  split
  · exact motion_takeStd s
  · exact Motion.refl s

theorem motion_arriveParked {next : State → State} (hn : ∀ u, Motion u (next u)) (s : State) :
    Motion s (arriveParked next s) :=
  (((motion_comeToRest _ s).trans (motion_applyPendingGrade _)).trans (motion_applyPendingPlan _)).trans (hn _)

theorem motion_goPark {next : State → State} (hn : ∀ u, Motion u (next u)) (s : State) : Motion s (goPark next s) := by
  unfold goPark
  split
  · exact Motion.refl s
  · dsimp only
    split
    · exact (motion_travel ..).trans (motion_arriveParked hn _)
    · exact motion_travel ..

theorem motion_arriveFixed {next : State → State} (hn : ∀ u, Motion u (next u)) (s : State) :
    Motion s (arriveFixed next s) := by
  have h := ((motion_comeToRest .fixed s).trans (motion_applyPendingGrade _)).trans (motion_applyPendingPlan _)
  unfold arriveFixed
  dsimp only
  split
  · exact h.trans (motion_takeStd _)
  split
  · exact h
  · exact h.trans (hn _)

theorem motion_goFixed {next : State → State} (hn : ∀ u, Motion u (next u)) (s : State) : Motion s (goFixed next s) := by
  unfold goFixed
  dsimp only
  split
  · exact (motion_travel ..).trans (motion_arriveFixed hn _)
  · exact motion_travel ..

theorem motion_nextMotion (n : Nat) (s : State) : Motion s (nextMotion n s) := by
  induction n generalizing s with
  | zero => exact Motion.refl s
  | succ n ih =>
    unfold nextMotion
    split
    · exact motion_takeStd s
    split
    · exact motion_goPark ih s
    split
    · exact motion_goPark ih s
    · exact motion_goFixed ih s
    · exact motion_goLimit s

theorem motion_nextMove (s : State) : Motion s (nextMove s) := motion_nextMotion _ s

theorem motion_takeOverride (s : State) : Motion s (takeOverride s) := by
  refine (motion_withCmu s { s.cmu with overrideWait := 0 } (hw := Nat.zero_le _)).trans ?_
  simp only [takeOverride]
  split
  · exact ((motion_abortTraverse _).trans (motion_withCmu _ _)).trans
      (motion_goPark motion_nextMove _)
  · exact Motion.refl _

theorem motion_turnaround (s : State) : Motion s (turnaround s) := by
  refine (motion_computeLimits s).trans ?_
  simp only [turnaround]
  split
  · split
    · exact motion_enterTurning ..
    · exact motion_goLimit _
  · split
    · exact motion_enterTurning ..
    · exact motion_goLimit _

theorem motion_holdAtLimit (s : State) : Motion s (holdAtLimit s) :=
  (((motion_withCmu s _).trans (motion_setCarriage _ _)).trans
    (motion_want _ _)).trans (motion_applyPendingGrade _)

theorem motion_chooseAtEnd (s : State) : Motion s (chooseAtEnd s) := by
  unfold chooseAtEnd
  split
  · exact motion_beginStd s
  split
  · exact motion_holdAtLimit s
  split
  · exact motion_goPark motion_nextMove s
  · exact motion_goFixed motion_nextMove s
  · exact motion_turnaround s

theorem motion_checkCommandPoint (s : State) : Motion s (checkCommandPoint s) := by
  unfold checkCommandPoint
  split
  · split
    · exact (((motion_withCmu s _).trans (motion_setCarriage _ _)).trans
        (motion_want _ _)).trans (motion_osqOccasion _)
    · exact Motion.refl s
  · exact Motion.refl s

theorem motion_armOwed (s : State) : Motion s (armOwed s) := by
  unfold armOwed
  split
  · exact motion_withCmu s _
  · exact motion_withCmu s _
  · exact Motion.refl s

/-! ### Moves that also send a command or change the plan -/

theorem steady_settleDrive (s : State) : Steady s s.settleDrive :=
  { Steady.refl s with
    toAside := aside_settleDrive s
    floor := floorOk_congr rfl rfl rfl
    drive := fun h => .of_ok (driveOk_settle h) }

theorem steady_flushOverride (s : State) : Steady s (flushOverride s) := by
  unfold flushOverride
  split
  · exact (motion_takeOverride s).toSteady.trans (steady_settleDrive _)
  · exact Steady.refl s

theorem steady_overrideAfterCount (was : CarriageState) (s : State) : Steady s (overrideAfterCount was s) := by
  unfold overrideAfterCount
  split
  · exact steady_withCmu s _ (hw := Nat.sub_le _ _)
  · exact steady_flushOverride s

/-- R21: without the resume flag the active plan becomes PARK. -/
def parkUnlessResume (s : State) : State :=
  if s.cmu.plan.resume then s else s.withCmu { s.cmu with plan := { s.cmu.plan with mode := .park } }

theorem overrideCleared_eq (was : Bool) (s : State) : overrideCleared was s =
    if was && !s.override then
      if (parkUnlessResume s).cmu.state = .parked then nextMove (parkUnlessResume s) else parkUnlessResume s
    else s := rfl

theorem steady_parkUnlessResume (s : State) : Steady s (parkUnlessResume s) := by
  unfold parkUnlessResume
  split
  · exact Steady.refl s
  · exact steady_withCmu s _

theorem steady_overrideCleared (was : Bool) (s : State) : Steady s (overrideCleared was s) := by
  rw [overrideCleared_eq]
  split
  · split
    · exact (steady_parkUnlessResume s).trans (motion_nextMove _).toSteady
    · exact steady_parkUnlessResume s
  · exact Steady.refl s

end Sys2Proof.Machine
end

section
/-! PROOFS. The rules of the queues, the token, the pins, the floor, the break log and the drive (R6, R119, R155, R167, R176, R194),
kept together: one relation between the state before an effect and the state after it, and the effects that have it. -/

namespace Sys2Proof.Machine

open Safety

/-- An effect that keeps every rule but those of the carriage: the bounds of the queues, the token and the silence, the pins, the
floor, the break log and the drive between two events. The entries reserved for a reply stay reserved,
and the common bank stays. -/
structure Tame (s t : State) : Prop where
  queues : queuesOk s → queuesOk t
  token : tokenOk s → tokenOk t
  pins : pinsOk s → pinsOk t
  floor : floorOk s → floorOk t
  log : logOk s.msm → logOk t.msm
  drive : DriveSound s.drive → DriveSound t.drive
  reserved : ∀ p : Port, (t.ports.get p).reserved = (s.ports.get p).reserved
  common : t.rbs.common = s.rbs.common

theorem Tame.refl (s : State) : Tame s s := ⟨id, id, id, id, id, id, fun _ => rfl, rfl⟩

theorem Tame.trans {s t u : State} (h : Tame s t) (k : Tame t u) : Tame s u :=
  ⟨k.queues ∘ h.queues, k.token ∘ h.token, k.pins ∘ h.pins, k.floor ∘ h.floor, k.log ∘ h.log, k.drive ∘ h.drive,
    fun p => (k.reserved p).trans (h.reserved p), k.common.trans h.common⟩

/-! ### Effects that reach the ports by notices only -/

theorem tokenOk_of_noticed {s t : State} (hn : ∀ p : Port, Noticed (s.ports.get p) (t.ports.get p))
    (hh : t.cta.holder = s.cta.holder) (hw : t.cta.waiting = s.cta.waiting) (hp : t.pen.pins = s.pen.pins)
    (h : tokenOk s) : tokenOk t := by
  obtain ⟨hwait, hport⟩ := h
  refine ⟨by simpa only [waitingOk, hh, hw] using hwait, fun p => ?_⟩
  obtain ⟨hidle, hnone⟩ := hport p
  have e := hn p
  simp only [silentIdle, silentHoldsNothing, e.silent, e.inbound, e.stream, e.handling, hh, hw, hp] at hidle hnone ⊢
  exact ⟨hidle, hnone⟩

theorem inStore_congr {p q : Pen} (h : q.slots = p.slots) (n : ScanNo) : inStore q n ↔ inStore p n := by
  simp only [inStore, h]

theorem pinOk_congr {s t : State} {p : Port} (hs : (t.ports.get p).stream = (s.ports.get p).stream)
    (hp : t.pen.pins.get p = s.pen.pins.get p) (hsl : t.pen.slots = s.pen.slots) (h : pinOk s p) : pinOk t p := by
  unfold pinOk at h ⊢
  rw [hs, hp]
  cases hst : (s.ports.get p).stream <;> simp only [hst, inStore_congr hsl] at h ⊢ <;> exact h

/-- An effect that reaches the ports by notices only, and leaves the token, the pins and the store. -/
theorem Tame.of_noticed {s t : State} (hn : ∀ p : Port, Noticed (s.ports.get p) (t.ports.get p))
    (hf : floorOk s → floorOk t) (hl : logOk s.msm → logOk t.msm := by exact id)
    (hd : DriveSound s.drive → DriveSound t.drive := by exact id) (hh : t.cta.holder = s.cta.holder := by rfl)
    (hw : t.cta.waiting = s.cta.waiting := by rfl) (hp : t.pen.pins = s.pen.pins := by rfl)
    (hs : t.pen.slots = s.pen.slots := by rfl) (hc : t.rbs.common = s.rbs.common := by rfl) : Tame s t where
  queues h p := (hn p).queuesOk (h p)
  token := tokenOk_of_noticed hn hh hw hp
  pins h p := pinOk_congr (hn p).stream (by rw [hp]) hs (h p)
  floor := hf
  log := hl
  drive := hd
  reserved p := by simp only [PortState.reserved, (hn p).handling]
  common := hc

theorem Steady.tame {s t : State} (h : Steady s t) : Tame s t :=
  .of_noticed h.ports h.floor (by rw [h.msm]; exact id) h.drive h.holder h.waiting h.pins h.slots h.common

theorem Motion.tame {s t : State} (h : Motion s t) : Tame s t := h.toSteady.tame

/-- An effect that leaves all these rules read. -/
theorem Tame.of_same {s t : State} (hn : t.ports = s.ports := by rfl) (ha : t.alt = s.alt := by rfl)
    (hc : t.rbs.common = s.rbs.common := by rfl) (hl : logOk s.msm → logOk t.msm := by exact id)
    (hd : DriveSound s.drive → DriveSound t.drive := by exact id) (hh : t.cta.holder = s.cta.holder := by rfl)
    (hw : t.cta.waiting = s.cta.waiting := by rfl) (hp : t.pen.pins = s.pen.pins := by rfl)
    (hs : t.pen.slots = s.pen.slots := by rfl) : Tame s t :=
  .of_noticed (fun p => hn ▸ Noticed.refl _) (floorOk_congr (by rw [ha]) (by rw [ha]) hc) hl hd hh hw hp hs hc

/-! The updates that no rule reads. -/

theorem tame_withCmu (s : State) (x : Cmu) : Tame s (s.withCmu x) := .of_same
theorem tame_withHbc (s : State) (x : Hbc) : Tame s (s.withHbc x) := .of_same
theorem tame_withOsq (s : State) (x : Osq) : Tame s (s.withOsq x) := .of_same
theorem tame_withScv (s : State) (x : Scv) : Tame s (s.withScv x) := .of_same
theorem tame_withEbm (s : State) (x : Ebm) : Tame s (s.withEbm x) := .of_same
theorem tame_withAzm (s : State) (x : Azm) : Tame s (s.withAzm x) := .of_same
theorem tame_withMsm (s : State) (x : Msm) (h : logOk s.msm → logOk x) : Tame s (s.withMsm x) := .of_same (hl := h)

theorem settleAlarms_ports (x : AlarmCtx) (a : Alt) (ports : PerPort PortState) (p : Port) :
    Noticed (ports.get p) ((settleAlarms x (a, ports)).2.get p) := (settleAlarms_passed x (a, ports)).ports p

theorem activatePoint_ports (x : AlarmCtx) (i : PointNo) (a : Alt) (ports : PerPort PortState) (p : Port) :
    Noticed (ports.get p) ((activatePoint x i (a, ports)).2.get p) := by
  obtain ⟨_, e⟩ | ⟨_, e⟩ | ⟨_, e⟩ := activatePoint_cases x i (a, ports)
  · rw [e]; exact settleAlarms_ports x _ ports p
  · rw [e]; exact settleAlarms_ports x _ ports p
  · rw [e]; exact settleAlarms_ports x _ ports p

theorem activateBreak_ports (x : AlarmCtx) (a : Alt) (ports : PerPort PortState) (p : Port) :
    Noticed (ports.get p) ((activateBreak x (a, ports)).2.get p) := by
  let b : AltPorts := ((a.setPoint ptBreak { (a.points[ptBreak]).counted x.cycle with state := .activeUnack }).placeLast
    ptBreak, ports)
  exact ((annunciate_passed x ptBreak b).trans (settleAlarms_passed x _)).ports p

theorem activate_ports (s : State) (i : PointNo) (p : Port) :
    Noticed (s.ports.get p) ((s.activate i).ports.get p) := by
  by_cases h : i = ptBreak
  · simp only [State.activate, h, if_true, State.withAlarms, State.withPorts_ports]
    exact activateBreak_ports s.alarmCtx s.alt s.ports p
  · simp only [State.activate, h, if_false, State.withAlarms, State.withPorts_ports]
    exact activatePoint_ports s.alarmCtx i s.alt s.ports p

theorem tame_activate (s : State) (i : PointNo) : Tame s (s.activate i) :=
  .of_noticed (activate_ports s i) fun _ => floorOk_activate s i

theorem tame_returnAlarm (s : State) (i : PointNo) : Tame s (s.returnAlarm i) :=
  .of_noticed (aside_returnAlarm s i).ports fun _ => floorOk_returnAlarm s i

theorem tame_setAlarm (s : State) (i : PointNo) (on : Bool) : Tame s (s.setAlarm i on) := by
  unfold State.setAlarm
  split
  · exact tame_activate s i
  · exact tame_returnAlarm s i

theorem tame_unsuppressAll (s : State) : Tame s s.unsuppressAll :=
  .of_noticed (settleAlarms_ports s.alarmCtx _ s.ports) fun _ => floorOk_unsuppressAll s

theorem tame_relevel (s : State) : Tame s s.relevel :=
  .of_noticed (settleAlarms_ports s.alarmCtx s.alt s.ports) fun _ => floorOk_relevel s

theorem tame_notifyAll (s : State) (kind : Byte) (pl : List Byte) : Tame s (s.notifyAll kind pl) :=
  .of_noticed (fun p => by rw [State.notifyAll_get]; exact Noticed.notice _ _ _) (floorOk_congr rfl rfl rfl)

theorem notify_ports (s : State) (p : Port) (kind : Byte) (pl : List Byte) (q : Port) :
    Noticed (s.ports.get q) ((s.notify p kind pl).ports.get q) := by
  by_cases h : q = p
  · subst h
    rw [State.notify_get_same]
    exact Noticed.notice _ _ _
  · rw [State.notify_get_ne _ _ _ h]
    exact Noticed.refl _

theorem tame_notify (s : State) (p : Port) (kind : Byte) (pl : List Byte) : Tame s (s.notify p kind pl) :=
  .of_noticed (notify_ports s p kind pl) (floorOk_congr rfl rfl rfl)

/-! ### Effects on the ports themselves -/

/-- An effect on the ports alone that keeps each port's bounds, and every field that the token and the pins read. -/
theorem Tame.of_ports {s t : State} (hq : ∀ p, portQueuesOk (s.ports.get p) → portQueuesOk (t.ports.get p))
    (hsil : ∀ p, (t.ports.get p).silent = (s.ports.get p).silent)
    (hin : ∀ p, (t.ports.get p).silent = true → (s.ports.get p).inbound = [] → (t.ports.get p).inbound = [])
    (hst : ∀ p, (t.ports.get p).stream = (s.ports.get p).stream)
    (hha : ∀ p, (t.ports.get p).handling = (s.ports.get p).handling)
    (ha : t.alt = s.alt := by rfl) (hc : t.rbs.common = s.rbs.common := by rfl)
    (hm : t.msm = s.msm := by rfl) (hd : t.drive = s.drive := by rfl) (hcta : t.cta = s.cta := by rfl)
    (hpen : t.pen = s.pen := by rfl) : Tame s t where
  queues h p := hq p (h p)
  token h := by
    obtain ⟨hwait, hport⟩ := h
    refine ⟨by simpa only [hcta] using hwait, fun p => ⟨fun hp => ?_, fun hp => ?_⟩⟩
    · have k := (hport p).1 ((hsil p).symm.trans hp)
      exact ⟨hin p hp k.1, (hst p).trans k.2.1, by rw [hha p]; exact k.2.2⟩
    · rw [hcta, hpen]
      exact (hport p).2 ((hsil p).symm.trans hp)
  pins h p := pinOk_congr (hst p) (by rw [hpen]) (by rw [hpen]) (h p)
  floor := floorOk_congr (by rw [ha]) (by rw [ha]) hc
  log := by rw [hm]; exact id
  drive := by rw [hd]; exact id
  reserved p := by simp only [PortState.reserved, hha p]
  common := hc

/-- The same for an update of one port. -/
theorem tame_updPort (s : State) (p : Port) (f : PortState → PortState)
    (hq : portQueuesOk (s.ports.get p) → portQueuesOk (f (s.ports.get p)))
    (hsil : (f (s.ports.get p)).silent = (s.ports.get p).silent)
    (hin : (f (s.ports.get p)).silent = true → (s.ports.get p).inbound = [] → (f (s.ports.get p)).inbound = [])
    (hst : (f (s.ports.get p)).stream = (s.ports.get p).stream)
    (hha : (f (s.ports.get p)).handling = (s.ports.get p).handling) : Tame s (s.updPort p f) := by
  have key : ∀ q, (s.updPort p f).ports.get q = if q = p then f (s.ports.get p) else s.ports.get q := fun q =>
    PerPort.get_set ..
  refine .of_ports (fun q h => ?_) (fun q => ?_) (fun q h k => ?_) (fun q => ?_) (fun q => ?_)
  all_goals
    by_cases hqp : q = p
    · subst hqp; simp_all
    · simp_all

end Sys2Proof.Machine
end

section
/-! PROOFS. The effects of the machine monitor, the profile, the traverse and the head bus keep the rules of `Tame` (R9, R16,
R17, R26, R117, R149). -/

namespace Sys2Proof.Machine

open Safety

/-! ### The break log (R155 … R157) -/

theorem logOk_of_same {m n : Msm} (hl : n.log = m.log) (hs : n.state = .run → m.state = .run) (h : logOk m) :
    logOk n := by
  obtain ⟨h1, h2, h3, h4⟩ := h
  exact ⟨hl ▸ h1, hl ▸ h2, hl ▸ h3, fun k => hl ▸ h4 (hs k)⟩

/-- A change of the newest record keeps the log's rules when it keeps the record's own and opens none in RUN. -/
theorem logOk_updNewest {f : BreakRecord → BreakRecord} {m : Msm} (hr : ∀ r, recordOk r → recordOk (f r))
    (ho : ∀ r ∈ m.log, m.state = .run → (f r).isOpen = false) (h1 : m.log.length ≤ 8) (h2 : ∀ r ∈ m.log, recordOk r)
    (h3 : ∀ r ∈ m.log.tail, r.isOpen = false) : logOk (updNewest f m) := by
  unfold updNewest
  cases e : m.log with
  | nil => exact ⟨h1, h2, h3, by simp [e]⟩
  | cons r rest =>
    rw [e] at ho h1 h2 h3
    refine ⟨by simpa using h1, ?_, h3, ?_⟩
    · intro x hx
      rcases List.mem_cons.1 hx with rfl | hx
      · exact hr r (h2 r List.mem_cons_self)
      · exact h2 x (List.mem_cons_of_mem _ hx)
    · intro hrun x hx
      rcases List.mem_cons.1 hx with rfl | hx
      · exact ho r List.mem_cons_self hrun
      · exact h3 x hx

theorem recordOk_markThread (c : Cycle) (r : BreakRecord) (h : recordOk r) : recordOk (markThread c r) := by
  unfold markThread; split <;> exact h

theorem recordOk_markRun (n : ScanNo) (r : BreakRecord) (h : recordOk r) : recordOk (markRun n r) := by
  unfold markRun; split <;> exact h

theorem markRun_closed (n : ScanNo) (r : BreakRecord) : (markRun n r).isOpen = false := by
  unfold markRun
  split
  · rfl
  · next h => simpa using h

theorem recordOk_markAcked (p : Port) (r : BreakRecord) (h : recordOk r) : recordOk (markAcked p r) := by
  unfold markAcked; split <;> exact h

theorem markAcked_isOpen (p : Port) (r : BreakRecord) : (markAcked p r).isOpen = r.isOpen := by
  unfold markAcked; split <;> rfl

@[simp] theorem updNewest_state (f : BreakRecord → BreakRecord) (m : Msm) : (updNewest f m).state = m.state := by
  unfold updNewest; split <;> rfl

theorem updNewest_log (f : BreakRecord → BreakRecord) (m : Msm) :
    (updNewest f m).log = m.log.head?.toList.map f ++ m.log.tail := by
  unfold updNewest
  split
  · next h => simp [h]
  · next r rest h => simp [h]

/-- R156: a later cause joins a record that has room for it and does not hold it yet. -/
theorem recordOk_append {r : BreakRecord} {c : LaterCause} (h : recordOk r) (hc : c.kind ≠ r.first.kind)
    (hm : c.kind ∉ r.later.map LaterCause.kind) (hl : r.later.length < 4) :
    recordOk { r with later := r.later ++ [c] } := by
  obtain ⟨_, hn⟩ := h
  refine ⟨by simp; omega, ?_⟩
  rw [List.map_append, ← List.cons_append, List.nodup_append]
  refine ⟨hn, by simp, ?_⟩
  intro a ha b hb
  simp only [List.map_cons, List.map_nil, List.mem_singleton] at hb
  subst hb
  rcases List.mem_cons.1 ha with rfl | ha
  · exact hc.symm
  · exact fun e => hm (e ▸ ha)

theorem logOk_appendCause (c : LaterCause) {m : Msm} (hs : m.state ≠ .run) (h : logOk m) : logOk (appendCause c m) := by
  obtain ⟨h1, h2, h3, _⟩ := h
  refine logOk_updNewest (fun r hr => ?_) (fun _ _ k => absurd k hs) h1 h2 h3
  split
  · exact hr
  split
  · exact hr
  next hnew =>
    simp only [not_or] at hnew
    split
    · next hl => exact recordOk_append hr hnew.1 hnew.2 hl
    · exact hr

/-- R155: a new record, with the machine then in BREAK. -/
theorem logOk_openRecord (f : FirstOut) {m : Msm} (hs : m.state = .run ∨ m.state = .thread) (h : logOk m) :
    logOk { openRecord f m with state := .brk, widthPasses := 0 } := by
  obtain ⟨h1, h2, h3, h4⟩ := h
  have key : ∀ l : List BreakRecord, (∀ r ∈ l, recordOk r) → (∀ r ∈ l, r.isOpen = false) → ∀ r0, recordOk r0 →
      logOk { openRecord f m with log := (r0 :: l).take 8, state := .brk, widthPasses := 0 } := by
    intro l hr ho r0 h0
    refine ⟨by simp, ?_, ?_, by simp⟩
    · intro x hx
      rcases List.mem_cons.1 (List.mem_of_mem_take hx) with rfl | hx
      · exact h0
      · exact hr x hx
    · intro x hx
      have hx : x ∈ l.take 7 := by simpa using hx
      exact ho x (List.mem_of_mem_take hx)
  have hfresh : recordOk ⟨m.nextBreak, f, [], 0, none, none, none, true⟩ := ⟨by simp, by simp⟩
  rcases hs with e | e
  · have k := key m.log h2 (h4 e) _ hfresh
    simpa [openRecord, e] using k
  · have hclose : ∀ r ∈ (updNewest closeRecord m).log, recordOk r ∧ r.isOpen = false := by
      rw [updNewest_log]
      intro r hr
      rcases List.mem_append.1 hr with hr | hr
      · obtain ⟨a, ha, rfl⟩ := List.mem_map.1 hr
        exact ⟨h2 a (List.mem_of_head? (by simpa using ha)), rfl⟩
      · exact ⟨h2 r (List.mem_of_mem_tail hr), h3 r hr⟩
    have k := key (updNewest closeRecord m).log (fun r hr => (hclose r hr).1) (fun r hr => (hclose r hr).2) _ hfresh
    have e2 : (updNewest closeRecord m).nextBreak = m.nextBreak := by unfold updNewest; split <;> rfl
    simpa [openRecord, e, e2] using k

/-! ### Changes of the machine state (R152 … R154) -/

/-- What a change of the machine state makes of the monitor before the park-override source follows it. -/
def enteredMsm (new : MachineState) (s : State) : Msm :=
  match new with
  | .down => { s.msm with state := .down, widthPasses := 0 }
  | .brk => { s.msm with state := .brk, widthPasses := 0 }
  | .thread => updNewest (markThread s.hbc.cycle) { s.msm with state := .thread }
  | .run => updNewest (markRun s.pen.counter) { s.msm with state := .run, widthPasses := 0 }

theorem changeState_down (cause : StateCause) (o : OverrideOrder) (s : State) : changeState .down cause o s =
    setMsmSource o ((stateNotice .down s.msm.state cause (s.withMsm (enteredMsm .down s))).returnAlarm ptBreak) := rfl
theorem changeState_brk (cause : StateCause) (o : OverrideOrder) (s : State) : changeState .brk cause o s =
    setMsmSource o ((stateNotice .brk s.msm.state cause (s.withMsm (enteredMsm .brk s))).activate ptBreak) := rfl
theorem changeState_thread (cause : StateCause) (o : OverrideOrder) (s : State) : changeState .thread cause o s =
    clearMsmSource (stateNotice .thread s.msm.state cause (s.withMsm (enteredMsm .thread s))) := rfl
theorem changeState_run (cause : StateCause) (o : OverrideOrder) (s : State) : changeState .run cause o s =
    clearMsmSource ((stateNotice .run s.msm.state cause (s.withMsm (enteredMsm .run s))).returnAlarm ptBreak).unsuppressAll :=
  rfl

theorem logOk_enteredMsm (new : MachineState) {s : State} (h : logOk s.msm) : logOk (enteredMsm new s) := by
  obtain ⟨h1, h2, h3, _⟩ := h
  cases new with
  | down => exact ⟨h1, h2, h3, by simp [enteredMsm]⟩
  | brk => exact ⟨h1, h2, h3, by simp [enteredMsm]⟩
  | thread => exact logOk_updNewest (recordOk_markThread _) (by simp) h1 h2 h3
  | run => exact logOk_updNewest (recordOk_markRun _) (fun r _ _ => markRun_closed _ r) h1 h2 h3

theorem tame_raiseOverride (o : OverrideOrder) (s : State) : Tame s (raiseOverride o s) := by
  cases o with
  | overrideFirst => exact (motion_takeOverride s).tame
  | countsFirst more =>
    unfold raiseOverride
    dsimp only
    split
    · exact tame_withCmu s _
    · exact Tame.refl s

theorem tame_setMsmSource (o : OverrideOrder) (s : State) : Tame s (setMsmSource o s) :=
  (tame_withMsm s { s.msm with source := true } (logOk_of_same rfl id)).trans (tame_raiseOverride o _)

theorem tame_clearMsmSource (s : State) : Tame s (clearMsmSource s) :=
  ((steady_flushOverride s).tame.trans
    (tame_withMsm _ { (flushOverride s).msm with source := false } (logOk_of_same rfl id))).trans
    (steady_overrideCleared _ _).tame

/-- A change of the machine state taken on a monitor that the entry puts in order. -/
theorem tame_changeState_of {s u : State} (new : MachineState) (cause : StateCause) (o : OverrideOrder)
    (h : Tame s (u.withMsm (enteredMsm new u))) : Tame s (changeState new cause o u) := by
  have hn := h.trans (tame_notifyAll _ kState (statePayload new u.msm.state cause
    ((enteredMsm new u).log.head?.map BreakRecord.number) u.hbc.cycle))
  cases new with
  | down => exact (hn.trans (tame_returnAlarm _ ptBreak)).trans (tame_setMsmSource o _)
  | brk => exact (hn.trans (tame_activate _ ptBreak)).trans (tame_setMsmSource o _)
  | thread => exact hn.trans (tame_clearMsmSource _)
  | run => exact ((hn.trans (tame_returnAlarm _ ptBreak)).trans (tame_unsuppressAll _)).trans (tame_clearMsmSource _)

theorem tame_changeState (new : MachineState) (cause : StateCause) (o : OverrideOrder) (s : State) :
    Tame s (changeState new cause o s) :=
  tame_changeState_of new cause o (tame_withMsm s _ (logOk_enteredMsm new))

theorem tame_takeCause (kind : CauseKind) (pos : Int) (c : Cycle) (cause : StateCause) (o : OverrideOrder) (s : State) :
    Tame s (takeCause kind pos c cause o s) := by
  unfold takeCause
  split
  · next h => exact tame_changeState_of .brk cause o (tame_withMsm s _ (logOk_openRecord _ (.inl h)))
  · next h => exact tame_changeState_of .brk cause o (tame_withMsm s _ (logOk_openRecord _ (.inr h)))
  · next h => exact tame_withMsm s _ (logOk_appendCause _ (by simp [h]))
  · exact Tame.refl s

theorem tame_testLines (s : State) : Tame s (testLines s) := by
  unfold testLines
  split
  · exact tame_changeState ..
  · exact Tame.refl s

theorem tame_readingChanged (l : BreakLine) (was : Reading) (o : OverrideOrder) (s : State) :
    Tame s (readingChanged l was o s) := by
  unfold readingChanged
  dsimp only
  split
  · exact Tame.refl s
  split
  · exact tame_takeCause ..
  split
  · exact tame_testLines s
  · exact Tame.refl s

theorem tame_compareSpeed (cause : StateCause) (o : OverrideOrder) (s : State) : Tame s (compareSpeed cause o s) := by
  unfold compareSpeed
  dsimp only
  split
  · split
    · exact Tame.refl s
    · exact (tame_changeState ..).trans (tame_testLines _)
  · split
    · exact tame_changeState ..
    · exact Tame.refl s

/-! ### Aborts and FAULT (R9, R54) -/

theorem tame_setDue (s : State) : Tame s (setDue s) := (motion_setDue s).tame

theorem tame_mergeRenewal (s : State) : Tame s (mergeRenewal s) := by
  unfold mergeRenewal
  split
  · exact Tame.refl s
  · exact (tame_setDue s).trans (tame_withOsq _ _)

theorem tame_resetOsqStep (s : State) : Tame s (resetOsqStep s) :=
  (tame_withOsq s _).trans (tame_mergeRenewal _)

theorem tame_abortStdWith (told : Hbc → Hbc) (s : State) : Tame s (abortStdWith told s) := by
  unfold abortStdWith
  split
  · exact Tame.refl s
  · exact (tame_withHbc s _).trans (tame_resetOsqStep _)

theorem tame_enterFault (cause : FaultCause) (s : State) : Tame s (enterFault cause s) := by
  unfold enterFault
  dsimp only
  split
  · exact .of_same
  · have hb : Tame s ((setCarriage .fault (abortTraverse s)).withDrive (setCarriage .fault (abortTraverse s)).drive.halt) :=
      ((motion_abortTraverse s).tame.trans (motion_setCarriage .fault _).tame).trans (.of_same (hd := DriveSound.halt))
    exact (((hb.trans (tame_withCmu _ _)).trans (tame_activate _ ptMotionFault)).trans (tame_abortStdWith _ _)).trans
      (motion_applyPendingGrade _).tame

theorem tame_nextMove (s : State) : Tame s (nextMove s) := (motion_nextMove s).tame

theorem tame_arriveHome (s : State) : Tame s (arriveHome s) :=
  (((tame_withCmu s _).trans (motion_want 0 _).tame).trans (motion_applyPendingPlan _).tame).trans (tame_nextMove _)

theorem tame_enterHoming (s : State) : Tame s (enterHoming s) := by
  have h : Tame s (want (-(s.rbs.common.homeSpeed : Int)) (setCarriage .homing s)) :=
    (motion_setCarriage .homing s).tame.trans (motion_want _ _).tame
  unfold enterHoming
  dsimp only
  split
  · exact h.trans (tame_arriveHome _)
  · exact h

/-! ### Publication (R117, R119) -/

theorem breakPins_get (n : ScanNo) (s : State) (p : Port) :
    (breakPins n s).pen.pins.get p = (if s.pen.pins.get p = some n then none else s.pen.pins.get p) ∧
    (breakPins n s).ports.get p = (if s.pen.pins.get p = some n then endStream (s.ports.get p) else s.ports.get p) := by
  cases p <;> simp [breakPins, PerPort.get] <;> exact ⟨rfl, rfl⟩

/-- A broken pin leaves none on the scan. -/
theorem breakPins_unpinned (n : ScanNo) (s : State) (p : Port) : (breakPins n s).pen.pins.get p ≠ some n := by
  rw [(breakPins_get n s p).1]
  split
  · simp
  · assumption

/-- An ended stream changes nothing else of its port. -/
theorem endStream_fields (x : PortState) : ∃ st, endStream x = { x with stream := st } ∧
    (x.stream = .idle → st = .idle) ∧ ∀ r, st ≠ .running r := by
  unfold endStream
  split
  · next r h => exact ⟨_, rfl, by simp [h], by simp⟩
  · next h => exact ⟨x.stream, rfl, id, h⟩

theorem tame_breakPins (n : ScanNo) (s : State) : Tame s (breakPins n s) := by
  have hport : ∀ p, ∃ st, (breakPins n s).ports.get p = { s.ports.get p with stream := st } ∧
      ((s.ports.get p).stream = .idle → st = .idle) := by
    intro p
    rw [(breakPins_get n s p).2]
    split
    · obtain ⟨st, e, h, _⟩ := endStream_fields (s.ports.get p)
      exact ⟨st, e, h⟩
    · exact ⟨_, rfl, id⟩
  refine ⟨fun h p => ?_, fun h => ⟨h.1, fun p => ?_⟩, fun h p => ?_, floorOk_congr rfl rfl rfl, id, id, fun p => ?_, rfl⟩
  · obtain ⟨st, e, _⟩ := hport p
    rw [e]; exact h p
  · obtain ⟨st, e, hst⟩ := hport p
    obtain ⟨hidle, hnone⟩ := h.2 p
    constructor
    · intro hsil
      rw [e] at hsil ⊢
      obtain ⟨a, b, c⟩ := hidle hsil
      exact ⟨a, hst b, c⟩
    · intro hsil
      rw [e] at hsil
      obtain ⟨a, b, c⟩ := hnone hsil
      exact ⟨a, b, by rw [(breakPins_get n s p).1, c]; simp⟩
  · have hp := h p
    unfold pinOk at hp ⊢
    rw [(breakPins_get n s p).1, (breakPins_get n s p).2]
    by_cases hit : s.pen.pins.get p = some n
    · obtain ⟨st, e, _, hr⟩ := endStream_fields (s.ports.get p)
      simp only [hit, if_true, e]
      cases st with
      | running r => exact absurd rfl (hr r)
      | idle => trivial
      | ending r => trivial
    · simp only [hit, if_false]
      exact hp
  · obtain ⟨st, e, _⟩ := hport p
    rw [e]; rfl

/-- A slot written anew keeps the pins when no port pins the generation it held. -/
theorem tame_withSlot (s : State) (x : Pen) (i : Fin 3) (g : Generation) (hs : x.slots = s.pen.slots.set i (some g))
    (hp : x.pins = s.pen.pins) (hn : ∀ old, s.pen.slots[i] = some old → ∀ p, s.pen.pins.get p ≠ some old.scan) :
    Tame s (s.withPen x) := by
  refine ⟨id, fun h => ⟨h.1, fun p => ⟨(h.2 p).1, fun k => ?_⟩⟩, fun h p => ?_, floorOk_congr rfl rfl rfl, id, id,
    fun _ => rfl, rfl⟩
  · have hnone := (h.2 p).2 k
    rw [State.withPen_pen, hp]
    exact hnone
  · have hpp := h p
    unfold pinOk at hpp ⊢
    rw [State.withPen_ports, State.withPen_pen, hp]
    split
    · next r hr =>
      simp only [hr] at hpp
      obtain ⟨hpin, j, old, hj, hold⟩ := hpp
      have hij : i ≠ j := fun e => hn old (e ▸ hj) p (hold ▸ hpin)
      have hne : i.val ≠ j.val := fun e => hij (Fin.ext e)
      exact ⟨hpin, j, old, by simpa [hs, hne] using hj, hold⟩
    · next hr => simpa only [hr] using hpp
    · next hr => simpa only [hr] using hpp

theorem breakPins_slots (n : ScanNo) (s : State) : (breakPins n s).pen.slots = s.pen.slots := rfl

theorem tame_publish (w : Window) (s : State) : Tame s (publish w s).2 := by
  unfold publish
  dsimp only
  cases hold : s.pen.slots[takeSlot s.pen] with
  | none =>
    exact tame_withSlot s _ (takeSlot s.pen) _ rfl rfl fun old h => by simp [hold] at h
  | some old =>
    refine (tame_breakPins old.scan s).trans (tame_withSlot _ _ (takeSlot s.pen) _ rfl rfl fun o h p => ?_)
    rw [breakPins_slots, hold] at h
    obtain rfl := Option.some.inj h
    exact breakPins_unpinned _ s p

/-! ### What follows a publication -/

/-- A served port keeps its bounds and the fields that the token and the pins read. -/
structure Served (x y : PortState) : Prop where
  queues : portQueuesOk x → portQueuesOk y
  silent : y.silent = x.silent
  inbound : y.inbound = x.inbound
  stream : y.stream = x.stream
  handling : y.handling = x.handling

theorem Served.refl (x : PortState) : Served x x := ⟨id, rfl, rfl, rfl, rfl⟩

theorem Served.trans {x y z : PortState} (h : Served x y) (k : Served y z) : Served x z :=
  ⟨k.queues ∘ h.queues, k.silent.trans h.silent, k.inbound.trans h.inbound, k.stream.trans h.stream,
    k.handling.trans h.handling⟩

theorem served_notice (kind : Byte) (pl : List Byte) (x : PortState) : Served x (x.notice kind pl) :=
  ⟨x.notice_queuesOk kind pl, by simp, by simp, by simp, by simp⟩

/-- R206: a push report is admitted only where the queue's bounds leave room for it. -/
theorem served_push (x : PortState) (m : OutMsg) (ds : Vector Descriptor 4) (h : x.admitsPush = true) :
    Served x { x with outbound := x.outbound ++ [m], descriptors := ds } := by
  have hroom : x.occupied ≤ 24 ∧ x.pushes < 24 := by simpa [PortState.admitsPush] using h
  refine ⟨fun ⟨a, b, c⟩ => ⟨a, ?_, ?_⟩, rfl, rfl, rfl, rfl⟩
  · have e : (x.outbound ++ [m]).length = x.outbound.length + 1 := by simp
    have hocc : x.outbound.length + x.reserved ≤ 24 := hroom.1
    show (x.outbound ++ [m]).length + x.reserved ≤ 32
    omega
  · have h1 : [m].countP (fun m => m.cls == .push) ≤ 1 := List.countP_le_length
    have h2 : x.outbound.countP (fun m => m.cls == .push) < 24 := hroom.2
    show (x.outbound ++ [m]).countP _ ≤ 24
    rw [List.countP_append]
    omega

theorem served_serveDescriptor (g : Generation) (a : Azm) (x : PortState) (i : Fin 4) :
    Served x (serveDescriptor g a x i) := by
  unfold serveDescriptor
  dsimp only
  split
  · exact Served.refl x
  split
  · next h =>
    split
    · exact (served_push x _ _ h).trans (served_notice ..)
    · exact served_push x _ _ h
  · exact ⟨id, rfl, rfl, rfl, rfl⟩

theorem served_foldl (g : Generation) (a : Azm) (is : List (Fin 4)) (x : PortState) :
    Served x (is.foldl (serveDescriptor g a) x) := by
  induction is generalizing x with
  | nil => exact Served.refl x
  | cons i is ih => exact (served_serveDescriptor g a x i).trans (ih _)

theorem served_servePort (g : Generation) (a : Azm) (x : PortState) : Served x (servePort g a x) := by
  unfold servePort
  split
  · exact Served.refl x
  · exact served_foldl ..

theorem tame_servePorts (g : Generation) (s : State) : Tame s (s.withPorts (s.ports.map (servePort g s.azm))) := by
  have h : ∀ p, Served (s.ports.get p) ((s.ports.map (servePort g s.azm)).get p) := fun p => by
    rw [PerPort.get_map]; exact served_servePort ..
  exact .of_ports (fun p => (h p).queues) (fun p => (h p).silent) (fun p _ e => (h p).inbound.trans e)
    (fun p => (h p).stream) (fun p => (h p).handling)

theorem tame_jumpAlarm (i : PointNo) (o : SideOutcome) (s : State) : Tame s (jumpAlarm i o s) := by
  cases o with
  | none => exact Tame.refl s
  | accepted => exact tame_returnAlarm s i
  | jump => exact tame_activate s i

theorem tame_trackEdges (s : State) : Tame s (trackEdges s) :=
  ((tame_withEbm s _).trans (tame_jumpAlarm ..)).trans (tame_jumpAlarm ..)

theorem tame_evaluateProp (b : GradeBank) (g : Generation) (s : State) (p : Prop4) : Tame s (evaluateProp b g s p) := by
  unfold evaluateProp
  dsimp only
  split
  · exact Tame.refl s
  split
  · exact ((tame_setAlarm ..).trans (tame_setAlarm ..)).trans (tame_setAlarm ..)
  · exact Tame.refl s

/-- A fold of effects that each keep the rules. -/
theorem tame_foldl {α : Type} (f : State → α → State) (hf : ∀ s a, Tame s (f s a)) (l : List α) (s : State) :
    Tame s (l.foldl f s) := by
  induction l generalizing s with
  | nil => exact Tame.refl s
  | cons a l ih => exact (hf s a).trans (ih _)

theorem tame_evaluateLimits (g : Generation) (s : State) : Tame s (evaluateLimits g s) := by
  unfold evaluateLimits
  split
  · split
    · split
      · exact tame_foldl _ (tame_evaluateProp _ g) _ s
      · exact Tame.refl s
    · exact .of_same
  · exact Tame.refl s

theorem tame_returnHole (s : State) : Tame s (returnHole s) := by
  unfold returnHole
  split
  · exact Tame.refl s
  · exact tame_returnAlarm s _

theorem tame_widthTest (g : Generation) (s : State) : Tame s (widthTest g s) := by
  unfold widthTest
  split
  · split
    · split
      · exact tame_withMsm s _ (logOk_of_same rfl id)
      · exact tame_changeState ..
    · exact tame_withMsm s _ (logOk_of_same rfl id)
  · exact Tame.refl s

theorem tame_afterPublish (g : Generation) (s : State) : Tame s (afterPublish g s) := by
  have h := (tame_trackEdges s).trans (tame_withAzm _ (azmPublish g (trackEdges s).azm))
  exact (((h.trans (tame_evaluateLimits g _)).trans (tame_returnHole _)).trans (tame_widthTest g _)).trans
    (tame_servePorts g _)

/-! ### The traverse (R16, R17) -/

theorem tame_startMap (d : Dir) (s : State) : Tame s (startMap d s) :=
  (tame_withEbm s _).trans (tame_setAlarm _ ptNarrowMap _)

theorem tame_startWindow (d : Dir) (r : Bool) (s : State) : Tame s (startWindow d r s) := by
  unfold startWindow
  split
  · exact Tame.refl s
  · exact .of_same

theorem tame_traverseStart (d : Dir) (s : State) : Tame s (traverseStart d s) := by
  unfold traverseStart
  dsimp only
  refine Tame.trans ?_ ((motion_armOwed _).trans (motion_checkCommandPoint _)).tame
  refine Tame.trans ?_ (tame_withMsm _ _ (logOk_of_same rfl id))
  refine Tame.trans ?_ (tame_startWindow ..)
  refine Tame.trans ?_ (tame_startMap ..)
  refine Tame.trans ?_ (motion_applyPendingGrade _).tame
  exact ((motion_setCarriage .traverse s).tame.trans (tame_withCmu _ _)).trans (motion_want _ _).tame

theorem tame_publishTraverse (s : State) : Tame s (publishTraverse s) := by
  unfold publishTraverse
  split
  · exact Tame.refl s
  · exact (tame_publish _ s).trans (tame_afterPublish _ _)

theorem tame_countScan (s : State) : Tame s (countScan s) := (tame_withOsq s _).trans (motion_intervalCheck _).tame

theorem tame_traverseEnd (s : State) : Tame s (traverseEnd s) :=
  ((((((motion_want 0 s).tame.trans (tame_publishTraverse _)).trans (motion_applyPendingPlan _).tame).trans
    (tame_countScan _)).trans (motion_computeLimits _).tame).trans (motion_chooseAtEnd _).tame)

theorem tame_checkTarget (s : State) : Tame s (checkTarget s) := by
  unfold checkTarget
  split
  · split
    · exact tame_traverseEnd s
    · exact Tame.refl s
  · exact Tame.refl s

theorem tame_arrivals (d : Dir) (s : State) : Tame s (arrivals d s) := by
  have dich : ∀ (b : Bool) (t : State), Tame s t → Tame s (if b then t else s) := by
    intro b t h
    cases b
    · exact Tame.refl s
    · exact h
  unfold arrivals
  dsimp only
  split
  · exact dich _ _ (motion_arriveParked motion_nextMove s).tame
  · exact dich _ _ (motion_arriveFixed motion_nextMove s).tame
  · exact dich _ _ (motion_arriveStd s).tame
  · refine dich _ _ ?_
    split
    · exact tame_traverseStart ..
    · exact (motion_enterTurning _ s).tame
  · split
    · exact tame_traverseStart ..
    · exact Tame.refl s
  · split
    · exact tame_traverseEnd s
    · exact (motion_checkCommandPoint s).tame
  all_goals exact Tame.refl s

theorem driveSound_count {d : Drive} (h : DriveSound d) : DriveSound { d with
    stall := d.stall.map (fun _ => 0)
    dwell := d.dwell.map (fun w => { w with sinceCount := 0 }) } := by
  obtain ⟨a, b, c⟩ := h
  exact ⟨a, by simpa using b, by simpa using c⟩

theorem tame_countPosition (d : Dir) (s : State) : Tame s (countPosition d s) := .of_same (hd := driveSound_count)

theorem tame_countCompares (d : Dir) (s : State) : Tame s (countCompares d s) := by
  unfold countCompares
  split
  · split
    · exact tame_arrivals d s
    · exact tame_enterFault .encoder s
  · exact Tame.refl s

theorem tame_settleDrive (s : State) : Tame s s.settleDrive := (steady_settleDrive s).tame

/-- All of an encoder count but the end of the event. -/
def countUnsettled (d : Dir) (s : State) : State :=
  overrideAfterCount s.cmu.state (countCompares d (countPosition d s))

theorem encoderCount_eq (d : Dir) (s : State) : encoderCount d s = (countUnsettled d s).settleDrive := rfl

theorem tame_countUnsettled (d : Dir) (s : State) : Tame s (countUnsettled d s) :=
  ((tame_countPosition d s).trans (tame_countCompares d _)).trans (steady_overrideAfterCount _ _).tame

end Sys2Proof.Machine
end

section
/-! PROOFS. The effects of the head bus, of the records, of the lines, the timers and the links, and of the owners of requests, keep
the queues, the token, the pins, the floor, the break log and the drive. -/

namespace Sys2Proof.Machine

open Safety

/-- An event as a whole keeps the same rules as `Tame`, the drive's in full. The entries reserved for a reply stay reserved. -/
structure Sound (s t : State) : Prop where
  queues : queuesOk s → queuesOk t
  token : tokenOk s → tokenOk t
  pins : pinsOk s → pinsOk t
  floor : floorOk s → floorOk t
  log : logOk s.msm → logOk t.msm
  drive : driveOk s.drive → driveOk t.drive
  reserved : ∀ p : Port, (t.ports.get p).reserved = (s.ports.get p).reserved

theorem Sound.refl (s : State) : Sound s s := ⟨id, id, id, id, id, id, fun _ => rfl⟩

theorem Sound.trans {s t u : State} (h : Sound s t) (k : Sound t u) : Sound s u :=
  ⟨k.queues ∘ h.queues, k.token ∘ h.token, k.pins ∘ h.pins, k.floor ∘ h.floor, k.log ∘ h.log, k.drive ∘ h.drive,
    fun p => (k.reserved p).trans (h.reserved p)⟩

/-- An event that ends by sending the command wanted. -/
theorem Tame.settled {s t : State} (h : Tame s t) : Sound s t.settleDrive :=
  have k := h.trans (tame_settleDrive t)
  ⟨k.queues, k.token, k.pins, k.floor, k.log, fun x => driveOk_settle (h.drive (.of_ok x)), k.reserved⟩

/-- An event that leaves the drive alone. -/
theorem Tame.undriven {s t : State} (h : Tame s t) (e : t.drive = s.drive := by rfl) : Sound s t :=
  ⟨h.queues, h.token, h.pins, h.floor, h.log, by rw [e]; exact id, h.reserved⟩

/-! ### The head bus -/

theorem tame_absentAlarm (ch : Channel) (was now : HeadState) (s : State) : Tame s (absentAlarm ch was now s) := by
  unfold absentAlarm
  split
  · exact tame_activate ..
  split
  · exact tame_returnAlarm ..
  · exact Tame.refl s

theorem tame_unsetEvent (s : State) : Tame s (unsetEvent s) := by
  unfold unsetEvent
  split
  · exact tame_withOsq s _
  · exact ((motion_setDue s).trans (motion_osqOccasion _)).tame

theorem tame_headReadyEvent (ch : Channel) (s : State) : Tame s (headReadyEvent ch s) := by
  unfold headReadyEvent
  split
  · exact Tame.refl s
  split
  · exact tame_unsetEvent s
  · exact Tame.refl s

theorem tame_handValue (ch : Channel) (v : Option (BitVec 16)) (s : State) : Tame s (handValue ch v s) := by
  unfold handValue
  split
  · split
    · exact tame_withOsq s _
    · exact Tame.refl s
  · exact Tame.refl s

theorem tame_commitChannel (s : State) (c : RefChan) : Tame s (commitChannel s c) := by
  unfold commitChannel
  split
  · exact Tame.refl s
  split
  · exact (tame_withScv s _).trans (tame_returnAlarm ..)
  · exact tame_activate ..

theorem tame_commit (s : State) : Tame s (commit s) :=
  (((tame_foldl commitChannel tame_commitChannel allRefChans s).trans (tame_withOsq _ _)).trans
    (tame_returnAlarm _ ptOverdue)).trans (tame_mergeRenewal _)

theorem tame_releaseInterlock (s : State) : Tame s (releaseInterlock s) :=
  ((tame_withOsq s _).trans (motion_applyPendingPlan _).tame).trans (tame_nextMove _)

theorem tame_headStepsDone (s : State) : Tame s (headStepsDone s) := by
  unfold headStepsDone
  split
  · exact (tame_commit s).trans (tame_releaseInterlock _)
  · exact Tame.refl s

theorem tame_takeReport (q : Sequence) (s : State) : Tame s (takeReport q s) := by
  unfold takeReport
  dsimp only
  split
  · exact (tame_withHbc s _).trans (tame_withOsq _ _)
  · exact tame_withHbc s _

theorem tame_reportPhase (s : State) : Tame s (reportPhase s) := by
  unfold reportPhase
  split
  · exact Tame.refl s
  split
  · split
    · exact tame_takeReport _ s
    · exact tame_withHbc s _
  · exact Tame.refl s

theorem tame_endSequence (s : State) : Tame s (endSequence s) := by
  unfold endSequence
  split
  · exact Tame.refl s
  split
  · dsimp only
    split
    · exact tame_withHbc s _
    · exact (tame_withHbc s _).trans (tame_headStepsDone _)
  · exact Tame.refl s

theorem tame_reports (s : State) : Tame s (endSequence (reportPhase s)) :=
  (tame_reportPhase s).trans (tame_endSequence _)

/-- An effect taken on a condition. -/
theorem tame_ite {s : State} {c : Prop} [Decidable c] {t u : State} (ht : Tame s t) (hu : Tame s u) :
    Tame s (if c then t else u) := by
  split
  · exact ht
  · exact hu

theorem sound_ite {s : State} {c : Prop} [Decidable c] {t u : State} (ht : Sound s t) (hu : Sound s u) :
    Sound s (if c then t else u) := by
  split
  · exact ht
  · exact hu

theorem sound_examinedSlot (ch : Channel) (w : Option UplinkWord) (s : State) : Sound s (examinedSlot ch w s) := by
  refine Tame.settled (Tame.trans ?_ (tame_reports _))
  have h := ((tame_withHbc s (applyExam s.hbc ch w (examineSlot s.hbc ch w))).trans (tame_absentAlarm ch
    (s.hbc.heads.get ch).state (examineSlot s.hbc ch w).head.state _)).trans (tame_handValue ch
    (examineSlot s.hbc ch w).value _)
  exact tame_ite (h.trans (tame_headReadyEvent ch _)) h

theorem sound_uplinkSlot (ch : Channel) (w : Option UplinkWord) (s : State) : Sound s (uplinkSlot ch w s) :=
  sound_ite (Sound.refl s) (sound_ite (tame_withHbc s _).undriven (sound_examinedSlot ch w s))

theorem sound_losingSlot (cause : AbsentCause) (ch : Channel) (w : Option UplinkWord) (s : State) :
    Sound s (losingSlot cause ch w s) := sound_ite (sound_uplinkSlot ch w s) (Sound.refl s)

theorem tame_returnAbsents (was : PerChan Head) (s : State) : Tame s (returnAbsents was s) :=
  tame_foldl _ (fun _ _ => tame_absentAlarm ..) _ s

theorem tame_applyMask (s : State) : Tame s (applyMask s) := by
  unfold applyMask
  dsimp only
  refine tame_ite (Tame.refl s) (Tame.trans ?_ (tame_reports _))
  have h := fun x => (tame_withHbc s x).trans (tame_returnAbsents s.hbc.heads _)
  exact tame_ite ((h _).trans (tame_unsetEvent _)) (h _)

theorem tame_resetHeadSteps (s : State) : Tame s (resetHeadSteps s) :=
  have h := (tame_resetOsqStep s).trans (motion_applyPendingPlan _).tame
  tame_ite (h.trans (motion_retakeStd _).tame) (h.trans (tame_nextMove _))

theorem tame_applyReset (s : State) : Tame s (applyReset s) :=
  have h := fun x => (tame_withHbc s x).trans (tame_returnAbsents s.hbc.heads _)
  tame_ite ((h _).trans (tame_resetHeadSteps _)) (h _)

theorem tame_sendReference (named : PerRef Bool) (s : State) : Tame s (sendReference named s) :=
  tame_ite (tame_withHbc s _) ((tame_withHbc s _).trans (tame_headStepsDone _))

theorem tame_chooseDownlink (s : State) : Tame s (chooseDownlink s) := by
  unfold chooseDownlink
  split
  · split
    · exact tame_withHbc s _
    · exact tame_withHbc s _
  · exact tame_sendReference ..
  · exact tame_withHbc s _

theorem tame_beginCycle_unsettled (s : State) : Tame s
    (if (applyMask (numberCycle s)).hbc.resetPending then applyReset (applyMask (numberCycle s))
      else chooseDownlink (applyMask (numberCycle s))) :=
  have h := (tame_withHbc s (numberCycle s).hbc).trans (tame_applyMask _)
  tame_ite (h.trans (tame_applyReset _)) (h.trans (tame_chooseDownlink _))

theorem sound_beginCycle (s : State) : Sound s (beginCycle s) := (tame_beginCycle_unsettled s).settled

/-! ### Time -/

theorem tick_fields (n : Nat) (x : PortState) : ∃ k, x.tick n = { x with silentTimer := k } := by
  unfold PortState.tick
  split
  · exact ⟨_, rfl⟩
  · exact ⟨x.silentTimer, rfl⟩

theorem sound_tick (s : State) : Sound s s.tick := by
  have hp : ∀ p, ∃ k, s.tick.ports.get p = { s.ports.get p with silentTimer := k } := by
    intro p
    simp only [State.tick, State.withPorts_ports, State.withOsq_ports, State.withDrive_ports, PerPort.get_map]
    exact tick_fields _ _
  have hd : driveOk s.drive → driveOk s.tick.drive := by
    rintro ⟨a, b, c, d⟩
    refine ⟨a, ?_, ?_, ?_⟩
    · simpa [State.tick] using b
    · simpa [State.tick] using c
    · simpa [State.tick] using d
  refine ⟨fun h p => ?_, fun h => ⟨h.1, fun p => ?_⟩, fun h p => ?_, floorOk_congr rfl rfl rfl, id, hd, fun p => ?_⟩
  · obtain ⟨k, e⟩ := hp p
    rw [e]; exact h p
  · obtain ⟨k, e⟩ := hp p
    have hh := h.2 p
    refine ⟨?_, ?_⟩
    · rw [e]; exact hh.1
    · unfold silentHoldsNothing
      rw [e]; exact hh.2
  · obtain ⟨k, e⟩ := hp p
    exact pinOk_congr (s := s) (by rw [e]) rfl rfl (h p)
  · obtain ⟨k, e⟩ := hp p
    rw [e]; rfl

/-! ### Records -/

theorem periodTake_keeps (machine : MachineState) (r : MRecord) (p : Pen) :
    (periodTake machine r p).slots = p.slots ∧ (periodTake machine r p).pins = p.pins := by
  unfold periodTake
  split
  · exact ⟨rfl, rfl⟩
  split
  · dsimp only
    split <;> exact ⟨rfl, rfl⟩
  · exact ⟨rfl, rfl⟩

theorem sound_penTakeRecord (s : State) : Sound s (penTakeRecord s) := by
  unfold penTakeRecord
  split
  · exact Sound.refl s
  · next r rest _ =>
    have h := periodTake_keeps s.msm.state r { s.pen with window := s.pen.window.map (windowTake s.msm.state r) }
    exact (Tame.of_same (hp := h.2) (hs := h.1)).undriven

theorem sound_fixedPeriodComplete (s : State) : Sound s (fixedPeriodComplete s) :=
  sound_ite (sound_penTakeRecord s) (Sound.refl s)

theorem sound_ebmTakeRecord (s : State) : Sound s (ebmTakeRecord s) := by
  unfold ebmTakeRecord
  split
  · exact Sound.refl s
  · exact ((tame_withScv s _).trans (tame_withEbm _ _)).undriven

theorem sound_edgeGapLimit (s : State) : Sound s (edgeGapLimit s) := sound_ite (sound_ebmTakeRecord s) (Sound.refl s)

theorem tame_setRun (x : Option SheetRun) (s : State) : Tame s (setRun x s) :=
  tame_withMsm s _ (logOk_of_same rfl id)

theorem tame_takeClear (r : MRecord) (o : OverrideOrder) (s : State) : Tame s (takeClear r o s) :=
  tame_ite ((tame_setRun _ s).trans (tame_takeCause ..)) (tame_setRun _ s)

theorem tame_takeSet (s : State) : Tame s (takeSet s) := by
  unfold takeSet
  split
  · exact Tame.refl s
  · have h := tame_setRun none s
    exact tame_ite ((h.trans (tame_withMsm _ { (setRun none s).msm with holeSeen := true } (logOk_of_same rfl id))).trans
      (tame_activate ..)) h

theorem tame_msmTake (r : MRecord) (o : OverrideOrder) (s : State) : Tame s (msmTake r o s) := by
  unfold msmTake
  split
  · exact tame_setRun none s
  split
  · exact tame_takeClear r o s
  · exact tame_takeSet s
  · exact tame_setRun _ s

theorem sound_msmTakeRecord (o : OverrideOrder) (s : State) : Sound s (msmTakeRecord o s) := by
  unfold msmTakeRecord
  split
  · exact Sound.refl s
  · exact ((tame_withScv s _).trans (tame_msmTake ..)).settled

theorem sound_sheetLost (o : OverrideOrder) (s : State) : Sound s (sheetLost o s) :=
  sound_ite (sound_msmTakeRecord o s) (Sound.refl s)

theorem sound_sheetRunGapLimit (s : State) : Sound s (sheetRunGapLimit s) :=
  sound_ite (sound_msmTakeRecord _ s) (Sound.refl s)

/-! ### Lines and timers -/

theorem sound_encoderCount (d : Dir) (s : State) : Sound s (encoderCount d s) := (tame_countUnsettled d s).settled

theorem sound_encoderSkip (s : State) : Sound s (encoderSkip s) := by
  unfold encoderSkip
  dsimp only
  have h := fun x => (tame_withCmu s x).undriven
  refine sound_ite (h _) ?_
  have k := fun x y => (tame_withCmu s x).trans (tame_withCmu _ y)
  exact sound_ite ((k _ _).trans (tame_enterFault ..)).settled (k _ _).undriven

theorem sound_driveWordRepeat (s : State) : Sound s (driveWordRepeat s) :=
  have h : Tame s (driveWordRepeat s) := .of_same (hd := fun h => ⟨rfl, h.2.1, h.2.2⟩)
  ⟨h.queues, h.token, h.pins, h.floor, h.log, fun x => ⟨rfl, x.2.1, x.2.2.1, x.2.2.2⟩, h.reserved⟩

theorem sound_dwellEnd (s : State) : Sound s (dwellEnd s) :=
  have h : Tame s (s.withDrive { s.drive with dwell := none }) := .of_same (hd := fun h => ⟨h.1, h.2.1, by simp⟩)
  sound_ite h.settled (Sound.refl s)

theorem sound_stallTimeout (s : State) : Sound s (stallTimeout s) :=
  sound_ite (tame_enterFault .stall s).settled (Sound.refl s)

theorem sound_drvfltConfirmed (active : Bool) (s : State) : Sound s (drvfltConfirmed active s) :=
  have h := tame_withCmu s { s.cmu with drvflt := confirmLine 2 active s.cmu.drvflt }
  sound_ite h.undriven
    (sound_ite (sound_ite (h.trans (tame_enterFault ..)).settled h.undriven)
      (sound_ite (h.trans (tame_enterHoming _)).settled h.undriven))

theorem sound_homeConfirmed (active : Bool) (s : State) : Sound s (homeConfirmed active s) :=
  have h := tame_withCmu s { s.cmu with home := confirmLine 2 active s.cmu.home }
  sound_ite (h.trans (tame_arriveHome _)).settled h.undriven

theorem sound_settleExpiry (s : State) : Sound s (settleExpiry s) :=
  sound_ite ((tame_withOsq s _).trans (tame_withHbc _ _)).undriven (Sound.refl s)

theorem sound_overdueExpiry (s : State) : Sound s (overdueExpiry s) :=
  sound_ite ((tame_withOsq s _).trans (tame_activate ..)).undriven (Sound.refl s)

theorem sound_breakLineConfirmed (l : BreakLine) (high : Bool) (o : OverrideOrder) (s : State) :
    Sound s (breakLineConfirmed l high o s) :=
  ((tame_withMsm s { s.msm with lines := s.msm.lines.set l (confirmLine 3 high (s.msm.lines.get l)) }
    (logOk_of_same rfl id)).trans (tame_readingChanged ..)).settled

end Sys2Proof.Machine
end

section
/-! PROOFS. The links and the owners of requests keep the queues, the token, the pins, the floor, the break log and the drive
(R176, R179, R194 … R201). -/

namespace Sys2Proof.Machine

open Safety

/-! ### The token -/

/-- R178: what the leaving of the holder leaves to be read of the token and the ports. -/
theorem leaveToken_fields (old : Port) (silent : Bool) (s : State) :
    (leaveToken old silent s).cta = ⟨s.cta.waiting.head?, s.cta.waiting.tail, none⟩ ∧
    (leaveToken old silent s).cmu = clearOwedHold s.cmu ∧ (leaveToken old silent s).pen = s.pen ∧
    (leaveToken old silent s).drive = s.drive ∧ (leaveToken old silent s).msm = s.msm ∧
    (leaveToken old silent s).alt = s.alt ∧ (leaveToken old silent s).rbs = s.rbs ∧
    ∀ p, Noticed (s.ports.get p) ((leaveToken old silent s).ports.get p) := by
  rw [leaveToken_eq]
  split
  · next h => exact ⟨by rw [h]; rfl, rfl, rfl, rfl, rfl, rfl, rfl, fun _ => Noticed.refl _⟩
  · next p rest h =>
    refine ⟨by rw [h]; rfl, rfl, rfl, rfl, rfl, rfl, rfl, fun q => ?_⟩
    exact notify_ports _ p kToken _ q

/-- R176, R178: the head of the waiting list takes the token. -/
theorem waitingOk_pass {c : Cta} (h : waitingOk c) (pending : Option ScanPlan) :
    waitingOk ⟨c.waiting.head?, c.waiting.tail, pending⟩ := by
  obtain ⟨_, hnodup, _⟩ := h
  cases hw : c.waiting with
  | nil => exact ⟨fun _ => rfl, by simp, by simp⟩
  | cons p rest =>
    rw [hw, List.nodup_cons] at hnodup
    refine ⟨by simp, hnodup.2, ?_⟩
    rintro q hq
    obtain rfl := Option.some.inj hq
    exact hnodup.1

theorem waitingOk_erase {c : Cta} (h : waitingOk c) (p : Port) :
    waitingOk { c with waiting := c.waiting.erase p } := by
  obtain ⟨hfree, hnodup, hholder⟩ := h
  exact ⟨fun k => by simp [hfree k], hnodup.erase p, fun q hq hm => hholder q hq (List.mem_of_mem_erase hm)⟩

/-- A port that neither holds the token nor waits for it takes no part in what the waiting list becomes. -/
theorem pass_apart {c : Cta} {p : Port} (h : p ∉ c.waiting) : c.waiting.head? ≠ some p ∧ p ∉ c.waiting.tail :=
  ⟨fun e => h (List.mem_of_head? e), fun e => h (List.mem_of_mem_tail e)⟩

theorem tame_leaveToken (old : Port) (silent : Bool) (s : State) : Tame s (leaveToken old silent s) := by
  obtain ⟨hcta, _, hpen, hdrive, hmsm, halt, hrbs, hn⟩ := leaveToken_fields old silent s
  refine ⟨fun h p => (hn p).queuesOk (h p), fun h => ⟨?_, fun p => ?_⟩, fun h p => ?_, ?_, by rw [hmsm]; exact id,
    by rw [hdrive]; exact id, fun p => by simp only [PortState.reserved, (hn p).handling], by rw [hrbs]⟩
  · rw [hcta]; exact waitingOk_pass h.1 none
  · obtain ⟨hidle, hnone⟩ := h.2 p
    refine ⟨?_, fun hs => ?_⟩
    · simpa only [silentIdle, (hn p).silent, (hn p).inbound, (hn p).stream, (hn p).handling] using hidle
    · obtain ⟨_, hw, hpin⟩ := hnone ((hn p).silent.symm.trans hs)
      rw [hcta, hpen]
      exact ⟨(pass_apart hw).1, (pass_apart hw).2, hpin⟩
  · exact pinOk_congr (hn p).stream (by rw [hpen]) (by rw [hpen]) (h p)
  · exact floorOk_congr (by rw [halt]) (by rw [halt]) (by rw [hrbs])

theorem tame_eraseWaiting (p : Port) (s : State) :
    Tame s (s.withCta { s.cta with waiting := s.cta.waiting.erase p }) := by
  refine ⟨id, fun h => ⟨waitingOk_erase h.1 p, fun q => ⟨(h.2 q).1, fun hs => ?_⟩⟩, fun h q => h q,
    floorOk_congr rfl rfl rfl, id, id, fun _ => rfl, rfl⟩
  obtain ⟨a, b, c⟩ := (h.2 q).2 hs
  exact ⟨a, fun e => b (List.mem_of_mem_erase e), c⟩

/-! ### Silence (R197) -/

/-- R179: a port that goes SILENT leaves the token and the waiting list. -/
theorem silenceToken_apart (p : Port) {s : State} (h : waitingOk s.cta) :
    (silenceToken p s).cta.holder ≠ some p ∧ p ∉ (silenceToken p s).cta.waiting := by
  obtain ⟨_, hnodup, hholder⟩ := h
  unfold silenceToken
  split
  · next hp => rw [(leaveToken_fields p true s).1]; exact pass_apart (hholder p hp)
  · next hp => exact ⟨hp, hnodup.not_mem_erase⟩

theorem tame_silenceToken (p : Port) (s : State) : Tame s (silenceToken p s) :=
  tame_ite (tame_leaveToken p true s) (tame_eraseWaiting p s)

/-- The port's own part of a SILENT port, with its pin. -/
def silencedPort (p : Port) (s : State) : State :=
  (s.updPort p silencePort).withPen { s.pen with pins := s.pen.pins.set p none }

theorem becomeSilent_eq (p : Port) (s : State) :
    becomeSilent p s = silenceAzm p ((silenceToken p (silencedPort p s)).activate (ptPortSilent p)) := rfl

theorem silencedPort_get (p q : Port) (s : State) : (silencedPort p s).ports.get q =
    if q = p then silencePort (s.ports.get p) else s.ports.get q := PerPort.get_set ..

theorem silencedPort_pins (p q : Port) (s : State) : (silencedPort p s).pen.pins.get q =
    if q = p then none else s.pen.pins.get q := PerPort.get_set ..

theorem silencePort_idle (x : PortState) : silentIdle (silencePort x) := by
  refine fun _ => ⟨rfl, rfl, fun h hh => ?_⟩
  obtain ⟨k, _, rfl⟩ := Option.map_eq_some_iff.1 hh
  rfl

theorem silencePort_reserved (x : PortState) : (silencePort x).reserved = x.reserved := by
  cases h : x.handling <;> simp [PortState.reserved, silencePort, h]

theorem silencePort_queuesOk {x : PortState} (h : portQueuesOk x) : portQueuesOk (silencePort x) := by
  obtain ⟨_, b, _⟩ := h
  refine ⟨by simp [silencePort], ?_, by simp [silencePort, PortState.pushes]⟩
  rw [silencePort_reserved]
  have : (silencePort x).outbound.length = 0 := rfl
  omega

theorem queues_silencedPort (p : Port) {s : State} (h : queuesOk s) : queuesOk (silencedPort p s) := by
  intro q
  rw [silencedPort_get]
  split
  · exact silencePort_queuesOk (h p)
  · exact h q

theorem pins_silencedPort (p : Port) {s : State} (h : pinsOk s) : pinsOk (silencedPort p s) := by
  intro q
  by_cases hq : q = p
  · have e1 := silencedPort_get p q s
    have e2 := silencedPort_pins p q s
    rw [if_pos hq] at e1 e2
    unfold pinOk
    rw [e1, e2]
    rfl
  · exact pinOk_congr (s := s) (by rw [silencedPort_get, if_neg hq]) (by rw [silencedPort_pins, if_neg hq]) rfl (h q)

theorem reserved_silencedPort (p q : Port) (s : State) :
    ((silencedPort p s).ports.get q).reserved = (s.ports.get q).reserved := by
  rw [silencedPort_get]
  split
  · next h => rw [silencePort_reserved, h]
  · rfl

/-- R179: once the token has left it, the SILENT port holds nothing. -/
theorem token_silenced (p : Port) {s : State} (h : tokenOk s) : tokenOk (silenceToken p (silencedPort p s)) := by
  have hw : waitingOk (silencedPort p s).cta := h.1
  obtain ⟨hh, hm⟩ := silenceToken_apart p hw
  have others : ∀ q, q ≠ p → ((silencedPort p s).ports.get q).silent = true →
      (silenceToken p (silencedPort p s)).cta.holder ≠ some q ∧ q ∉ (silenceToken p (silencedPort p s)).cta.waiting := by
    intro q hq hs
    rw [silencedPort_get, if_neg hq] at hs
    obtain ⟨a, b, _⟩ := (h.2 q).2 hs
    unfold silenceToken
    split
    · rw [(leaveToken_fields p true _).1]; exact pass_apart b
    · exact ⟨a, fun e => b (List.mem_of_mem_erase e)⟩
  have hports : ∀ q, Noticed ((silencedPort p s).ports.get q) ((silenceToken p (silencedPort p s)).ports.get q) := by
    intro q
    unfold silenceToken
    split
    · exact (leaveToken_fields p true _).2.2.2.2.2.2.2 q
    · exact Noticed.refl _
  have hpen : (silenceToken p (silencedPort p s)).pen = (silencedPort p s).pen := by
    unfold silenceToken
    split
    · exact (leaveToken_fields p true _).2.2.1
    · rfl
  have hwait : waitingOk (silenceToken p (silencedPort p s)).cta := by
    unfold silenceToken
    split
    · rw [(leaveToken_fields p true _).1]; exact waitingOk_pass hw none
    · exact waitingOk_erase hw p
  refine ⟨hwait, fun q => ?_⟩
  have e := hports q
  simp only [silentIdle, silentHoldsNothing, e.silent, e.inbound, e.stream, e.handling, hpen]
  by_cases hq : q = p
  · subst hq
    rw [silencedPort_get, silencedPort_pins, if_pos rfl, if_pos rfl]
    exact ⟨silencePort_idle _, fun _ => ⟨hh, hm, rfl⟩⟩
  · refine ⟨?_, fun hs => ?_⟩
    · rw [silencedPort_get, if_neg hq]; exact (h.2 q).1
    · obtain ⟨a, b⟩ := others q hq hs
      rw [silencedPort_get, if_neg hq] at hs
      refine ⟨a, b, ?_⟩
      rw [silencedPort_pins, if_neg hq]
      exact ((h.2 q).2 hs).2.2

theorem tame_silenceAzm (p : Port) (s : State) : Tame s (silenceAzm p s) := by
  cases p with
  | quality => exact Tame.refl s
  | machine => exact Tame.refl s
  | actuator => exact tame_withAzm s _

/-- The port's own part and the token's together. -/
theorem tame_silenced (p : Port) (s : State) : Tame s (silenceToken p (silencedPort p s)) :=
  have k := tame_silenceToken p (silencedPort p s)
  ⟨fun h => k.queues (queues_silencedPort p h), fun h => token_silenced p h, fun h => k.pins (pins_silencedPort p h),
    fun h => k.floor (floorOk_congr rfl rfl rfl h), fun h => k.log h, fun h => k.drive h,
    fun q => (k.reserved q).trans (reserved_silencedPort p q s), k.common⟩

theorem tame_becomeSilent (p : Port) (s : State) : Tame s (becomeSilent p s) :=
  ((tame_silenced p s).trans (tame_activate _ _)).trans (tame_silenceAzm p _)

theorem silenceToken_drive (p : Port) (s : State) : (silenceToken p s).drive = s.drive := by
  unfold silenceToken
  split
  · exact (leaveToken_fields p true s).2.2.2.1
  · rfl

theorem becomeSilent_drive (p : Port) (s : State) : (becomeSilent p s).drive = s.drive := by
  rw [becomeSilent_eq]
  cases p <;> exact silenceToken_drive _ _

theorem sound_portSilent (p : Port) (s : State) : Sound s (portSilent p s) :=
  sound_ite ((tame_becomeSilent p s).undriven (becomeSilent_drive p s)) (Sound.refl s)

/-! ### Receiving (R189, R194, R198) -/

/-- R194, R198: a port on which a message becomes valid is ACTIVE. -/
theorem tame_validPort (p : Port) (r : Receiver) (n : Nat) (s : State) : Tame s (s.updPort p (validPort r n)) := by
  have key : ∀ q, (s.updPort p (validPort r n)).ports.get q =
      if q = p then validPort r n (s.ports.get p) else s.ports.get q := fun q => PerPort.get_set ..
  refine ⟨fun h q => ?_, fun h => ⟨h.1, fun q => ?_⟩, fun h q => ?_, floorOk_congr rfl rfl rfl, id, id, fun q => ?_, rfl⟩
  · rw [key]; split
    · exact h p
    · exact h q
  · unfold silentHoldsNothing
    rw [key]; split
    · exact ⟨fun e => absurd e (by simp [validPort]), fun e => absurd e (by simp [validPort])⟩
    · exact h.2 q
  · refine pinOk_congr (s := s) ?_ rfl rfl (h q)
    rw [key]; split
    · next e => rw [e]; rfl
    · rfl
  · rw [key]; split
    · next e => rw [e]; rfl
    · rfl

theorem offerInbound_fields (m : InMsg) (x : PortState) : ∃ i k, offerInbound m x = { x with inbound := i, overruns := k } ∧
    (x.inbound.length ≤ 4 → i.length ≤ 4) := by
  unfold offerInbound
  split
  · next h => exact ⟨_, x.overruns, rfl, fun _ => by simp; omega⟩
  · exact ⟨x.inbound, _, rfl, id⟩

/-- R194: a message is offered to an ACTIVE port. -/
theorem tame_offerInbound (p : Port) (m : InMsg) (s : State) (h : (s.ports.get p).silent = false) :
    Tame s (s.updPort p (offerInbound m)) := by
  obtain ⟨i, k, e, hi⟩ := offerInbound_fields m (s.ports.get p)
  refine tame_updPort s p _ ?_ ?_ ?_ ?_ ?_ <;> rw [e]
  · rintro ⟨a, b, c⟩; exact ⟨hi a, b, c⟩
  · intro hs; simp [h] at hs

theorem sound_acceptMessage (p : Port) (r : Receiver) (m : InMsg) (n : Nat) (s : State) :
    Sound s (acceptMessage p r m n s) := by
  have h := tame_validPort p r n s
  have hs : ((s.updPort p (validPort r n)).ports.get p).silent = false := by simp [validPort]
  unfold acceptMessage
  dsimp only
  split
  · refine ((h.trans (tame_returnAlarm _ _)).trans (tame_offerInbound p m _ ?_)).undriven
    exact ((aside_returnAlarm _ _).ports p).silent.trans hs
  · exact (h.trans (tame_offerInbound p m _ hs)).undriven

/-- The updates of one port that touch nothing the rules read. -/
theorem sound_countBad (p : Port) (r : Receiver) (s : State) : Sound s (s.updPort p (countBad r)) :=
  (tame_updPort s p _ id rfl (fun _ h => h) rfl rfl).undriven

theorem sound_setReceiver (p : Port) (r : Receiver) (s : State) : Sound s (s.updPort p (setReceiver r)) :=
  (tame_updPort s p _ id rfl (fun _ h => h) rfl rfl).undriven

theorem sound_messageReceived (p : Port) (cs : List RxChar) (s : State) : Sound s (messageReceived p cs s) := by
  unfold messageReceived
  split
  · exact sound_acceptMessage ..
  · exact Sound.refl s

theorem sound_badMessage (p : Port) (cs : List RxChar) (s : State) : Sound s (badMessage p cs s) := by
  unfold badMessage
  split
  · exact sound_countBad ..
  · exact Sound.refl s

theorem sound_characterReceived (p : Port) (c : RxChar) (s : State) : Sound s (characterReceived p c s) := by
  unfold characterReceived
  split
  · exact sound_setReceiver ..
  · exact sound_countBad ..
  · exact sound_acceptMessage ..

theorem sound_intercharTimeout (p : Port) (s : State) : Sound s (intercharTimeout p s) := by
  unfold intercharTimeout
  split
  · exact Sound.refl s
  · exact sound_countBad ..

/-! ### Sending and streaming (R188, R201, R203) -/

theorem sound_messageSent (p : Port) (s : State) : Sound s (messageSent p s) := by
  refine (tame_updPort s p _ (fun h => ?_) rfl (fun _ h => h) rfl rfl).undriven
  obtain ⟨a, b, c⟩ := h
  refine ⟨a, ?_, ?_⟩
  · have e : ((s.ports.get p).outbound.drop 1).length ≤ (s.ports.get p).outbound.length := by simp
    show ((s.ports.get p).outbound.drop 1).length + (s.ports.get p).reserved ≤ 32
    omega
  · exact ((List.drop_sublist 1 _).countP_le).trans c

/-- The bounds of a queue that takes a chunk where it is admitted. -/
theorem queuesOk_chunk {x : PortState} {m : OutMsg} {st : StreamState} (hm : m.cls = .chunk) (ha : x.admitsChunk = true)
    (h : portQueuesOk x) : portQueuesOk { x with outbound := x.outbound ++ [m], stream := st } := by
  obtain ⟨a, _, c⟩ := h
  have hfree : 2 ≤ x.free := by simpa [PortState.admitsChunk] using ha
  have hocc : 2 ≤ 32 - (x.outbound.length + x.reserved) := hfree
  refine ⟨a, ?_, ?_⟩
  · have e : (x.outbound ++ [m]).length = x.outbound.length + 1 := by simp
    show (x.outbound ++ [m]).length + x.reserved ≤ 32
    omega
  · have e : (x.outbound ++ [m]).countP (fun m => m.cls == .push) = x.outbound.countP (fun m => m.cls == .push) := by
      simp [List.countP_append, hm]
    show (x.outbound ++ [m]).countP _ ≤ 24
    rw [e]; exact c

/-- A port whose stream changes, with its pin: what must hold of that port for the rules to go on. -/
theorem sound_stream {s t : State} (p : Port) (hne : ∀ q, q ≠ p → t.ports.get q = s.ports.get q)
    (hpne : ∀ q, q ≠ p → t.pen.pins.get q = s.pen.pins.get q) (hslots : t.pen.slots = s.pen.slots)
    (hq : portQueuesOk (s.ports.get p) → portQueuesOk (t.ports.get p))
    (hsil : tokenOk s → (t.ports.get p).silent = false) (hpin : pinOk s p → pinOk t p)
    (hr : (t.ports.get p).reserved = (s.ports.get p).reserved) (hcta : t.cta = s.cta := by rfl)
    (ha : t.alt = s.alt := by rfl) (hc : t.rbs.common = s.rbs.common := by rfl) (hm : t.msm = s.msm := by rfl)
    (hd : t.drive = s.drive := by rfl) : Sound s t := by
  refine ⟨fun h q => ?_, fun h => ⟨by rw [hcta]; exact h.1, fun q => ?_⟩, fun h q => ?_,
    floorOk_congr (by rw [ha]) (by rw [ha]) hc, by rw [hm]; exact id, by rw [hd]; exact id, fun q => ?_⟩
  · by_cases e : q = p
    · subst e; exact hq (h q)
    · rw [hne q e]; exact h q
  · by_cases e : q = p
    · subst e
      have hs := hsil h
      exact ⟨fun k => by simp [hs] at k, fun k => by simp [hs] at k⟩
    · unfold silentHoldsNothing
      rw [hne q e, hpne q e, hcta]
      exact h.2 q
  · by_cases e : q = p
    · subst e; exact hpin (h q)
    · exact pinOk_congr (by rw [hne q e]) (hpne q e) hslots (h q)
  · by_cases e : q = p
    · subst e; exact hr
    · rw [hne q e]

/-- A port whose stream is not idle is ACTIVE. -/
theorem active_of_stream {s : State} {p : Port} (h : tokenOk s) (hst : (s.ports.get p).stream ≠ .idle) :
    (s.ports.get p).silent = false := by
  cases e : (s.ports.get p).silent with
  | false => rfl
  | true => exact absurd ((h.2 p).1 e).2.1 hst

theorem sound_readChunk (p : Port) (s : State) : Sound s (readChunk p s) := by
  unfold readChunk
  split
  · next r hr =>
    split
    · next g _ =>
      split
      · next ha =>
        have hne : ∀ q, q ≠ p → (s.updPort p (afterChunk g r)).ports.get q = s.ports.get q :=
          fun q h => State.updPort_get_ne _ _ h
        have hs : tokenOk s → ((s.updPort p (afterChunk g r)).ports.get p).silent = false := fun h => by
          rw [State.updPort_get_same]; exact active_of_stream h (by simp [hr])
        have hq : portQueuesOk (s.ports.get p) → portQueuesOk ((s.updPort p (afterChunk g r)).ports.get p) := fun h => by
          rw [State.updPort_get_same]; exact queuesOk_chunk rfl ha h
        have hres : ((s.updPort p (afterChunk g r)).ports.get p).reserved = (s.ports.get p).reserved := by
          rw [State.updPort_get_same]; rfl
        dsimp only
        split
        · next hl =>
          refine sound_stream p hne (fun q h => PerPort.get_set_ne _ _ h) rfl hq hs (fun _ => ?_) hres
          have hst : ((unpin p (s.updPort p (afterChunk g r))).ports.get p).stream = .idle := by
            simp [unpin, afterChunk, hl]
          unfold pinOk
          rw [hst]
          simp [unpin]
        · next hl =>
          refine sound_stream p hne (fun _ _ => rfl) rfl hq hs (fun h => ?_) hres
          have hst : ((s.updPort p (afterChunk g r)).ports.get p).stream =
              .running { r with nextBin := r.nextBin + chunkCount r } := by simp [afterChunk, hl]
          unfold pinOk at h ⊢
          rw [hr] at h
          rw [hst]
          exact h
      · exact Sound.refl s
    · exact Sound.refl s
  · exact Sound.refl s
  · exact Sound.refl s

theorem sound_supersededChunk (p : Port) (s : State) : Sound s (supersededChunk p s) := by
  unfold supersededChunk
  split
  · next r hr =>
    split
    · next ha =>
      refine sound_stream p (fun q h => State.updPort_get_ne _ _ h) (fun _ _ => rfl) rfl (fun h => ?_) (fun h => ?_)
        (fun h => ?_) ?_
      · rw [State.updPort_get_same]; exact queuesOk_chunk rfl ha h
      · rw [State.updPort_get_same]; exact active_of_stream h (by simp [hr])
      · unfold pinOk at h ⊢
        rw [hr] at h
        rw [State.updPort_get_same]
        exact h
      · rw [State.updPort_get_same]; rfl
    · exact Sound.refl s
  · exact Sound.refl s
  · exact Sound.refl s

end Sys2Proof.Machine
end

section
/-! PROOFS. Every step keeps the queues, the token, the pins, the floor, the break log and the drive in their rules (R6, R119, R155,
R167, R176, R194). -/

namespace Sys2Proof.Machine

open Safety

/-- What every command keeps, each rule by itself. -/
structure Rules (s t : State) : Prop where
  queues : queuesOk s → queuesOk t
  token : tokenOk s → tokenOk t
  pins : pinsOk s → pinsOk t
  floor : floorOk s → floorOk t
  log : logOk s.msm → logOk t.msm
  drive : driveOk s.drive → driveOk t.drive

theorem Rules.refl (s : State) : Rules s s := ⟨id, id, id, id, id, id⟩

theorem Rules.trans {s t u : State} (h : Rules s t) (k : Rules t u) : Rules s u :=
  ⟨k.queues ∘ h.queues, k.token ∘ h.token, k.pins ∘ h.pins, k.floor ∘ h.floor, k.log ∘ h.log, k.drive ∘ h.drive⟩

theorem Sound.rules {s t : State} (h : Sound s t) : Rules s t :=
  ⟨h.queues, h.token, h.pins, h.floor, h.log, h.drive⟩

/-! ### Taking and answering (R195) -/

/-- An update of one port that keeps its bounds, its silence and its stream, and gives it no message and no live request when it is
SILENT. -/
theorem rules_updPort (s : State) (p : Port) (f : PortState → PortState)
    (hq : portQueuesOk (s.ports.get p) → portQueuesOk (f (s.ports.get p)))
    (hsil : (f (s.ports.get p)).silent = (s.ports.get p).silent)
    (hidle : silentIdle (s.ports.get p) → silentIdle (f (s.ports.get p)))
    (hst : (f (s.ports.get p)).stream = (s.ports.get p).stream) : Rules s (s.updPort p f) := by
  have key : ∀ q, (s.updPort p f).ports.get q = if q = p then f (s.ports.get p) else s.ports.get q := fun q =>
    PerPort.get_set ..
  refine ⟨fun h q => ?_, fun h => ⟨h.1, fun q => ?_⟩, fun h q => ?_, floorOk_congr rfl rfl rfl, id, id⟩
  · rw [key]; split
    · exact hq (h p)
    · exact h q
  · unfold silentHoldsNothing
    rw [key]; split
    · next e => subst e; exact ⟨hidle (h.2 q).1, fun k => (h.2 q).2 (hsil.symm.trans k)⟩
    · exact h.2 q
  · refine pinOk_congr (s := s) ?_ rfl rfl (h q)
    rw [key]; split
    · next e => rw [e]; exact hst
    · rfl

theorem replyMessages_bounds (m : InMsg) (parts : List (List Byte)) (k : Nat) :
    (replyMessages m parts k).length ≤ k ∧ (replyMessages m parts k).countP (fun m => m.cls == .push) = 0 := by
  refine ⟨by simp [replyMessages], List.countP_eq_zero.2 fun x hx => ?_⟩
  obtain ⟨b, _, rfl⟩ := List.mem_map.1 hx
  exact Bool.false_ne_true

/-- A reply of at most the entries that are free or reserved for it. -/
theorem queuesOk_reply {x : PortState} (m : InMsg) (parts : List (List Byte)) (k : Nat) (rest : List InMsg)
    (hi : rest.length ≤ x.inbound.length) (hk : x.outbound.length + x.reserved ≤ 32 → x.outbound.length + k ≤ 32)
    (h : portQueuesOk x) : portQueuesOk (queueReply m parts k { x with inbound := rest }) := by
  obtain ⟨a, b, c⟩ := h
  obtain ⟨hlen, hpush⟩ := replyMessages_bounds m parts k
  have hout := hk b
  refine ⟨hi.trans a, ?_, ?_⟩
  · have e : (x.outbound ++ replyMessages m parts k).length = x.outbound.length + (replyMessages m parts k).length := by simp
    show (x.outbound ++ replyMessages m parts k).length + 0 ≤ 32
    omega
  · show (x.outbound ++ replyMessages m parts k).countP _ ≤ 24
    rw [List.countP_append, hpush]
    exact c

theorem rules_queueReply (s : State) (p : Port) (m : InMsg) (parts : List (List Byte)) (k : Nat)
    (hk : k ≤ (s.ports.get p).reserved) : Rules s (s.updPort p (queueReply m parts k)) := by
  refine rules_updPort s p _ ?_ rfl (fun h e => ?_) rfl
  · exact queuesOk_reply m parts k _ (Nat.le_refl _) (fun b => by omega)
  · obtain ⟨a, b, _⟩ := h e
    exact ⟨a, b, by simp [queueReply]⟩

theorem replyNeed_pos (kind : Nat) : 1 ≤ replyNeed kind := by
  unfold replyNeed; split <;> decide

theorem rules_takeMessage (p : Port) (accepts : InMsg → Bool) (s : State) : Rules s (takeMessage p accepts s) := by
  unfold takeMessage
  split
  · exact Rules.refl s
  next m rest hin =>
  split
  · next hm =>
    have hroom : replyNeed m.kind.toNat ≤ 32 - ((s.ports.get p).outbound.length + (s.ports.get p).reserved) := by
      simp only [mayTake, Bool.and_eq_true, decide_eq_true_eq] at hm
      exact hm.2
    have hpos := replyNeed_pos m.kind.toNat
    have hlen : rest.length ≤ (s.ports.get p).inbound.length := by simp [hin]
    have hactive : silentIdle (s.ports.get p) → (s.ports.get p).silent = false := fun h => by
      cases e : (s.ports.get p).silent with
      | false => rfl
      | true => exact absurd (h e).1 (by simp [hin])
    cases hc : portCheck p m with
    | some rc =>
      refine rules_updPort s p _ ?_ ?_ ?_ ?_ <;> simp only [takeInto, hc]
      · exact queuesOk_reply m _ 1 rest hlen (fun b => by omega)
      · rfl
      · exact fun h e => absurd ((hactive h).symm.trans e) (by simp)
      · rfl
    | none =>
      refine rules_updPort s p _ ?_ ?_ ?_ ?_ <;> simp only [takeInto, hc]
      · rintro ⟨a, b, c⟩
        refine ⟨hlen.trans a, ?_, c⟩
        show (s.ports.get p).outbound.length + replyNeed m.kind.toNat ≤ 32
        omega
      · exact fun h e => absurd ((hactive h).symm.trans e) (by simp)
  · exact Rules.refl s

/-- An owner whose effect is sound for a port that is ACTIVE. -/
def OwnerSound (owner : Owner) : Prop :=
  ∀ p m s, (tokenOk s → (s.ports.get p).silent = false) → Sound s (owner p m s).1

theorem rules_answerHandled (p : Port) (accepts : InMsg → Bool) {owner : Owner} (ho : OwnerSound owner) (s : State) :
    Rules s (answerHandled p accepts owner s) := by
  unfold answerHandled
  split
  · exact Rules.refl s
  next h hh =>
  have hres : (s.ports.get p).reserved = h.reserved := by simp [PortState.reserved, hh]
  split
  · split
    · exact rules_queueReply s p _ _ _ hres.ge
    · next hc =>
      have hs : Sound s (owner p h.msg s).1 := by
        refine ho p h.msg s fun ht => ?_
        cases e : (s.ports.get p).silent with
        | false => rfl
        | true => exact absurd (((ht.2 p).1 e).2.2 h hh) hc
      exact hs.rules.trans (rules_queueReply _ p _ _ _ ((hs.reserved p).trans hres).ge)
  · exact Rules.refl s

theorem rules_request (g : Stage) (p : Port) (accepts : InMsg → Bool) {owner : Owner} (ho : OwnerSound owner) (s : State) :
    Rules s (request g p accepts owner s) := by
  cases g with
  | take => exact rules_takeMessage p accepts s
  | answer => exact rules_answerHandled p accepts ho s
  | whole =>
    simp only [request]
    split
    · exact Rules.refl s
    · exact (rules_takeMessage p accepts s).trans (rules_answerHandled p accepts ho _)

theorem ownerSound_withToken {owner : Owner} (ho : OwnerSound owner) : OwnerSound (withToken owner) := by
  intro p m s h
  unfold withToken
  split
  · exact ho p m s h
  · exact Sound.refl s

/-! ### The owners of the token and the carriage -/

/-- A reply with a code alone leaves the state it is given. -/
theorem code_fst (rc : Byte) (s : State) : (code rc s).1 = s := rfl

theorem mem_joinWaiting {p q : Port} {w : List Port} : q ∈ joinWaiting p w ↔ q ∈ w ∨ q = p := by
  unfold joinWaiting
  split
  · next h => exact ⟨.inl, fun k => k.elim id fun e => e ▸ h⟩
  split
  · simp [or_comm]
  · simp

theorem nodup_joinWaiting {p : Port} {w : List Port} (h : w.Nodup) : (joinWaiting p w).Nodup := by
  unfold joinWaiting
  split
  · exact h
  next hp =>
  split
  · exact List.nodup_cons.2 ⟨hp, h⟩
  · exact List.nodup_append.2 ⟨h, by simp, fun a ha b hb => by
      rintro rfl; exact hp (by simpa using (List.mem_singleton.1 hb) ▸ ha)⟩

/-- A change of the token alone, for a port that is ACTIVE. -/
theorem sound_withCta {s : State} {p : Port} {c : Cta} (ha : tokenOk s → (s.ports.get p).silent = false)
    (hw : waitingOk s.cta → waitingOk c)
    (hq : ∀ q, q ≠ p → (c.holder = some q → s.cta.holder = some q) ∧ (q ∈ c.waiting → q ∈ s.cta.waiting)) :
    Sound s (s.withCta c) := by
  refine ⟨id, fun h => ⟨hw h.1, fun q => ⟨(h.2 q).1, fun e => ?_⟩⟩, fun h q => h q, floorOk_congr rfl rfl rfl, id, id,
    fun _ => rfl⟩
  have hne : q ≠ p := fun k => absurd ((ha h).symm.trans (k ▸ e)) (by simp)
  obtain ⟨a, b, d⟩ := (h.2 q).2 e
  exact ⟨fun k => a ((hq q hne).1 k), fun k => b ((hq q hne).2 k), d⟩

theorem ownerSound_claim : OwnerSound ownClaim := by
  intro p m s ha
  unfold ownClaim
  split
  · next hfree =>
    refine sound_withCta ha (fun ⟨h1, _, _⟩ => ?_) fun q hq => ⟨fun e => absurd (Option.some.inj e).symm hq, id⟩
    have e := h1 hfree
    exact ⟨by simp, by simp [e], by simp [e]⟩
  next q hq =>
  split
  · exact Sound.refl s
  · next hne =>
    refine sound_withCta ha (fun ⟨_, h2, h3⟩ => ⟨by simp [hq], nodup_joinWaiting h2, fun r hr hm => ?_⟩) fun r hr =>
      ⟨id, fun e => (mem_joinWaiting.1 e).resolve_right hr⟩
    rcases mem_joinWaiting.1 hm with hm | rfl
    · exact h3 r hr hm
    · exact hne (Option.some.inj (hq.symm.trans hr))

theorem ownerSound_release : OwnerSound ownRelease := by
  intro p m s _
  unfold ownRelease
  split
  · exact (tame_leaveToken p false s).undriven (leaveToken_fields p false s).2.2.2.1
  split
  · exact (tame_eraseWaiting p s).undriven
  · exact Sound.refl s

theorem sound_flushOverride (s : State) : Sound s (flushOverride s) :=
  sound_ite (motion_takeOverride s).tame.settled (Sound.refl s)

theorem tame_actOnPlan (was : ScanPlan) (s : State) : Tame s (actOnPlan was s) := by
  unfold actOnPlan
  split
  · exact tame_nextMove s
  · exact tame_ite (motion_osqOccasion s).tame (tame_nextMove s)
  · exact tame_ite (motion_osqOccasion s).tame (tame_ite (motion_takeStd s).tame
      (((motion_abortTraverse s).tame.trans (tame_withCmu _ _)).trans (tame_nextMove _)))
  all_goals exact Tame.refl s

theorem tame_stagePlan (plan : ScanPlan) (s : State) : Tame s (stagePlan plan s) :=
  tame_ite ((steady_applyPlan plan s).tame.trans (tame_actOnPlan _ _)) .of_same

theorem ownerSound_setPlan : OwnerSound ownSetPlan := by
  intro p m s _
  unfold ownSetPlan
  split
  · exact Sound.refl s
  · exact (sound_flushOverride s).trans (tame_stagePlan _ _).settled

theorem sound_takeHold (s : State) : Sound s (takeHold s).1 := by
  unfold takeHold
  split
  · exact (tame_ite (Tame.refl s) ((tame_withCmu s _).trans (motion_checkCommandPoint _).tame)).settled
  · exact (tame_withCmu s _).undriven
  · exact (tame_withCmu s _).undriven
  all_goals exact Sound.refl s

theorem tame_resumeTraverse (h : Hold) (s : State) : Tame s (resumeTraverse h s) :=
  ((((tame_withCmu s _).trans (motion_setCarriage .traverse _).tame)).trans (motion_want _ _).tame).trans (tame_checkTarget _)

theorem tame_resumeTurn (h : Hold) (s : State) : Tame s (resumeTurn h s) :=
  (tame_withCmu s _).trans (motion_turnaround _).tame

theorem sound_takeResume (s : State) : Sound s (takeResume s).1 := by
  unfold takeResume
  split
  · exact (tame_ite (tame_resumeTurn .none s) (tame_resumeTraverse .none s)).settled
  · split
    · exact (tame_withCmu s _).undriven
    · exact Sound.refl s
  all_goals exact Sound.refl s

theorem sound_takeStep (s : State) : Sound s (takeStep s).1 := by
  unfold takeStep
  split
  · exact (tame_ite (tame_resumeTurn _ s) (tame_resumeTraverse _ s)).settled
  · exact Sound.refl s

theorem ownerSound_hold : OwnerSound ownHold := fun _ _ s _ => (sound_flushOverride s).trans (sound_takeHold _)
theorem ownerSound_step : OwnerSound ownStep := fun _ _ s _ => (sound_flushOverride s).trans (sound_takeStep _)
theorem ownerSound_resume : OwnerSound ownResume := fun _ _ s _ => (sound_flushOverride s).trans (sound_takeResume _)

theorem sound_recordRequest (s : State) : Sound s (recordRequest s) := by
  unfold recordRequest
  split
  · exact Sound.refl s
  split
  · exact (((tame_setDue s).trans (tame_withOsq _ _)).trans (motion_osqOccasion _).tame).settled
  all_goals exact (tame_withOsq s _).undriven

theorem ownerSound_standardize : OwnerSound ownStandardize :=
  fun _ _ s _ => (sound_flushOverride s).trans (sound_recordRequest _)

/-- FAULT CLEAR up to the next motion. -/
def faultCleared (s : State) : State :=
  overrideCleared s.override
    ((s.withCmu { s.cmu with skipCount := 0, faultCause := .none, motionFault := false }).returnAlarm ptMotionFault)

theorem clearFault_eq (s : State) : clearFault s =
    (if (faultCleared s).cmu.homed then nextMove (applyPendingPlan (faultCleared s))
      else enterHoming (faultCleared s)).settleDrive := rfl

theorem tame_faultCleared (s : State) : Tame s (faultCleared s) :=
  ((tame_withCmu s _).trans (tame_returnAlarm _ _)).trans (steady_overrideCleared _ _).tame

theorem sound_clearFault (s : State) : Sound s (clearFault s) :=
  have h := tame_faultCleared s
  (tame_ite (h.trans ((motion_applyPendingPlan _).trans (motion_nextMove _)).tame) (h.trans (tame_enterHoming _))).settled

theorem ownerSound_faultClear : OwnerSound ownFaultClear := by
  intro p m s _
  unfold ownFaultClear
  split
  · exact Sound.refl s
  split
  · exact Sound.refl s
  split
  · exact Sound.refl s
  · exact sound_clearFault s

theorem sound_setParkSource (s : State) : Sound s (setParkSource s) :=
  ((tame_withCmu s _).trans (motion_takeOverride _).tame).settled

theorem sound_clearParkSource (s : State) : Sound s (clearParkSource s) :=
  (sound_flushOverride s).trans ((tame_withCmu _ _).trans (steady_overrideCleared _ _).tame).settled

theorem ownerSound_park : OwnerSound ownPark := by
  intro p m s _
  unfold ownPark
  split
  · exact sound_clearParkSource s
  · exact sound_setParkSource s
  · exact Sound.refl s

/-! ### The owners of the machine and of the alarm table -/

theorem ownerSound_speed (o : OverrideOrder) : OwnerSound (ownSpeed o) := by
  intro p m s _
  unfold ownSpeed
  dsimp only
  split
  · exact Sound.refl s
  · exact ((tame_withMsm s { s.msm with speed := fieldAt m.payload 0 2 } (logOk_of_same rfl id)).trans
      (tame_compareSpeed ..)).settled

theorem ownerSound_declare (o : OverrideOrder) : OwnerSound (ownDeclare o) := by
  intro p m s _
  unfold ownDeclare
  split
  · unfold declareDown
    split
    · exact Sound.refl s
    all_goals exact (tame_changeState ..).settled
  · unfold declareThreading
    split
    · exact (tame_changeState ..).settled
    all_goals exact Sound.refl s
  · unfold declareSheetOn
    split
    · exact (tame_changeState ..).settled
    · exact (tame_changeState ..).settled
    all_goals exact Sound.refl s
  · unfold declareBreak
    split
    · exact Sound.refl s
    all_goals exact (tame_takeCause ..).settled
  · exact Sound.refl s

/-- R170: an accepted acknowledgement ends in an annunciation pass. -/
theorem ackPoint_some {x : AlarmCtx} {i : PointNo} {ap ap' : AltPorts} (h : ackPoint x i ap = some ap') :
    ∃ a, ap' = settleAlarms x (a, ap.2) := by
  unfold ackPoint at h
  dsimp only at h
  split at h
  · exact ⟨_, (Option.some.inj h).symm⟩
  · exact ⟨_, (Option.some.inj h).symm⟩
  · simp at h
  · simp at h

theorem ackedNotices_drive (p : Port) (pl : List Byte) (s : State) : (ackedNotices p pl s).drive = s.drive := by
  unfold ackedNotices
  induction allPorts.filter (fun q => q != p) generalizing s with
  | nil => rfl
  | cons q l ih => exact (ih _).trans rfl

theorem tame_ackBreak (i : PointNo) (p : Port) (s : State) : Tame s (ackBreak i p s) := by
  unfold ackBreak
  split
  · refine tame_withMsm s _ fun ⟨h1, h2, h3, h4⟩ => logOk_updNewest (recordOk_markAcked p) (fun r hr hs => ?_) h1 h2 h3
    rw [markAcked_isOpen]
    exact h4 hs r hr
  · exact Tame.refl s

theorem tame_acceptAck (p : Port) (i : PointNo) (a : Alt) (s : State) :
    Tame s (acceptAck p i (settleAlarms s.alarmCtx (a, s.ports)) s) := by
  have h : Tame s (s.withAlarms (settleAlarms s.alarmCtx (a, s.ports))) :=
    .of_noticed (settleAlarms_ports s.alarmCtx a s.ports) fun _ => floorOk_settled s _
  exact (h.trans (tame_ackBreak i p _)).trans (tame_foldl _ (fun s q => tame_notify s q _ _) _ _)

theorem ackBreak_drive (i : PointNo) (p : Port) (s : State) : (ackBreak i p s).drive = s.drive := by
  unfold ackBreak; split <;> rfl

theorem acceptAck_drive (p : Port) (i : PointNo) (ap : AltPorts) (s : State) : (acceptAck p i ap s).drive = s.drive :=
  (ackedNotices_drive _ _ _).trans (ackBreak_drive _ _ _)

theorem ownerSound_ackAlarm : OwnerSound ownAckAlarm := by
  intro p m s _
  unfold ownAckAlarm
  split
  · split
    · exact Sound.refl s
    · next h _ ap hap =>
      obtain ⟨a, rfl⟩ := ackPoint_some hap
      exact (tame_acceptAck p _ a s).undriven (acceptAck_drive ..)
  · exact Sound.refl s

/-! ### RESTART (R207) -/

/-- R175: after a restart no point holds the floor, and it is the ceiling. -/
theorem floorOk_restartAlt {s : State} {a : Alt} (h : s.alt = restartAlt s.rbs.common.ceiling a) : floorOk s := by
  have hf : s.alt.floor = s.rbs.common.ceiling := by rw [h]; rfl
  have hp : ∀ i : PointNo, (s.alt.points[i]).annunciated = false := fun i => by rw [h]; simp [restartAlt]
  refine ⟨hf.le, fun i hi => ?_, .inl hf⟩
  rw [AlarmPoint.holdsFloor, hp i] at hi
  exact absurd hi Bool.false_ne_true

/-- The blocks of a restart once the traverse and a standardization are aborted. -/
def restartCleared (s : State) : State :=
  { s with
    cmu := restartCmu s.cmu, hbc := restartHbc s.hbc, rbs := restartRbs s.rbs, ebm := ebmPowerOn, pen := restartPen s.pen
    azm := restartAzm s.azm, msm := restartMsm s.msm, alt := restartAlt s.rbs.common.ceiling s.alt, cta := ctaPowerOn
    ports := s.ports.map restartPort }

theorem restartBlocks_eq (s : State) :
    restartBlocks s = restartCleared (abortStdWith abandonUntilReset (abortTraverse s)) := by
  unfold restartBlocks
  generalize abortStdWith abandonUntilReset (abortTraverse s) = u
  simp [restartCleared, restartRbs]
  simp only [State.withCmu, State.withHbc, State.withRbs, State.withEbm, State.withPen, State.withAzm, State.withMsm,
    State.withAlt, State.withCta, State.withPorts]

theorem restartCleared_get (s : State) (p : Port) : (restartCleared s).ports.get p = restartPort (s.ports.get p) :=
  PerPort.get_map ..

theorem restartCleared_pins (s : State) (p : Port) : (restartCleared s).pen.pins.get p = none := by
  cases p <;> rfl

theorem tame_restartCleared (s : State) : Tame s (restartCleared s) := by
  refine ⟨fun h p => ?_, fun h => ⟨⟨fun _ => rfl, List.nodup_nil, fun _ e => by cases e⟩, fun p => ?_⟩, fun _ p => ?_,
    fun _ => floorOk_restartAlt (a := s.alt) rfl, logOk_of_same rfl (fun e => by cases e), id, fun p => ?_, rfl⟩
  · obtain ⟨a, b, _⟩ := h p
    rw [restartCleared_get]
    refine ⟨a, ?_, by simp [restartPort, PortState.pushes]⟩
    show 0 + (s.ports.get p).reserved ≤ 32
    omega
  · refine ⟨fun e => ?_, fun _ => ⟨by simp [restartCleared, ctaPowerOn], by simp [restartCleared, ctaPowerOn],
      restartCleared_pins s p⟩⟩
    rw [restartCleared_get] at e ⊢
    obtain ⟨a, _, c⟩ := (h.2 p).1 e
    exact ⟨a, rfl, c⟩
  · unfold pinOk
    rw [restartCleared_get]
    exact restartCleared_pins s p
  · rw [restartCleared_get]; rfl

theorem tame_reactivate (s : State) : Tame s (reactivate s) := by
  have h : Tame s (if s.cmu.state = .fault then s.activate ptMotionFault else s) :=
    tame_ite (tame_activate ..) (Tame.refl s)
  exact tame_ite ((h.trans (tame_withOsq _ _)).trans (tame_activate ..)) (h.trans (tame_withOsq _ _))

theorem tame_restarted (s : State) : Tame s (reactivate (restartBlocks s)) := by
  rw [restartBlocks_eq]
  exact ((((motion_abortTraverse s).tame.trans (tame_abortStdWith _ _)).trans (tame_restartCleared _))).trans
    (tame_reactivate _)

theorem ownerSound_restart : OwnerSound ownRestart := fun _ _ s _ =>
  (tame_ite ((tame_restarted s).trans (motion_goPark motion_nextMove _).tame) (tame_restarted s)).settled

theorem ownerSound_headRestart : OwnerSound ownHeadRestart := fun _ _ s _ => (tame_withHbc s _).undriven

/-! ### The owners that read -/

theorem ownerSound_identify : OwnerSound ownIdentify := fun _ _ s _ => Sound.refl s

theorem ownerSound_readState : OwnerSound ownReadState := fun p _ s _ =>
  (tame_updPort s p (fun x => { x with lost := 0 }) id rfl (fun _ h => h) rfl rfl).undriven

theorem ownerSound_setDescriptor : OwnerSound ownSetDescriptor := by
  intro p m s _
  unfold ownSetDescriptor
  split
  · exact Sound.refl s
  · next i d _ => exact (tame_updPort s p (fun x => { x with descriptors := x.descriptors.set i d }) id rfl (fun _ h => h) rfl rfl).undriven

theorem heldScan_some {p : Pen} {n : ScanNo} {g : Generation} (h : heldScan p n = some g) :
    g.scan = n ∧ ∃ i : Fin 3, p.slots[i] = some g := by
  obtain ⟨i, _, hi⟩ := List.exists_of_findSome?_eq_some h
  obtain ⟨a, ha, hg⟩ := Option.bind_eq_some_iff.1 hi
  split at hg
  · next e =>
    obtain rfl := Option.some.inj hg
    exact ⟨e, i, ha⟩
  · simp at hg

theorem resolve_inStore {p : Pen} {sel : GenSelect} {g : Generation} (h : resolve p sel = some g) : inStore p g.scan := by
  have held : ∃ n, heldScan p n = some g := by
    cases sel with
    | latest =>
      obtain ⟨n, _, hn⟩ := Option.bind_eq_some_iff.1 h
      exact ⟨n, hn⟩
    | byNumber n => exact ⟨n, h⟩
  obtain ⟨n, hn⟩ := held
  obtain ⟨_, i, hi⟩ := heldScan_some hn
  exact ⟨i, g, hi, rfl⟩

theorem sound_startStream (p : Port) (r : Stream) (s : State) (ha : tokenOk s → (s.ports.get p).silent = false)
    (hr : inStore s.pen r.scan) : Sound s (startStream p r s) := by
  have hget : (startStream p r s).ports.get p = { s.ports.get p with stream := .running r } := PerPort.get_set_same ..
  refine sound_stream p (fun q h => PerPort.get_set_ne _ _ h) (fun q h => PerPort.get_set_ne _ _ h) rfl ?_ ?_ ?_ ?_
  · rw [hget]; exact id
  · rw [hget]; exact ha
  · intro _
    unfold pinOk
    rw [hget]
    exact ⟨PerPort.get_set_same .., hr⟩
  · rw [hget]; rfl

theorem ownerSound_readProfile : OwnerSound ownReadProfile := by
  intro p m s ha
  unfold ownReadProfile
  split
  · exact Sound.refl s
  unfold openStream
  split
  · exact Sound.refl s
  split
  · exact Sound.refl s
  next g hg =>
  split
  · exact Sound.refl s
  · exact sound_startStream p _ s ha (resolve_inStore hg)

theorem ownerSound_readSummary : OwnerSound ownReadSummary := by
  intro p m s _
  unfold ownReadSummary
  split
  · exact Sound.refl s
  split <;> exact Sound.refl s

theorem ownerSound_readZones : OwnerSound ownReadZones := by
  intro p m s _
  unfold ownReadZones
  split
  · exact Sound.refl s
  split <;> exact Sound.refl s

theorem ownerSound_readFixed : OwnerSound ownReadFixed := by
  intro p m s _
  unfold ownReadFixed
  split <;> exact Sound.refl s

theorem ownerSound_readAlarms : OwnerSound ownReadAlarms := fun _ _ s _ => Sound.refl s
theorem ownerSound_readBreakLog : OwnerSound ownReadBreakLog := fun _ _ s _ => Sound.refl s

/-! ### The owners that write -/

theorem tame_withRbs (s : State) (x : Rbs) (h : x.common = s.rbs.common := by rfl) : Tame s (s.withRbs x) :=
  .of_same (hc := h)

theorem ownerSound_writeBank : OwnerSound ownWriteBank := by
  intro p m s _
  unfold ownWriteBank
  split
  · exact Sound.refl s
  split
  · exact Sound.refl s
  split
  · exact Sound.refl s
  · exact (tame_withRbs s _).undriven

theorem ownerSound_writeZoneMap : OwnerSound ownWriteZoneMap := by
  intro p m s _
  unfold ownWriteZoneMap
  split
  · exact Sound.refl s
  · exact (tame_withAzm s _).undriven
  · exact (tame_withAzm s _).undriven

theorem applyGrade_drive (k : BankNo) (s : State) : (applyGrade k s).drive = s.drive := by
  unfold applyGrade
  split
  · rfl
  · simp

theorem tame_gradeNotice (k : BankNo) (p : Port) (was : Option (BankNo × Port)) (s : State) :
    Tame s (gradeNotice k p was s) ∧ (gradeNotice k p was s).drive = s.drive := by
  unfold gradeNotice
  split
  · exact ⟨Tame.refl s, rfl⟩
  · exact ⟨tame_notify .., rfl⟩

theorem sound_pendGrade (k : BankNo) (p : Port) (s : State) : Sound s (pendGrade k p s) := by
  unfold pendGrade
  split
  · exact Sound.refl s
  · have h := tame_gradeNotice k p s.rbs.pending (s.withRbs { s.rbs with pending := some (k, p) })
    exact ((tame_withRbs s _).trans h.1).undriven h.2

theorem ownerSound_selectGrade : OwnerSound ownSelectGrade := by
  intro p m s _
  unfold ownSelectGrade
  split
  · exact Sound.refl s
  next k _ =>
  split
  · exact Sound.refl s
  split
  · have h := tame_gradeNotice k p s.rbs.pending (s.withRbs { s.rbs with pending := none })
    exact ((tame_withRbs s _).trans h.1).undriven h.2
  split
  · exact (motion_applyGrade _ s).tame.undriven (applyGrade_drive ..)
  · exact sound_pendGrade ..

/-! ### WRITE COMMON (R78 … R80) -/

theorem tame_silenceEffect (named : Bool) (s : State) : Tame s (silenceEffect named s) :=
  tame_ite (tame_foldl _ (fun _ p => tame_ite (tame_becomeSilent p _) (Tame.refl _)) _ s) (Tame.refl s)

theorem tame_overdueEffect (s : State) : Tame s (overdueEffect s) :=
  tame_ite ((tame_withOsq s _).trans (tame_activate ..))
    (tame_ite ((tame_withOsq s _).trans (tame_returnAlarm ..)) (Tame.refl s))

theorem tame_linesEffect (old : CommonBank) (was : MachineState) (s : State) : Tame s (linesEffect old was s) := by
  have h : Tame s (allLines.foldl (lineEffect old) s) :=
    tame_foldl _ (fun _ l => tame_ite (tame_takeCause ..) (Tame.refl _)) _ s
  exact tame_ite (Tame.refl s) (tame_ite (h.trans (tame_testLines _)) h)

theorem tame_crawlEffect (old : CommonBank) (s : State) : Tame s (crawlEffect old s) :=
  tame_ite (Tame.refl s) (tame_compareSpeed ..)

theorem tame_levelEffect (old : CommonBank) (s : State) : Tame s (levelEffect old s) :=
  tame_ite (Tame.refl s) (tame_relevel s)

/-- The floor rule reads the levels and the ceiling alone of the common bank. -/
theorem floorOk_withCommon {s : State} (x : Rbs) (hl : x.common.levels = s.rbs.common.levels)
    (hc : x.common.ceiling = s.rbs.common.ceiling) (h : floorOk s) : floorOk (s.withRbs x) := by
  unfold floorOk at h ⊢
  simp only [State.withRbs_rbs, State.withRbs_alt, hl, hc]
  exact h

/-- R173: after a write of levels or ceiling F is computed anew; without one it stands. -/
theorem floorOk_levelEffect (x : Rbs) (s : State) (h : floorOk s) :
    floorOk (levelEffect s.rbs.common (crawlEffect s.rbs.common (s.withRbs x))) := by
  have k := tame_crawlEffect s.rbs.common (s.withRbs x)
  have hc : (crawlEffect s.rbs.common (s.withRbs x)).rbs.common = x.common := k.common
  unfold levelEffect
  split
  · next e =>
    rw [hc] at e
    exact k.floor (floorOk_withCommon x e.1 e.2 h)
  · exact floorOk_relevel _

theorem sound_applyCommon (es : List (Nat × Nat)) (s : State) : Sound s (applyCommon es s) := by
  let x : Rbs := { s.rbs with common := writeEntries s.rbs.common es }
  have h1 : Tame (s.withRbs x) (levelEffect s.rbs.common (crawlEffect s.rbs.common (s.withRbs x))) :=
    (tame_crawlEffect ..).trans (tame_levelEffect ..)
  have h2 := ((tame_silenceEffect ((es.map Prod.fst).contains 41)
    (levelEffect s.rbs.common (crawlEffect s.rbs.common (s.withRbs x)))).trans (tame_overdueEffect _)).trans
    (tame_linesEffect s.rbs.common s.msm.state _)
  have k := (h1.trans h2).settled
  exact ⟨k.queues, k.token, k.pins, fun h => (h2.trans (tame_settleDrive _)).floor (floorOk_levelEffect x s h), k.log,
    k.drive, k.reserved⟩

theorem ownerSound_writeCommon : OwnerSound ownWriteCommon := by
  intro p m s _
  unfold ownWriteCommon
  dsimp only
  split
  · exact Sound.refl s
  split
  · exact Sound.refl s
  · exact sound_applyCommon _ s

/-! ### Reset and release -/

theorem reset_port (p : Port) : State.reset.ports.get p = portPowerOn := by cases p <;> rfl

theorem reset_pin (p : Port) : State.reset.pen.pins.get p = none := by cases p <;> rfl

theorem reset_absentFinished : absentFinished State.reset.hbc := fun _ _ _ h _ _ => by cases h

theorem reset_tokenOk : tokenOk State.reset := by
  refine ⟨⟨fun _ => rfl, List.nodup_nil, fun _ h => by cases h⟩, fun p => ⟨?_, fun _ => ⟨?_, ?_, reset_pin p⟩⟩⟩
  · rw [reset_port]; exact fun _ => ⟨rfl, rfl, fun h hh => by cases hh⟩
  · simp [State.reset, ctaPowerOn]
  · simp [State.reset, ctaPowerOn]

theorem reset_logOk : logOk State.reset.msm := by
  have e : State.reset.msm.log = [] := rfl
  simp [logOk, e]

theorem reset_carriageOk : carriageOk State.reset :=
  ⟨⟨by decide, by decide, by decide⟩, ⟨by decide, by decide, by decide, by decide, by decide, reset_absentFinished⟩,
    ⟨by decide, by decide, by decide⟩, by unfold faultOk; decide⟩

/-- Settles O2, by the power-on value of each block. -/
theorem invariantsHoldAtReset : Obligations.InvariantsHoldAtReset := by
  refine ⟨fun p => ?_, reset_tokenOk, fun p => ?_, floorOk_of_eq (by decide), reset_logOk, reset_carriageOk,
    ⟨by decide, by decide, by decide, by decide⟩⟩
  · rw [reset_port]; exact ⟨by decide, by decide, by decide⟩
  · unfold pinOk
    rw [reset_port]
    exact reset_pin p

theorem rules_powerOnReset (s : State) : Rules s (powerOnReset s) := by
  obtain ⟨hq, ht, hp, hf, hl, _, hd⟩ := invariantsHoldAtReset
  exact ⟨fun _ => hq, fun _ => ht, fun _ => hp, fun _ => hf, fun _ => hl, fun _ => hd⟩

theorem rules_rstConfirmed (s : State) : Rules s ((powerOnReset s).withRst (confirmLine 3 true s.rst)) :=
  (rules_powerOnReset s).trans ⟨id, id, id, id, id, id⟩

theorem rules_dueAtRelease (s : State) : Rules s (dueAtRelease s) := by
  unfold dueAtRelease setDue
  split
  · split
    · exact Rules.refl s
    · exact (tame_withOsq s _).undriven.rules
  · exact Rules.refl s

theorem rules_release (rate1 rate0 : Bool) (s : State) : Rules s (release rate1 rate0 s) := by
  have h : Rules s { s with held := false, rst := confirmLine 3 false s.rst, rate := rateOf rate1 rate0 } :=
    ⟨id, id, id, id, id, id⟩
  exact (h.trans (rules_dueAtRelease _)).trans (sound_beginCycle _).rules

/-! ### Every command -/

/-- A command of a part that is not held. -/
theorem rules_whenReleased {f : State → State} (hf : ∀ s, Rules s (f s)) {s t : State}
    (h : whenReleased s f = .next t) : Rules s t := by
  unfold whenReleased at h
  simp only [Host.Outcome.next.injEq] at h
  subst h
  split
  · exact Rules.refl s
  · exact hf s

/-- A row of the request table. -/
theorem rules_row {owner : Owner} (ho : OwnerSound owner) {g : Stage} {p : Port} {accepts : InMsg → Bool} {s t : State}
    (h : whenReleased s (request g p accepts owner) = .next t) : Rules s t :=
  rules_whenReleased (rules_request g p accepts ho) h

theorem sound_cycleRecordFormed (s : State) : Sound s (cycleRecordFormed s) :=
  sound_ite ((tame_withScv s _).trans (tame_withHbc _ _)).undriven (Sound.refl s)

theorem rules_exec {c : Instr} {s t : State} (h : exec c s = .next t) : Rules s t := by
  cases c with
  | powerOn => cases h; exact rules_powerOnReset s
  | rstConfirmed => cases h; exact rules_rstConfirmed s
  | rstRelease a b =>
    cases h
    split
    · exact rules_release a b s
    · exact Rules.refl s
  | encoderCount d => exact rules_whenReleased (fun u => (sound_encoderCount d u).rules) h
  | encoderSkip => exact rules_whenReleased (fun u => (sound_encoderSkip u).rules) h
  | driveWordRepeat => exact rules_whenReleased (fun u => (sound_driveWordRepeat u).rules) h
  | dwellEnd => exact rules_whenReleased (fun u => (sound_dwellEnd u).rules) h
  | stallTimeout => exact rules_whenReleased (fun u => (sound_stallTimeout u).rules) h
  | drvfltConfirmed a => exact rules_whenReleased (fun u => (sound_drvfltConfirmed a u).rules) h
  | homeConfirmed a => exact rules_whenReleased (fun u => (sound_homeConfirmed a u).rules) h
  | cycleStart => exact rules_whenReleased (fun u => ((sound_tick u).trans (sound_beginCycle _)).rules) h
  | uplinkSample ch w => exact rules_whenReleased (fun u => (sound_uplinkSlot ch w u).rules) h
  | missingRunLimit ch w => exact rules_whenReleased (fun u => (sound_losingSlot _ ch w u).rules) h
  | ackWindowExpiry ch w => exact rules_whenReleased (fun u => (sound_losingSlot _ ch w u).rules) h
  | doneDeadline ch w => exact rules_whenReleased (fun u => (sound_losingSlot _ ch w u).rules) h
  | answerWindowExpiry ch w => exact rules_whenReleased (fun u => (sound_losingSlot _ ch w u).rules) h
  | cycleRecordFormed => exact rules_whenReleased (fun u => (sound_cycleRecordFormed u).rules) h
  | penTakeRecord => exact rules_whenReleased (fun u => (sound_penTakeRecord u).rules) h
  | fixedPeriodComplete => exact rules_whenReleased (fun u => (sound_fixedPeriodComplete u).rules) h
  | ebmWatchRecord => exact rules_whenReleased (fun u => (sound_ebmTakeRecord u).rules) h
  | edgeGapLimit => exact rules_whenReleased (fun u => (sound_edgeGapLimit u).rules) h
  | msmTakeRecord o => exact rules_whenReleased (fun u => (sound_msmTakeRecord o u).rules) h
  | sheetLost o => exact rules_whenReleased (fun u => (sound_sheetLost o u).rules) h
  | sheetRunGapLimit => exact rules_whenReleased (fun u => (sound_sheetRunGapLimit u).rules) h
  | settleExpiry => exact rules_whenReleased (fun u => (sound_settleExpiry u).rules) h
  | overdueExpiry => exact rules_whenReleased (fun u => (sound_overdueExpiry u).rules) h
  | breakLineConfirmed l b o => exact rules_whenReleased (fun u => (sound_breakLineConfirmed l b o u).rules) h
  | messageReceived p cs => exact rules_whenReleased (fun u => (sound_messageReceived p cs u).rules) h
  | badMessage p cs => exact rules_whenReleased (fun u => (sound_badMessage p cs u).rules) h
  | intercharTimeout p => exact rules_whenReleased (fun u => (sound_intercharTimeout p u).rules) h
  | portSilent p => exact rules_whenReleased (fun u => (sound_portSilent p u).rules) h
  | messageSent p => exact rules_whenReleased (fun u => (sound_messageSent p u).rules) h
  | readChunk p => exact rules_whenReleased (fun u => (sound_readChunk p u).rules) h
  | supersededChunk p => exact rules_whenReleased (fun u => (sound_supersededChunk p u).rules) h
  | unknownKind p => exact rules_whenReleased (fun u => rules_takeMessage p _ u) h
  | identify p g => exact rules_row ownerSound_identify h
  | readState p g => exact rules_row ownerSound_readState h
  | readProfile p g => exact rules_row ownerSound_readProfile h
  | readSummary p g => exact rules_row ownerSound_readSummary h
  | readZones p g => exact rules_row ownerSound_readZones h
  | readFixed p g => exact rules_row ownerSound_readFixed h
  | readAlarms p g => exact rules_row ownerSound_readAlarms h
  | readBreakLog p g => exact rules_row ownerSound_readBreakLog h
  | writeBank p g => exact rules_row ownerSound_writeBank h
  | writeCommon p g => exact rules_row (ownerSound_withToken ownerSound_writeCommon) h
  | selectGrade p g => exact rules_row ownerSound_selectGrade h
  | writeZoneMap p g => exact rules_row ownerSound_writeZoneMap h
  | claim p g => exact rules_row ownerSound_claim h
  | release p g => exact rules_row ownerSound_release h
  | setPlan p g => exact rules_row (ownerSound_withToken ownerSound_setPlan) h
  | hold p g => exact rules_row (ownerSound_withToken ownerSound_hold) h
  | step p g => exact rules_row (ownerSound_withToken ownerSound_step) h
  | resume p g => exact rules_row (ownerSound_withToken ownerSound_resume) h
  | standardize p g => exact rules_row (ownerSound_withToken ownerSound_standardize) h
  | faultClear p g => exact rules_row ownerSound_faultClear h
  | speed p g o => exact rules_row (ownerSound_speed o) h
  | declareDown p g o => exact rules_row (ownerSound_declare o) h
  | declareThreading p g => exact rules_row (ownerSound_declare _) h
  | declareSheetOn p g => exact rules_row (ownerSound_declare _) h
  | declareBreak p g o => exact rules_row (ownerSound_declare o) h
  | parkSet p g => exact rules_row ownerSound_park h
  | parkClear p g => exact rules_row ownerSound_park h
  | ackAlarm p g => exact rules_row ownerSound_ackAlarm h
  | setDescriptor p g => exact rules_row ownerSound_setDescriptor h
  | restart p g => exact rules_row ownerSound_restart h
  | headRestart p g => exact rules_row ownerSound_headRestart h
  | characterReceived p c => exact rules_whenReleased (fun u => (sound_characterReceived p c u).rules) h

/-- Settles O54, by the rules every command keeps. -/
theorem everyStepKeepsTheQueueBounds : Obligations.EveryStepKeepsTheQueueBounds :=
  kept_of_exec (fun _ _ h => h) fun _ _ _ hs h => (rules_exec h).queues hs

/-- Settles O55, by the rules every command keeps. -/
theorem everyStepKeepsTheTokenRules : Obligations.EveryStepKeepsTheTokenRules :=
  kept_of_exec (fun _ _ h => h) fun _ _ _ hs h => (rules_exec h).token hs

/-- Settles O56, by the rules every command keeps. -/
theorem everyStepKeepsPinsOnStoredScans : Obligations.EveryStepKeepsPinsOnStoredScans :=
  kept_of_exec (fun _ _ h => h) fun _ _ _ hs h => (rules_exec h).pins hs

/-- Settles O57, by the rules every command keeps: every event of the alarm table ends in `settleAlarms`. -/
theorem everyStepKeepsTheAnnunciationFloor : Obligations.EveryStepKeepsTheAnnunciationFloor :=
  kept_of_exec (fun _ _ h => h) fun _ _ _ hs h => (rules_exec h).floor hs

/-- Settles O58, by the rules every command keeps. -/
theorem everyStepKeepsTheBreakLog : Obligations.EveryStepKeepsTheBreakLog :=
  kept_of_exec (fun _ _ h => h) fun _ _ _ hs h => (rules_exec h).log hs

/-- Settles O60, by the rules every command keeps: an event that gives a command ends in `settleDrive`. -/
theorem everyStepKeepsTheDriveRules : Obligations.EveryStepKeepsTheDriveRules :=
  kept_of_exec (fun _ _ h => h) fun _ _ _ hs h => (rules_exec h).drive hs

end Sys2Proof.Machine
end

section
/-! PROOFS. The carriage state and the blocks that follow it (R9, R20, R48, R53, R91, R107, R128): what the rule reads, as one record,
and the moves of the carriage on it. -/

namespace Sys2Proof.Machine

open Safety

/-! ### What the rule reads -/

/-- What the agreement of the blocks with the carriage reads of a state, but for the monitor's own state, the scan count and the
sequence in flight, which no move of the carriage changes. -/
structure View where
  carriage : CarriageState
  turnOwed : Bool
  untaken : Bool
  parkSource : Bool
  motionFault : Bool
  source : Bool
  step : OsqStep
  settle : Bool
  window : Bool
  watch : Bool
  period : Bool

def State.view (s : State) : View where
  carriage := s.cmu.state
  turnOwed := s.cmu.turnOwed
  untaken := s.cmu.overrideUntaken
  parkSource := s.cmu.parkSource
  motionFault := s.cmu.motionFault
  source := s.msm.source
  step := s.osq.step
  settle := s.osq.settle.isSome
  window := s.pen.window.isSome
  watch := s.ebm.watch.opened
  period := s.pen.period.isSome

def View.inTraverse (v : View) : Bool := v.carriage == .traverse || (v.carriage == .held && !v.turnOwed)

def View.override (v : View) : Bool := v.source || v.parkSource || v.motionFault

/-- The sequencer, the window, the watch, the period and the motion-fault source agree with the carriage state. -/
structure View.Agrees (v : View) : Prop where
  travel : v.step = .travel ↔ v.carriage = .toStd
  stands : (v.step = .settle ∨ v.step = .reference ∨ v.step = .fetch) ↔ v.carriage = .atStd
  settle : v.settle = true ↔ v.step = .settle
  commit : v.step ≠ .commit
  window : v.window = true ↔ v.inTraverse = true
  watch : v.watch = true ↔ v.inTraverse = true
  period : v.period = true ↔ v.carriage = .fixed
  fault : v.motionFault = true ↔ v.carriage = .fault

/-- Park override is taken, or waits for encoder counts on the monitor's account. -/
structure View.Heeded (v : View) : Prop where
  waits : v.untaken = true → v.source = true
  taken : v.override = true → v.untaken = false → overrideMoves v.carriage = false

/-- The blocks agree with the carriage, and park override is heeded. -/
abbrev View.Good (v : View) : Prop := v.Agrees ∧ v.Heeded

/-- A carriage about to choose its motion: no standardization, traverse or fault in progress. -/
structure View.Loose (v : View) : Prop where
  step : v.step = .idle
  settle : v.settle = false
  window : v.window = false
  watch : v.watch = false
  period : v.carriage ≠ .fixed → v.period = false
  fault : v.motionFault = false
  waits : v.untaken = true → v.source = true

/-- R153: the monitor's source is set exactly in DOWN and BREAK. -/
def sourceOk (m : Msm) : Prop := m.source = true ↔ (m.state = .down ∨ m.state = .brk)

/-- The rule by its parts. -/
structure Steered (s : State) : Prop where
  source : sourceOk s.msm
  scans : s.osq.scanCount ≤ 255
  absent : absentFinished s.hbc
  view : s.view.Good

/-- The agreement of the blocks with the carriage, by what it reads. -/
theorem carriageOk_iff (s : State) : carriageOk s ↔ Steered s := by
  constructor
  · rintro ⟨⟨h1, h2, h3⟩, ⟨k1, k2, k3, k4, k5, k6⟩, ⟨l1, l2, l3⟩, h4⟩
    exact ⟨h1, k5, k6, ⟨k1, k2, k3, k4, l1, l2, l3, h4⟩, ⟨h2, h3⟩⟩
  · rintro ⟨h1, k5, k6, ⟨k1, k2, k3, k4, l1, l2, l3, h4⟩, ⟨h2, h3⟩⟩
    exact ⟨⟨h1, h2, h3⟩, ⟨k1, k2, k3, k4, k5, k6⟩, ⟨l1, l2, l3⟩, h4⟩

/-- A move of the carriage that ends with the blocks in agreement. -/
theorem steered_of_steady {s t : State} (h : Steady s t) (hs : Steered s) (hg : t.view.Good) : Steered t :=
  ⟨h.msm ▸ hs.source, h.scanCount ▸ hs.scans, h.hbc ▸ hs.absent, hg⟩

/-- In a carriage state that is none of the standardization's the sequencer is idle. -/
theorem View.Agrees.idle {v : View} (h : v.Agrees) (h1 : v.carriage ≠ .toStd) (h2 : v.carriage ≠ .atStd) :
    v.step = .idle ∧ v.settle = false := by
  have hs : v.step = .idle := by
    cases e : v.step with
    | idle => rfl
    | travel => exact absurd (h.travel.1 e) h1
    | settle => exact absurd (h.stands.1 (.inl e)) h2
    | reference => exact absurd (h.stands.1 (.inr (.inl e))) h2
    | fetch => exact absurd (h.stands.1 (.inr (.inr e))) h2
    | commit => exact absurd e h.commit
  refine ⟨hs, ?_⟩
  cases e : v.settle with
  | false => rfl
  | true => simpa [hs] using h.settle.1 e

/-- A carriage at none of the standardization, the traverse and FAULT may choose its motion. -/
theorem View.Agrees.loose {v : View} (h : v.Agrees) (hw : v.untaken = true → v.source = true) (h1 : v.carriage ≠ .toStd)
    (h2 : v.carriage ≠ .atStd) (h3 : v.inTraverse = false) (h4 : v.carriage ≠ .fault) : v.Loose := by
  obtain ⟨hstep, hsettle⟩ := h.idle h1 h2
  refine ⟨hstep, hsettle, ?_, ?_, fun k => ?_, ?_, hw⟩
  · exact Bool.eq_false_iff.2 fun e => by simpa [h3] using h.window.1 e
  · exact Bool.eq_false_iff.2 fun e => by simpa [h3] using h.watch.1 e
  · exact Bool.eq_false_iff.2 fun e => k (h.period.1 e)
  · exact Bool.eq_false_iff.2 fun e => h4 (h.fault.1 e)

/-- A carriage that rests or travels outside standardization, traverse and FAULT, with nothing in progress, agrees. -/
theorem View.Loose.agrees {v : View} (h : v.Loose) (h1 : v.carriage ≠ .toStd) (h2 : v.carriage ≠ .atStd)
    (h3 : v.inTraverse = false) (h4 : v.carriage ≠ .fault) (h5 : v.period = true ↔ v.carriage = .fixed) : v.Agrees := by
  refine ⟨?_, ?_, ?_, ?_, ?_, ?_, h5, ?_⟩ <;> simp [h.step, h.settle, h.window, h.watch, h.fault, h1, h2, h3, h4]

/-- The carriage enters a state; the fixed-point period follows it (R128). -/
def View.enter (st : CarriageState) (v : View) : View :=
  { v with
    carriage := st
    period := if st = .fixed then (if v.carriage = .fixed then v.period else true) else if v.carriage = .fixed then false
      else v.period }

/-! ### What each effect makes of it -/

theorem isSome_periodAfter (old new : CarriageState) (p : Option FixedPeriod) : (periodAfter old new p).isSome =
    if new = .fixed then (if old = .fixed then p.isSome else true) else if old = .fixed then false else p.isSome := by
  unfold periodAfter
  by_cases h : new = .fixed <;> by_cases k : old = .fixed <;> simp [h, k]

theorem view_setCarriage (st : CarriageState) (s : State) : (setCarriage st s).view = s.view.enter st := by
  have hp : (setCarriage st s).view.period = (s.view.enter st).period := isSome_periodAfter ..
  show View.mk st _ _ _ _ _ _ _ _ _ (setCarriage st s).view.period = _
  rw [hp]
  rfl

theorem view_travel (st : CarriageState) (x : Int) (d : Dir) (a : Approach) (n : Nat) (s : State) :
    (travel st x d a n s).view = s.view.enter st := view_setCarriage st s

theorem view_enterTurning (d : Dir) (s : State) : (enterTurning d s).view = s.view.enter .turning :=
  view_setCarriage .turning s

theorem view_comeToRest (st : CarriageState) (s : State) : (comeToRest st s).view = s.view.enter st := view_setCarriage st s

theorem view_arriveStd (s : State) :
    (arriveStd s).view = { s.view.enter .atStd with step := .settle, settle := true } :=
  congrArg (fun v : View => { v with step := .settle, settle := true }) (view_setCarriage .atStd s)

theorem view_openStd (s : State) :
    (openStd s).view = { s.view with turnOwed := false, untaken := false, step := .travel } := by
  obtain ⟨h, e, _, _⟩ := dropArmed_fields s.cmu
  simp only [State.view, openStd, e]
  rfl

theorem view_abortTraverse (s : State) : (abortTraverse s).view =
    if s.view.inTraverse then { s.view with window := false, watch := false } else s.view := by
  unfold abortTraverse
  have e : s.view.inTraverse = s.cmu.inTraverse := rfl
  rw [e]
  split <;> rfl

theorem view_returnAlarms (is : List PointNo) (s : State) : (s.returnAlarms is).view = s.view := by
  simp [State.view]

/-- An update of the PEN that leaves the window and the period open or closed as they are. -/
theorem view_withPen (s : State) (x : Pen) (hw : x.window.isSome = s.pen.window.isSome)
    (hp : x.period.isSome = s.pen.period.isSome) : (s.withPen x).view = s.view := by
  unfold State.view
  simp only [State.withPen_cmu, State.withPen_msm, State.withPen_osq, State.withPen_ebm, State.withPen_pen, hw, hp]

theorem view_applyGrade (k : BankNo) (s : State) : (applyGrade k s).view = s.view := by
  unfold applyGrade
  split
  · rfl
  · rw [view_returnAlarms]
    refine (view_withPen _ _ (by rfl) ?_).trans rfl
    dsimp only
    split
    · exact Option.isSome_map
    · rfl

theorem view_applyPendingGrade (s : State) : (applyPendingGrade s).view = s.view := by
  unfold applyPendingGrade
  split
  · rfl
  · exact (view_applyGrade _ _).trans rfl

theorem view_setDue (s : State) : (setDue s).view = s.view := by
  unfold setDue; split <;> rfl

theorem view_intervalCheck (s : State) : (intervalCheck s).view = s.view := by
  unfold intervalCheck
  split
  · exact view_setDue s
  · rfl

theorem view_applyPlan (p : ScanPlan) (s : State) : (applyPlan p s).view = s.view := (view_intervalCheck _).trans rfl

theorem view_applyPendingPlan (s : State) : (applyPendingPlan s).view = s.view := by
  unfold applyPendingPlan
  split
  · rfl
  · exact view_applyPlan _ s

theorem view_computeLimits (s : State) : (computeLimits s).view = s.view := rfl
theorem view_want (v : Int) (s : State) : (want v s).view = s.view := rfl
theorem view_settleDrive (s : State) : s.settleDrive.view = s.view := rfl
theorem view_activate (s : State) (i : PointNo) : (s.activate i).view = s.view := rfl
theorem view_returnAlarm (s : State) (i : PointNo) : (s.returnAlarm i).view = s.view := rfl

theorem view_setAlarm (s : State) (i : PointNo) (on : Bool) : (s.setAlarm i on).view = s.view := by
  unfold State.setAlarm; split <;> rfl

/-- R14: the carriage is sent TO_LIMIT or turns. -/
theorem view_goLimit (s : State) :
    (goLimit s).view = s.view.enter .toLimit ∨ (goLimit s).view = s.view.enter .turning := by
  simp only [goLimit]
  split
  · exact .inl (view_travel ..)
  split
  · exact .inl (view_travel ..)
  split
  · exact .inr (view_enterTurning ..)
  split
  · exact .inr (view_enterTurning ..)
  split
  · exact .inl (view_travel ..)
  · exact .inl (view_travel ..)

/-! ### A standardization begins (R47) -/

/-- The blocks agree with a carriage sent TO_STD, or AT_STD, with nothing else in progress. -/
theorem View.agrees_std {v : View} (h : v.step = .travel ∧ v.carriage = .toStd ∧ v.settle = false ∨
      v.step = .settle ∧ v.carriage = .atStd ∧ v.settle = true) (hw : v.window = false) (hx : v.watch = false)
    (hp : v.period = false) (hf : v.motionFault = false) : v.Agrees := by
  rcases h with ⟨h1, h2, h3⟩ | ⟨h1, h2, h3⟩
  · constructor <;> simp [View.inTraverse, h1, h2, h3, hw, hx, hp, hf]
  · constructor <;> simp [View.inTraverse, h1, h2, h3, hw, hx, hp, hf]

/-- A standardization taken heeds park override: its carriage states are none that park override sends on, and none waits. -/
theorem View.heeded_std {v : View} (h : v.carriage = .toStd ∨ v.carriage = .atStd) (hu : v.untaken = false) : v.Heeded := by
  refine ⟨fun e => by simp [hu] at e, fun _ _ => ?_⟩
  rcases h with h | h <;> rw [h] <;> rfl

/-- A carriage entering a state other than FIXED has no fixed-point period. -/
theorem View.Loose.period_enter {v : View} (h : v.Loose) {st : CarriageState} (hst : st ≠ .fixed) :
    (v.enter st).period = false := by
  by_cases hc : v.carriage = .fixed
  · simp [View.enter, hst, hc]
  · simp [View.enter, hst, hc, h.period hc]

/-- Entering a state leaves a carriage free to choose its motion. -/
theorem View.Loose.enter {v : View} (h : v.Loose) (st : CarriageState) : (v.enter st).Loose :=
  ⟨h.step, h.settle, h.window, h.watch, fun k => h.period_enter k, h.fault, h.waits⟩

/-- R47: a standardization begun by a carriage with nothing in progress. -/
theorem good_beginStd {s : State} (h : s.view.Loose) : (beginStd s).view.Good := by
  have ho := view_openStd s
  have hl : ∀ v : View, v = { s.view with turnOwed := false, untaken := false, step := .travel } → ∀ st, st ≠ .fixed →
      (v.enter st).period = false := fun v e st hst => by rw [e]; exact h.period_enter hst
  unfold beginStd goStd
  dsimp only
  split
  · rw [view_arriveStd, view_travel, ho]
    refine ⟨View.agrees_std (.inr ⟨rfl, rfl, rfl⟩) h.window h.watch ?_ h.fault, View.heeded_std (.inr rfl) rfl⟩
    simpa [View.enter] using h.period
  · rw [view_travel, ho]
    refine ⟨View.agrees_std (.inl ⟨rfl, rfl, h.settle⟩) h.window h.watch ?_ h.fault, View.heeded_std (.inl rfl) rfl⟩
    simpa [View.enter] using h.period

/-- An abort clears the window and the watch of a traverse in progress; with none in progress there is none to clear. -/
theorem View.Agrees.loose_abort {s : State} (h : s.view.Agrees) (hw : s.view.untaken = true → s.view.source = true)
    (h1 : s.cmu.state ≠ .toStd) (h2 : s.cmu.state ≠ .atStd) (h4 : s.cmu.state ≠ .fault) :
    (abortTraverse s).view.Loose := by
  rw [view_abortTraverse]
  obtain ⟨hstep, hsettle⟩ := h.idle h1 h2
  have hf : s.view.motionFault = false := Bool.eq_false_iff.2 fun e => h4 (h.fault.1 e)
  have hp : s.view.carriage ≠ .fixed → s.view.period = false := fun k => Bool.eq_false_iff.2 fun e => k (h.period.1 e)
  split
  · exact ⟨hstep, hsettle, rfl, rfl, hp, hf, hw⟩
  · next k => exact h.loose hw h1 h2 (by simpa using k) h4

/-- Where a carriage has nothing in progress an abort changes nothing of the window and the watch. -/
theorem View.Loose.abort {s : State} (h : s.view.Loose) : (abortTraverse s).view.Loose := by
  rw [view_abortTraverse]
  split
  · exact ⟨h.step, h.settle, rfl, rfl, h.period, h.fault, h.waits⟩
  · exact h

theorem good_takeStd {s : State} (h : (abortTraverse s).view.Loose) :
    (takeStd s).view.Good := good_beginStd h

/-! ### The choice of motion (R13) -/

/-- The carriage states a carriage travels or rests in outside standardization, traverse and FAULT. -/
def plainState : CarriageState → Bool
  | .toStd | .atStd | .traverse | .held | .fault => false
  | _ => true

/-- A carriage with nothing in progress agrees with its blocks where it goes. -/
theorem View.Loose.agrees_enter {v : View} (h : v.Loose) {st : CarriageState} (hst : plainState st = true)
    (hf : st = .fixed → v.carriage ≠ .fixed) : (v.enter st).Agrees := by
  refine (h.enter st).agrees ?_ ?_ ?_ ?_ ?_
  · rintro rfl; cases hst
  · rintro rfl; cases hst
  · cases st <;> simp_all [View.inTraverse, View.enter, plainState]
  · rintro rfl; cases hst
  · by_cases k : st = .fixed
    · simp [View.enter, k, hf k]
    · rw [h.period_enter k]; simp [View.enter, k]

/-- Park override is heeded in a state it sends nowhere. -/
theorem View.Loose.heeded {v : View} (h : v.Loose) (hm : overrideMoves v.carriage = false) : v.Heeded :=
  ⟨h.waits, fun _ _ => hm⟩

/-- Where no park override is taken it moves nothing. -/
theorem View.Loose.heeded_free {v : View} (h : v.Loose) (hm : v.override = true → v.untaken = true) : v.Heeded :=
  ⟨h.waits, fun a b => absurd ((hm a).symm.trans b) (by simp)⟩

/-- A choice of motion that ends in agreement from a carriage with nothing in progress, when it makes no choice at all or has
nothing to do. -/
def GoodNext (next : State → State) : Prop :=
  ∀ s : State, s.view.Loose → s.view.Good → (next s).view.Good

theorem good_arriveParked {next : State → State} (hn : GoodNext next) {s : State} (h : s.view.Loose)
    : (arriveParked next s).view.Good := by
  have e : (applyPendingPlan (applyPendingGrade (comeToRest .parked s))).view = s.view.enter .parked := by
    rw [view_applyPendingPlan, view_applyPendingGrade, view_comeToRest]
  have hl := h.enter .parked
  exact hn _ (e ▸ hl) (e ▸ ⟨h.agrees_enter rfl (by simp), hl.heeded rfl⟩)

theorem good_goPark {next : State → State} (hn : GoodNext next) {s : State} (h : s.view.Loose) :
    (goPark next s).view.Good := by
  unfold goPark
  split
  · next hc =>
    have hc' : s.view.carriage = .parked := hc
    refine ⟨h.agrees ?_ ?_ ?_ ?_ ?_, h.heeded ?_⟩
    all_goals simp [hc', View.inTraverse, overrideMoves, h.period]
  · have hl : (travel .toPark s.rbs.common.parkPos (toward s.cmu.position s.rbs.common.parkPos) .outside
        s.rbs.common.maxSpeed s).view.Loose := by rw [view_travel]; exact h.enter _
    dsimp only
    split
    · exact good_arriveParked hn hl
    · rw [view_travel]
      exact ⟨h.agrees_enter rfl (by simp), (h.enter _).heeded rfl⟩

/-- R15: an arrival at FIXED, where no park override is taken. -/
theorem good_arriveFixed {next : State → State} (hn : GoodNext next) {s : State} (h : s.view.Loose)
    (hc : s.cmu.state ≠ .fixed) (ho : s.view.override = true → s.view.untaken = true) :
    (arriveFixed next s).view.Good := by
  have e : (applyPendingPlan (applyPendingGrade (comeToRest .fixed s))).view = s.view.enter .fixed := by
    rw [view_applyPendingPlan, view_applyPendingGrade, view_comeToRest]
  have hl := e ▸ h.enter .fixed
  have ha := e ▸ h.agrees_enter (st := .fixed) rfl fun _ => hc
  have hh := e ▸ (h.enter .fixed).heeded_free ho
  unfold arriveFixed
  dsimp only
  split
  · exact good_takeStd hl.abort
  split
  · exact ⟨ha, hh⟩
  · exact hn _ hl ⟨ha, hh⟩

theorem good_goFixed {next : State → State} (hn : GoodNext next) {s : State} (h : s.view.Loose)
    (ho : s.view.override = true → s.view.untaken = true) :
    (goFixed next s).view.Good := by
  unfold goFixed
  dsimp only
  split
  · refine good_arriveFixed hn ?_ (by simp) ?_
    · rw [view_travel]; exact h.enter _
    · rw [view_travel]; exact ho
  · rw [view_travel]
    exact ⟨h.agrees_enter rfl (by simp), (h.enter _).heeded_free ho⟩

theorem good_goLimit {s : State} (h : s.view.Loose) (ho : s.view.override = true → s.view.untaken = true) :
    (goLimit s).view.Good := by
  rcases view_goLimit s with e | e <;> rw [e]
  · exact ⟨h.agrees_enter rfl (by simp), (h.enter _).heeded_free ho⟩
  · exact ⟨h.agrees_enter rfl (by simp), (h.enter _).heeded_free ho⟩

theorem overrideTaken_eq_false {s : State} (h : ¬ s.overrideTaken = true) :
    s.view.override = true → s.view.untaken = true := by
  intro ho
  have e : s.overrideTaken = (s.view.override && !s.view.untaken) := rfl
  rw [e, ho] at h
  simpa using h

/-- R13: a choice of motion that is made ends in agreement. -/
theorem good_nextMotion_succ {n : Nat} (hn : GoodNext (nextMotion n)) {s : State} (h : s.view.Loose) :
    (nextMotion (n + 1) s).view.Good := by
  unfold nextMotion
  split
  · exact good_takeStd h.abort
  split
  · exact good_goPark hn h
  next ho =>
  split
  · exact good_goPark hn h
  · exact good_goFixed hn h (overrideTaken_eq_false ho)
  · exact good_goLimit h (overrideTaken_eq_false ho)

theorem goodNext_nextMotion (n : Nat) : GoodNext (nextMotion n) := by
  induction n with
  | zero => exact fun s _ hg => hg
  | succ n ih => exact fun s h _ => good_nextMotion_succ ih h

theorem goodNext_nextMove : GoodNext nextMove := goodNext_nextMotion _

theorem good_nextMove {s : State} (h : s.view.Loose) : (nextMove s).view.Good :=
  good_nextMotion_succ (goodNext_nextMotion _) h

/-! ### Park override (R20, R21) -/

theorem overrideMoves_plain {st : CarriageState} (h : overrideMoves st = true) :
    st ≠ .toStd ∧ st ≠ .atStd ∧ st ≠ .fault := by
  refine ⟨?_, ?_, ?_⟩ <;> rintro rfl <;> cases h

/-- R20: an override taken is heeded, wherever the carriage is. -/
theorem good_takeOverride {s : State} (h : s.view.Agrees) :
    (takeOverride s).view.Good := by
  let u := s.withCmu { s.cmu with overrideWait := 0 }
  have hu : u.view = { s.view with untaken := false } := rfl
  have ha : u.view.Agrees := by rw [hu]; exact ⟨h.travel, h.stands, h.settle, h.commit, h.window, h.watch, h.period, h.fault⟩
  show State.view (if u.override && overrideMoves u.cmu.state then
    goPark nextMove ((abortTraverse u).withCmu { (abortTraverse u).cmu with hold := .none, turnOwed := false })
    else u) |>.Good
  split
  · next hm =>
    obtain ⟨h1, h2, h3⟩ := overrideMoves_plain (Bool.and_eq_true_iff.1 hm).2
    have hl := ha.loose_abort (by simp [hu]) h1 h2 h3
    exact good_goPark goodNext_nextMove ⟨hl.step, hl.settle, hl.window, hl.watch, hl.period, hl.fault, hl.waits⟩
  · next hm =>
    refine ⟨ha, by simp [hu], fun ho _ => ?_⟩
    have ho' : u.override = true := ho
    exact Bool.eq_false_iff.2 fun e => hm (by rw [ho']; exact e)

/-! ### The part of the rule that no move of the carriage changes -/

/-- An override taken keeps the whole rule, and leaves none waiting. -/
theorem steered_takeOverride_of {s : State} (h1 : sourceOk s.msm) (h2 : s.osq.scanCount ≤ 255)
    (h3 : absentFinished s.hbc) (ha : s.view.Agrees) : Steered (takeOverride s) := by
  have k := (motion_takeOverride s).toSteady
  exact ⟨k.msm ▸ h1, k.scanCount ▸ h2, k.hbc ▸ h3, good_takeOverride ha⟩

/-- An effect that the rule reads nothing of. -/
theorem steered_congr {s t : State} (h : Steered s) (hm : t.msm.state = s.msm.state := by rfl)
    (hc : t.osq.scanCount = s.osq.scanCount := by rfl) (hh : t.hbc = s.hbc := by rfl) (hv : t.view = s.view := by rfl) :
    Steered t := by
  have hs : t.msm.source = s.msm.source := congrArg View.source hv
  refine ⟨?_, hc ▸ h.scans, hh ▸ h.absent, hv ▸ h.view⟩
  unfold sourceOk
  rw [hs, hm]
  exact h.source

theorem steered_settleDrive {s : State} (h : Steered s) : Steered s.settleDrive :=
  steered_congr h

theorem steered_flushOverride {s : State} (h : Steered s) : Steered (flushOverride s) := by
  unfold flushOverride
  split
  · exact steered_settleDrive (steered_takeOverride_of h.source h.scans h.absent h.view.1)
  · exact h

/-- An override taken waits no more. -/
theorem takeOverride_taken (s : State) : (takeOverride s).cmu.overrideWait = 0 := by
  unfold takeOverride
  dsimp only
  split
  · have h := ((motion_abortTraverse (s.withCmu { s.cmu with overrideWait := 0 })).trans
      (motion_withCmu _ { (abortTraverse (s.withCmu { s.cmu with overrideWait := 0 })).cmu with
        hold := .none, turnOwed := false })).trans (motion_goPark motion_nextMove _)
    exact Nat.eq_zero_of_le_zero h.wait
  · rfl

theorem flushOverride_taken (s : State) : (flushOverride s).cmu.overrideWait = 0 := by
  unfold flushOverride
  split
  · exact takeOverride_taken s
  · next h => simpa [Cmu.overrideUntaken] using h

end Sys2Proof.Machine
end

section
/-! PROOFS. The monitor, the head bus, the traverse and FAULT keep the blocks in agreement with the carriage (R9, R17, R33 … R43,
R117, R153). -/

namespace Sys2Proof.Machine

open Safety

theorem steered_withMsm {s : State} {x : Msm} (hst : x.state = s.msm.state) (hso : x.source = s.msm.source)
    (h : Steered s) : Steered (s.withMsm x) :=
  steered_congr h hst (hv := by unfold State.view; simp [hso])

theorem steered_withHbc {s : State} {x : Hbc} (hx : absentFinished x) (h : Steered s) : Steered (s.withHbc x) :=
  ⟨h.source, h.scans, hx, h.view⟩

theorem steered_activate {s : State} (i : PointNo) (h : Steered s) : Steered (s.activate i) :=
  steered_congr h

theorem steered_returnAlarm {s : State} (i : PointNo) (h : Steered s) : Steered (s.returnAlarm i) :=
  steered_congr h

theorem view_unsuppressAll (s : State) : s.unsuppressAll.view = s.view := by
  simp [State.view]

/-! ### The monitor (R153) -/

/-- R153: the monitor's source raised in DOWN or BREAK. -/
theorem steered_setMsmSource (o : OverrideOrder) {s : State} (hst : s.msm.state = .down ∨ s.msm.state = .brk)
    (hc : s.osq.scanCount ≤ 255) (hh : absentFinished s.hbc) (ha : s.view.Agrees) : Steered (setMsmSource o s) := by
  have hs : sourceOk { s.msm with source := true } := ⟨fun _ => hst, fun _ => rfl⟩
  have ha' : View.Agrees { s.view with source := true } :=
    ⟨ha.travel, ha.stands, ha.settle, ha.commit, ha.window, ha.watch, ha.period, ha.fault⟩
  unfold setMsmSource
  cases o with
  | overrideFirst => exact steered_takeOverride_of hs hc hh ha'
  | countsFirst more =>
    unfold raiseOverride
    dsimp only
    split
    · exact ⟨hs, hc, hh,
        ⟨ha'.travel, ha'.stands, ha'.settle, ha'.commit, ha'.window, ha'.watch, ha'.period, ha'.fault⟩,
        fun _ => rfl, fun _ k => by simp [State.view, Cmu.overrideUntaken] at k⟩
    · next hm => exact ⟨hs, hc, hh, ha', fun _ => rfl, fun _ _ => Bool.eq_false_iff.2 hm⟩

theorem view_parkUnlessResume (s : State) : (parkUnlessResume s).view = s.view := by
  unfold parkUnlessResume; split <;> rfl

/-- Where the carriage is not PARKED a cleared override moves nothing. -/
theorem view_overrideCleared (was : Bool) {s : State} (h : s.cmu.state ≠ .parked) : (overrideCleared was s).view = s.view := by
  have e := view_parkUnlessResume s
  have hp : (parkUnlessResume s).cmu.state ≠ .parked := fun k => h ((congrArg View.carriage e).symm.trans k)
  rw [overrideCleared_eq, if_neg hp]
  split
  · exact e
  · rfl

theorem loose_parked {s : State} (h : s.view.Good) (hp : s.cmu.state = .parked) : s.view.Loose := by
  have e : s.view.carriage = .parked := hp
  refine h.1.loose h.2.waits ?_ ?_ ?_ ?_ <;> simp [e, View.inTraverse]

theorem good_overrideCleared (was : Bool) {s : State} (h : s.view.Good) : (overrideCleared was s).view.Good := by
  have e := view_parkUnlessResume s
  rw [overrideCleared_eq]
  split
  · split
    · next hp => exact good_nextMove (loose_parked (e ▸ h) hp)
    · exact e ▸ h
  · exact h

theorem steered_overrideCleared (was : Bool) {s : State} (h : Steered s) : Steered (overrideCleared was s) :=
  steered_of_steady (steady_overrideCleared was s) h (good_overrideCleared was h.view)

/-- R153: the monitor's source cleared in THREAD or RUN. -/
theorem steered_clearMsmSource {s : State} (hst : s.msm.state = .thread ∨ s.msm.state = .run)
    (hc : s.osq.scanCount ≤ 255) (hh : absentFinished s.hbc) (hg : s.view.Good) : Steered (clearMsmSource s) := by
  have k := steady_flushOverride s
  have hf : (flushOverride s).view.Good := by
    unfold flushOverride
    split
    · exact good_takeOverride hg.1
    · exact hg
  have hw : (flushOverride s).view.untaken = false := by
    simp [State.view, Cmu.overrideUntaken, flushOverride_taken]
  refine steered_overrideCleared _ (⟨?_, k.scanCount ▸ hc, k.hbc ▸ hh, ?_, ?_⟩)
  · have e : (flushOverride s).msm.state = s.msm.state := by rw [k.msm]
    refine ⟨fun x => (Bool.false_ne_true x).elim, fun x => ?_⟩
    simp only [State.withMsm_msm, e] at x
    rcases hst with h | h <;> simp [h] at x
  · exact ⟨hf.1.travel, hf.1.stands, hf.1.settle, hf.1.commit, hf.1.window, hf.1.watch, hf.1.period, hf.1.fault⟩
  · refine ⟨fun x => (Bool.false_ne_true (hw.symm.trans x)).elim, fun x y => hf.2.taken ?_ hw⟩
    have x' : (false || (flushOverride s).cmu.parkSource || (flushOverride s).cmu.motionFault) = true := x
    show ((flushOverride s).msm.source || (flushOverride s).cmu.parkSource || (flushOverride s).cmu.motionFault) = true
    simp only [Bool.false_or, Bool.or_eq_true] at x' ⊢
    exact x'.elim (fun h => .inl (.inr h)) .inr

theorem enteredMsm_source (new : MachineState) (s : State) : (enteredMsm new s).source = s.msm.source := by
  cases new <;> simp [enteredMsm, updNewest] <;> split <;> rfl

theorem enteredMsm_state (new : MachineState) (s : State) : (enteredMsm new s).state = new := by
  cases new <;> simp [enteredMsm]

theorem steered_changeState (new : MachineState) (cause : StateCause) (o : OverrideOrder) {s : State}
    (h : Steered s) : Steered (changeState new cause o s) := by
  have hv : (s.withMsm (enteredMsm new s)).view = s.view := by
    unfold State.view
    simp [enteredMsm_source]
  have hst : (enteredMsm new s).state = new := enteredMsm_state new s
  cases new with
  | down => exact steered_setMsmSource o (.inl hst) h.scans h.absent (hv ▸ h.view.1)
  | brk => exact steered_setMsmSource o (.inr hst) h.scans h.absent (hv ▸ h.view.1)
  | thread => exact steered_clearMsmSource (.inl hst) h.scans h.absent (hv ▸ h.view)
  | run =>
    rw [changeState_run]
    refine steered_clearMsmSource (.inr ?_) ?_ ?_ ?_
    · simpa [stateNotice, State.notifyAll_eq] using hst
    · simpa [stateNotice, State.notifyAll_eq] using h.scans
    · simpa [stateNotice, State.notifyAll_eq] using h.absent
    · rw [view_unsuppressAll]
      exact hv ▸ h.view

theorem updNewest_source (f : BreakRecord → BreakRecord) (m : Msm) : (updNewest f m).source = m.source := by
  unfold updNewest; split <;> rfl

theorem openRecord_state (f : FirstOut) (m : Msm) : (openRecord f m).state = m.state ∧ (openRecord f m).source = m.source := by
  unfold openRecord
  dsimp only
  split
  · exact ⟨updNewest_state .., updNewest_source ..⟩
  · exact ⟨rfl, rfl⟩

theorem steered_takeCause (kind : CauseKind) (pos : Int) (c : Cycle) (cause : StateCause) (o : OverrideOrder) {s : State}
    (h : Steered s) : Steered (takeCause kind pos c cause o s) := by
  have ho := fun f => steered_withMsm (openRecord_state f s.msm).1 (openRecord_state f s.msm).2 h
  unfold takeCause
  split
  · exact steered_changeState .brk cause o (ho _)
  · exact steered_changeState .brk cause o (ho _)
  · exact steered_withMsm (updNewest_state ..) (updNewest_source ..) h
  · exact h

/-- An effect taken on a condition. -/
theorem steered_ite {c : Prop} [Decidable c] {t u : State} (ht : Steered t) (hu : Steered u) :
    Steered (if c then t else u) := by
  split
  · exact ht
  · exact hu

theorem steered_testLines {s : State} (h : Steered s) : Steered (testLines s) :=
  steered_ite (steered_changeState _ _ _ h) h

theorem steered_readingChanged (l : BreakLine) (was : Reading) (o : OverrideOrder) {s : State} (h : Steered s) :
    Steered (readingChanged l was o s) :=
  steered_ite h (steered_ite (steered_takeCause _ _ _ _ _ h) (steered_ite (steered_testLines h) h))

theorem steered_compareSpeed (cause : StateCause) (o : OverrideOrder) {s : State} (h : Steered s) :
    Steered (compareSpeed cause o s) :=
  steered_ite (steered_ite h (steered_testLines (steered_changeState _ _ _ h)))
    (steered_ite (steered_changeState _ _ _ h) h)

/-! ### Standardizations taken, and aborts (R47, R54) -/

/-- R47: a due standardization is taken from a carriage that stands at an occasion. -/
theorem steered_osqOccasion {s : State} (h : Steered s) : Steered (osqOccasion s) := by
  refine steered_of_steady (motion_osqOccasion s).toSteady h ?_
  unfold osqOccasion
  split
  · next hc =>
    simp only [Bool.and_eq_true, Bool.or_eq_true, beq_iff_eq] at hc
    refine good_takeStd (h.view.1.loose_abort h.view.2.waits ?_ ?_ ?_)
    all_goals rcases hc.2 with (e | e) | e <;> simp [e]
  · exact h.view

theorem view_mergeRenewal (s : State) : (mergeRenewal s).view = s.view := by
  unfold mergeRenewal
  split
  · rfl
  · exact Eq.trans rfl (view_setDue s)

theorem mergeRenewal_keeps (s : State) : (mergeRenewal s).osq.scanCount = s.osq.scanCount ∧ (mergeRenewal s).msm = s.msm ∧
    (mergeRenewal s).hbc = s.hbc := by
  unfold mergeRenewal setDue
  split
  · exact ⟨rfl, rfl, rfl⟩
  · split <;> exact ⟨rfl, rfl, rfl⟩

/-- R54: an abort leaves the sequencer idle, whatever the carriage does. -/
theorem view_resetOsqStep (s : State) : (resetOsqStep s).view = { s.view with step := .idle, settle := false } :=
  view_mergeRenewal _

theorem view_abortStdWith (told : Hbc → Hbc) (s : State) (h : s.view.step = .idle → s.view.settle = false) :
    (abortStdWith told s).view = { s.view with step := .idle, settle := false } := by
  unfold abortStdWith
  split
  · next e =>
    have e' : s.view.step = .idle := e
    have k := h e'
    rw [← e', ← k]
  · exact view_resetOsqStep _

theorem abortStdWith_keeps (told : Hbc → Hbc) (s : State) : (abortStdWith told s).osq.scanCount = s.osq.scanCount ∧
    (abortStdWith told s).msm = s.msm ∧
    (abortStdWith told s).hbc = if s.osq.step = .idle then s.hbc else told s.hbc := by
  unfold abortStdWith
  split
  · exact ⟨rfl, rfl, rfl⟩
  · exact mergeRenewal_keeps _

theorem abandonEntry_finished {e : SeqEntry} (h : e.phase = .finished) : (abandonEntry e).phase = .finished := by
  unfold abandonEntry; split <;> simp_all

theorem foldl_ready_get (p : RefChan → Bool) (l : List RefChan) (hs : PerChan Head) (ch : Channel) :
    (l.foldl (fun hs c => if p c then setHeadReady hs c.chan else hs) hs).get ch = hs.get ch ∨
    ((l.foldl (fun hs c => if p c then setHeadReady hs c.chan else hs) hs).get ch).state = .ready := by
  induction l generalizing hs with
  | nil => exact .inl rfl
  | cons c l ih =>
    rcases ih (if p c then setHeadReady hs c.chan else hs) with e | e
    · by_cases hp : p c = true
      · by_cases hc : ch = c.chan
        · subst hc
          refine .inr ?_
          simp only [List.foldl_cons, hp, if_true] at e ⊢
          rw [e, setHeadReady, PerChan.get_set_same]
        · refine .inl ?_
          simp only [List.foldl_cons, hp, if_true] at e ⊢
          rw [e, setHeadReady, PerChan.get_set_ne _ _ hc]
      · simp only [List.foldl_cons, hp] at e ⊢
        exact .inl e
    · exact .inr e

theorem absentFinished_abandonSeq {h : Hbc} (hh : absentFinished h) : absentFinished (abandonSeq h) := by
  unfold abandonSeq
  split
  · exact hh
  next q hq =>
  intro q' k e hq' he ha
  dsimp only at hq' ha
  split at hq'
  · simp at hq'
  obtain rfl := Option.some.inj hq'
  simp only [PerRef.get_map] at he
  obtain ⟨e0, he0, rfl⟩ := Option.map_eq_some_iff.1 he
  rcases foldl_ready_get (fun c => abandonReadies (q.entries.get c)) allRefChans h.heads k.chan with x | x
  · rw [x] at ha
    exact abandonEntry_finished (hh q k e0 hq he0 ha)
  · rw [x] at ha; cases ha

/-! ### FAULT (R9) -/

/-- R9: the carriage in FAULT, its standardization still to be aborted. -/
def faulted (cause : FaultCause) (s : State) : State :=
  (((setCarriage .fault (abortTraverse s)).withDrive s.drive.halt).withCmu
    { (setCarriage .fault (abortTraverse s)).cmu with
      homed := s.cmu.homed && (cause != .encoder), faultCause := cause, hold := .none
      turnOwed := false, motionFault := true, overrideWait := 0 }).activate ptMotionFault

theorem abortTraverse_fields (s : State) : (abortTraverse s).drive = s.drive ∧ (abortTraverse s).osq = s.osq ∧
    (abortTraverse s).hbc = s.hbc ∧ (abortTraverse s).msm = s.msm ∧ (abortTraverse s).cmu.homed = s.cmu.homed := by
  unfold abortTraverse; split <;> exact ⟨rfl, rfl, rfl, rfl, rfl⟩

theorem enterFault_eq (cause : FaultCause) {s : State} (h : s.cmu.state ≠ .fault) :
    enterFault cause s = applyPendingGrade (abortStd (faulted cause s)) := by
  obtain ⟨hd, _, _, _, hh⟩ := abortTraverse_fields s
  unfold enterFault faulted
  rw [if_neg h]
  dsimp only
  simp only [hd, State.withDrive_cmu]
  have e : (setCarriage .fault (abortTraverse s)).cmu.homed = s.cmu.homed := hh
  rw [e]

theorem faulted_fields (cause : FaultCause) (s : State) : (faulted cause s).osq = s.osq ∧ (faulted cause s).hbc = s.hbc ∧
    (faulted cause s).msm = s.msm := by
  obtain ⟨_, ho, hh, hm, _⟩ := abortTraverse_fields s
  simp only [faulted, State.activate_osq, State.activate_hbc, State.activate_msm, State.withCmu_osq, State.withCmu_hbc,
    State.withCmu_msm, State.withDrive_osq, State.withDrive_hbc, State.withDrive_msm]
  exact ⟨ho, hh, hm⟩

theorem view_faulted (cause : FaultCause) (s : State) : (faulted cause s).view =
    { (abortTraverse s).view.enter .fault with turnOwed := false, motionFault := true, untaken := false } := by
  rw [← view_setCarriage]
  simp [faulted, State.view, Cmu.overrideUntaken]

/-- After an abort no window and no watch is open, and a fixed-point period only in FIXED. -/
theorem View.Agrees.abort {s : State} (h : s.view.Agrees) : (abortTraverse s).view.window = false ∧
    (abortTraverse s).view.watch = false ∧ ((abortTraverse s).view.carriage ≠ .fixed → (abortTraverse s).view.period = false) := by
  have hp : s.view.carriage ≠ .fixed → s.view.period = false := fun k => Bool.eq_false_iff.2 fun e => k (h.period.1 e)
  rw [view_abortTraverse]
  split
  · exact ⟨rfl, rfl, hp⟩
  · next k => exact ⟨Bool.eq_false_iff.2 fun e => k (h.window.1 e), Bool.eq_false_iff.2 fun e => k (h.watch.1 e), hp⟩

theorem steered_enterFault (cause : FaultCause) {s : State} (h : Steered s) : Steered (enterFault cause s) := by
  by_cases hf : s.cmu.state = .fault
  · unfold enterFault
    rw [if_pos hf]
    exact steered_congr h
  obtain ⟨ho, hh, hm⟩ := faulted_fields cause s
  obtain ⟨hw, hx, hp⟩ := h.view.1.abort
  obtain ⟨k1, k2, k3⟩ := abortStdWith_keeps abandonSeq (faulted cause s)
  have hidle : (faulted cause s).view.step = .idle → (faulted cause s).view.settle = false := by
    intro e
    have e' : s.view.step = .idle := (congrArg Osq.step ho).symm.trans e
    have k : s.view.settle = false := Bool.eq_false_iff.2 fun x => by simpa [e'] using h.view.1.settle.1 x
    exact (congrArg (fun q : Osq => q.settle.isSome) ho).trans k
  have hview : (applyPendingGrade (abortStd (faulted cause s))).view =
      { (faulted cause s).view with step := .idle, settle := false } :=
    (view_applyPendingGrade _).trans (view_abortStdWith _ _ hidle)
  have hap := (motion_applyPendingGrade (abortStd (faulted cause s))).toSteady
  rw [enterFault_eq cause hf]
  refine ⟨?_, ?_, ?_, ?_⟩
  · rw [hap.msm, abortStd, k2, hm]; exact h.source
  · rw [hap.scanCount, abortStd, k1, ho]; exact h.scans
  · rw [hap.hbc, abortStd, k3, hh]
    split
    · exact h.absent
    · exact absentFinished_abandonSeq h.absent
  · rw [hview, view_faulted]
    refine ⟨?_, fun e => by simp at e, fun _ _ => rfl⟩
    constructor <;> simp [View.inTraverse, View.enter, hw, hx]
    exact hp

end Sys2Proof.Machine
end

section
/-! PROOFS. The head bus and the traverse keep the blocks in agreement with the carriage (R16, R17, R26 … R40, R52, R117). -/

namespace Sys2Proof.Machine

open Safety

/-! ### The sequence in flight (R32 … R40) -/

theorem PerRef.get_set (t : PerRef (Option SeqEntry)) (c d : RefChan) (x : Option SeqEntry) :
    (t.set c x).get d = if d = c then x else t.get d := by
  by_cases h : d = c
  · subst h; simp
  · simp [h, PerRef.get_set_ne]

/-- An examination in which a head is or goes ABSENT leaves its channel FINISHED, when it was while the head was. -/
def FinishesAbsent (was : HeadState) (e : Option SeqEntry) (x : Exam) : Prop :=
  x.head.state = .absent → ∀ y, x.entry = some y → (was = .absent → ∀ z, e = some z → z.phase = .finished) →
    y.phase = .finished

theorem loseEntry_finished (e : SeqEntry) : (loseEntry e).phase = .finished := by
  unfold loseEntry
  split
  · assumption
  · rfl

theorem finishes_absentExam (was : HeadState) (c : AbsentCause) (hd : Head) (e : Option SeqEntry) :
    FinishesAbsent was e (absentExam c hd e) := by
  intro _ y hy _
  obtain ⟨z, _, rfl⟩ := Option.map_eq_some_iff.1 hy
  exact loseEntry_finished z

/-- An examination that leaves the head in service. -/
theorem finishes_of_present {was : HeadState} {e : Option SeqEntry} {x : Exam} (h : x.head.state ≠ .absent) :
    FinishesAbsent was e x := fun k => absurd k h

theorem finishes_answerWindows (was : HeadState) (now : Cycle) (q : Sequence) (hd : Head) (e : SeqEntry) (k : Sorted)
    (h : hd.state ≠ .absent) : FinishesAbsent was (some e) (answerWindows now q hd e k) := by
  have stay : ∀ e' v, FinishesAbsent was (some e) ⟨hd, e', false, v⟩ := fun _ _ => finishes_of_present h
  have ready : ∀ e' v, FinishesAbsent was (some e) ⟨{ hd with state := .ready }, e', false, v⟩ := fun _ _ =>
    finishes_of_present (by simp)
  have busy : ∀ e' v, FinishesAbsent was (some e) ⟨{ hd with state := .busy }, e', false, v⟩ := fun _ _ =>
    finishes_of_present (by simp)
  have gone : ∀ c, FinishesAbsent was (some e) (absentExam c hd (some e)) := fun c => finishes_absentExam _ c _ _
  have choose : ∀ {p : Prop} [Decidable p] {x y : Exam}, FinishesAbsent was (some e) x → FinishesAbsent was (some e) y →
      FinishesAbsent was (some e) (if p then x else y) := by
    intro p _ x y hx hy
    split
    · exact hx
    · exact hy
  unfold answerWindows
  dsimp only
  split
  · exact choose (stay _ _) (choose (busy _ _) (choose (gone _) (stay _ _)))
  · exact choose (choose (ready _ _) (stay _ _)) (choose (gone _) (stay _ _))
  · split
    · exact choose (stay _ _) (choose (choose (ready _ _) (ready _ _)) (choose (gone _) (stay _ _)))
    · exact choose (gone _) (stay _ _)
    · exact choose (gone _) (stay _ _)
  all_goals exact stay _ _

theorem finishes_examineService (was : HeadState) (now : Cycle) (q : Option Sequence) (hd : Head) (e : Option SeqEntry)
    (k : Sorted) (h : hd.state ≠ .absent) : FinishesAbsent was e (examineService now q hd e k) := by
  have rest : FinishesAbsent was e (match q, e with
      | some q, some e => answerWindows now q hd e k
      | _, _ => ⟨hd, e, false, none⟩) := by
    split
    · exact finishes_answerWindows was now _ hd _ k h
    · exact finishes_of_present h
  unfold examineService
  split
  · exact finishes_absentExam _ _ _ _
  all_goals
    split
    · exact finishes_absentExam _ _ _ _
    · exact rest

theorem finishes_examineProbing (was : HeadState) (hd : Head) (e : Option SeqEntry) (k : Sorted)
    (h : hd.state ≠ .absent) : FinishesAbsent was e (examineProbing hd e k) := by
  unfold examineProbing
  split
  · split
    · exact finishes_of_present (by simp)
    · exact finishes_of_present h
  · exact finishes_absentExam _ _ _ _
  · split
    · exact finishes_absentExam _ _ _ _
    · exact finishes_of_present h

theorem finishes_examineAbsent (hd : Head) (e : Option SeqEntry) (k : Sorted) :
    FinishesAbsent .absent e (examineAbsent hd e k) := by
  unfold examineAbsent
  split
  · exact finishes_of_present (by simp)
  all_goals exact fun _ y hy hf => hf rfl y hy

theorem finishes_examineHead (now : Cycle) (q : Option Sequence) (hd : Head) (e : Option SeqEntry) (w : Option UplinkWord) :
    FinishesAbsent hd.state e (examineHead now q hd e w) := by
  unfold examineHead
  dsimp only
  split
  · next h => exact finishes_of_present (by simp [h])
  · next h => exact finishes_examineProbing _ _ _ _ (by simp [h])
  · next h => rw [h]; exact finishes_examineAbsent _ _ _
  · next h => exact finishes_examineService _ _ _ _ _ _ (by simp [h])
  · next h => exact finishes_examineService _ _ _ _ _ _ (by simp [h])

/-- R33: an examined slot leaves the channels of ABSENT heads FINISHED. -/
theorem absentFinished_applyExam {h : Hbc} (hh : absentFinished h) (ch : Channel) (w : Option UplinkWord) :
    absentFinished (applyExam h ch w (examineSlot h ch w)) := by
  have hx := finishes_examineHead h.cycle h.seq (h.heads.get ch) (entryOf h.seq ch) w
  intro q k e hq he ha
  have hq' : setEntry h.seq ch (examineSlot h ch w).entry = some q := hq
  have ha' : ((h.heads.set ch (examineSlot h ch w).head).get k.chan).state = .absent := ha
  by_cases hk : k.chan = ch
  · subst hk
    rw [PerChan.get_set_same] at ha'
    simp only [setEntry, refChanOf_chan] at hq'
    obtain ⟨q0, hq0, rfl⟩ := Option.map_eq_some_iff.1 hq'
    rw [PerRef.get_set_same] at he
    refine hx ha' e he fun hwas z hz => ?_
    simp only [entryOf, refChanOf_chan, hq0, Option.bind_some] at hz
    exact hh q0 k z hq0 hz hwas
  · rw [PerChan.get_set_ne _ _ hk] at ha'
    cases hr : refChanOf ch with
    | none =>
      simp only [setEntry, hr] at hq'
      exact hh q k e hq' he ha'
    | some c =>
      have hkc : k ≠ c := fun e => hk (e ▸ (refChanOf_eq_some hr).symm)
      simp only [setEntry, hr] at hq'
      obtain ⟨q0, hq0, rfl⟩ := Option.map_eq_some_iff.1 hq'
      rw [PerRef.get_set_ne _ _ hkc] at he
      exact hh q0 k e hq0 he ha'

theorem absentFinished_askDone {h : Hbc} {q : Sequence} (hq : h.seq = some q) (hh : absentFinished h) :
    absentFinished { h with seq := some { q with reported := true, entries := q.entries.map (Option.map askDone) } } := by
  intro q' k e hq' he ha
  obtain rfl := Option.some.inj hq'
  rw [PerRef.get_map] at he
  obtain ⟨e0, he0, rfl⟩ := Option.map_eq_some_iff.1 he
  exact hh q k e0 hq he0 ha

theorem absentFinished_noSeq {h : Hbc} (hs : h.seq = none) : absentFinished h := fun _ _ _ hq _ _ => by
  rw [hs] at hq; cases hq

/-! ### The reports (R37, R39, R51, R52) -/

theorem steered_absentAlarm (ch : Channel) (was now : HeadState) {s : State} (h : Steered s) :
    Steered (absentAlarm ch was now s) := by
  unfold absentAlarm
  split
  · exact steered_activate _ h
  split
  · exact steered_returnAlarm _ h
  · exact h

theorem steered_handValue (ch : Channel) (v : Option (BitVec 16)) {s : State} (h : Steered s) :
    Steered (handValue ch v s) := by
  unfold handValue
  split
  · split
    · exact steered_congr h
    · exact h
  · exact h

theorem steered_setDue {s : State} (h : Steered s) : Steered (setDue s) :=
  steered_of_steady (motion_setDue s).toSteady h (by rw [view_setDue]; exact h.view)

theorem steered_unsetEvent {s : State} (h : Steered s) : Steered (unsetEvent s) := by
  unfold unsetEvent
  split
  · exact steered_congr h
  · exact steered_osqOccasion (steered_setDue h)

theorem steered_headReadyEvent (ch : Channel) {s : State} (h : Steered s) : Steered (headReadyEvent ch s) := by
  unfold headReadyEvent
  split
  · exact h
  split
  · exact steered_unsetEvent h
  · exact h

theorem steered_foldl {α : Type} {f : State → α → State} (hf : ∀ s a, Steered s → Steered (f s a)) (l : List α) {s : State}
    (h : Steered s) : Steered (l.foldl f s) := by
  induction l generalizing s with
  | nil => exact h
  | cons a l ih => exact ih (hf s a h)

/-- R51: COMMIT changes references and alarm points of its channels, and nothing that the rule reads. -/
theorem commitChannel_keeps (s : State) (c : RefChan) : (commitChannel s c).view = s.view ∧
    (commitChannel s c).msm = s.msm ∧ (commitChannel s c).hbc = s.hbc := by
  unfold commitChannel
  split
  · exact ⟨rfl, rfl, rfl⟩
  split <;> exact ⟨rfl, rfl, rfl⟩

theorem commitChannels_keep (l : List RefChan) (s : State) : (l.foldl commitChannel s).view = s.view ∧
    (l.foldl commitChannel s).msm = s.msm ∧ (l.foldl commitChannel s).hbc = s.hbc := by
  induction l generalizing s with
  | nil => exact ⟨rfl, rfl, rfl⟩
  | cons c l ih =>
    obtain ⟨a, b, d⟩ := ih (commitChannel s c)
    obtain ⟨a', b', d'⟩ := commitChannel_keeps s c
    exact ⟨a.trans a', b.trans b', d.trans d'⟩

theorem commit_keeps (s : State) : (commit s).view = { s.view with step := .commit } ∧ (commit s).msm = s.msm ∧
    (commit s).hbc = s.hbc ∧ (commit s).osq.scanCount = 0 := by
  obtain ⟨hv, hm, hh⟩ := commitChannels_keep allRefChans s
  let c := allRefChans.foldl commitChannel s
  let d := (c.withOsq { c.osq with
    step := .commit, candidates := noCandidates, scanCount := 0, due := false, requested := false
    overdue := false }).returnAlarm ptOverdue
  obtain ⟨k1, k2, k3⟩ := mergeRenewal_keeps d
  refine ⟨?_, k2.trans hm, k3.trans hh, k1.trans rfl⟩
  have e : d.view = { c.view with step := .commit } := rfl
  exact (view_mergeRenewal d).trans (e.trans (by rw [hv]))

/-- The carriage stands AT_STD while a standardization's heads are at work. -/
theorem Steered.loose_atStd {s : State} (h : Steered s) (hc : s.cmu.state = .atStd) :
    View.Loose { s.view with step := .idle, settle := false } := by
  have hv : s.view.carriage = .atStd := hc
  have ha := h.view.1
  refine ⟨rfl, rfl, ?_, ?_, fun _ => ?_, ?_, h.view.2.waits⟩
  · exact Bool.eq_false_iff.2 fun e => by simpa [View.inTraverse, hv] using ha.window.1 e
  · exact Bool.eq_false_iff.2 fun e => by simpa [View.inTraverse, hv] using ha.watch.1 e
  · exact Bool.eq_false_iff.2 fun e => by simpa [hv] using ha.period.1 e
  · exact Bool.eq_false_iff.2 fun e => by simpa [hv] using ha.fault.1 e

theorem Steered.atStd {s : State} (h : Steered s) (hs : s.osq.step = .reference ∨ s.osq.step = .fetch) :
    s.cmu.state = .atStd ∧ s.view.settle = false := by
  refine ⟨h.view.1.stands.1 (.inr hs), Bool.eq_false_iff.2 fun e => ?_⟩
  have e' : s.osq.step = .settle := h.view.1.settle.1 e
  rcases hs with k | k <;> simp [k] at e'

/-- R52: the interlock released from REFERENCE or FETCH. -/
theorem steered_headSteps {s : State} (h : Steered s) (hs : s.osq.step = .reference ∨ s.osq.step = .fetch) :
    Steered (releaseInterlock (commit s)) := by
  obtain ⟨hc, hset⟩ := h.atStd hs
  obtain ⟨hv, hm, hh, hn⟩ := commit_keeps s
  let u := (commit s).withOsq { (commit s).osq with step := .idle }
  have k := ((motion_applyPendingPlan u).trans (motion_nextMove _)).toSteady
  have hu : (applyPendingPlan u).view = { s.view with step := .idle, settle := false } := by
    have e : u.view = { (commit s).view with step := .idle } := rfl
    rw [view_applyPendingPlan, e, hv, ← hset]
  refine ⟨?_, ?_, ?_, good_nextMove (hu ▸ h.loose_atStd hc)⟩
  · show sourceOk (nextMove (applyPendingPlan u)).msm
    rw [k.msm]; exact hm ▸ h.source
  · show (nextMove (applyPendingPlan u)).osq.scanCount ≤ 255
    rw [k.scanCount]
    show (commit s).osq.scanCount ≤ 255
    omega
  · show absentFinished (nextMove (applyPendingPlan u)).hbc
    rw [k.hbc]; exact hh ▸ h.absent

theorem steered_headStepsDone {s : State} (h : Steered s) : Steered (headStepsDone s) := by
  unfold headStepsDone
  split
  · next hw =>
    refine steered_headSteps h ?_
    simp only [osqWaits, Bool.or_eq_true, Bool.and_eq_true, beq_iff_eq] at hw
    exact hw.imp And.left id
  · exact h

theorem osqWaits_step {s : State} (h : osqWaits s = true) : s.osq.step = .reference ∨ s.osq.step = .fetch := by
  simp only [osqWaits, Bool.or_eq_true, Bool.and_eq_true, beq_iff_eq] at h
  exact h.imp And.left id

/-- From REFERENCE or FETCH the sequencer may enter FETCH. -/
theorem steered_fetch {s : State} (h : Steered s) (hs : s.osq.step = .reference ∨ s.osq.step = .fetch) :
    Steered (s.withOsq { s.osq with step := .fetch }) := by
  obtain ⟨hc, hset⟩ := h.atStd hs
  have hc' : s.view.carriage = .atStd := hc
  have ha := h.view.1
  have hv : (s.withOsq { s.osq with step := .fetch }).view = { s.view with step := .fetch } := rfl
  refine ⟨h.source, h.scans, h.absent, ?_⟩
  rw [hv]
  refine ⟨⟨?_, ?_, ?_, ?_, ha.window, ha.watch, ha.period, ha.fault⟩, ?_⟩
  · exact ⟨fun e => (by cases e), fun e => absurd (hc'.symm.trans e) (by simp)⟩
  · exact ⟨fun _ => hc', fun _ => .inr (.inr rfl)⟩
  · exact ⟨fun e => absurd (hset.symm.trans e) (by simp), fun e => by cases e⟩
  · exact fun e => by cases e
  · exact ⟨h.view.2.waits, h.view.2.taken⟩

theorem steered_reportPhase {s : State} (h : Steered s) : Steered (reportPhase s) := by
  unfold reportPhase
  split
  · exact h
  next q hq =>
  split
  · split
    · next hw =>
      unfold takeReport
      dsimp only
      have hr := steered_withHbc (absentFinished_askDone hq h.absent) h
      split
      · exact steered_fetch hr (osqWaits_step hw)
      · exact hr
    · exact steered_withHbc (absentFinished_abandonSeq h.absent) h
  · exact h

theorem steered_endSequence {s : State} (h : Steered s) : Steered (endSequence s) := by
  unfold endSequence
  split
  · exact h
  split
  · have hn := steered_withHbc (x := { s.hbc with seq := none }) (absentFinished_noSeq rfl) h
    dsimp only
    split
    · exact hn
    · exact steered_headStepsDone hn
  · exact h

theorem steered_examinedSlot (ch : Channel) (w : Option UplinkWord) {s : State} (h : Steered s) :
    Steered (examinedSlot ch w s) := by
  have h1 := steered_withHbc (absentFinished_applyExam h.absent ch w) h
  have h2 := steered_handValue ch (examineSlot s.hbc ch w).value (steered_absentAlarm ch (s.hbc.heads.get ch).state
    (examineSlot s.hbc ch w).head.state h1)
  exact steered_settleDrive (steered_endSequence (steered_reportPhase
    (steered_ite (steered_headReadyEvent ch h2) h2)))

theorem steered_uplinkSlot (ch : Channel) (w : Option UplinkWord) {s : State} (h : Steered s) :
    Steered (uplinkSlot ch w s) :=
  steered_ite h (steered_ite (steered_withHbc h.absent h) (steered_examinedSlot ch w h))

theorem steered_losingSlot (cause : AbsentCause) (ch : Channel) (w : Option UplinkWord) {s : State} (h : Steered s) :
    Steered (losingSlot cause ch w s) := steered_ite (steered_uplinkSlot ch w h) h

/-! ### The start of a cycle (R26) -/

theorem mapChan_get (f : Channel → Head) (ch : Channel) : (mapChan f).get ch = f ch := by cases ch <;> rfl

/-- R30: the change of the mask takes no head into ABSENT. -/
theorem maskHead_absent {old new : Bool} {hd : Head} (h : (maskHead old new hd).state = .absent) : hd.state = .absent := by
  unfold maskHead at h
  split at h
  · cases h
  split at h
  · cases h
  · exact h

/-- R30: a channel still in the sequence after the change of the mask was in it before. -/
theorem maskEntry_entry {h : Hbc} {new : PerChan Bool} {s : Option Sequence} {c : RefChan} {q : Sequence} {k : RefChan}
    {e : SeqEntry} (hq : maskEntry h new s c = some q) (he : q.entries.get k = some e) :
    ∃ q0, s = some q0 ∧ q0.entries.get k = some e := by
  unfold maskEntry at hq
  split at hq
  · obtain ⟨q0, rfl, rfl⟩ := Option.map_eq_some_iff.1 hq
    refine ⟨q0, rfl, ?_⟩
    rw [PerRef.get_set] at he
    split at he
    · cases he
    · exact he
  · exact ⟨q, hq, he⟩

theorem foldl_maskEntry_entry {h : Hbc} {new : PerChan Bool} (l : List RefChan) {s : Option Sequence} {q : Sequence}
    {k : RefChan} {e : SeqEntry} (hq : l.foldl (maskEntry h new) s = some q) (he : q.entries.get k = some e) :
    ∃ q0, s = some q0 ∧ q0.entries.get k = some e := by
  induction l generalizing s with
  | nil => exact ⟨q, hq, he⟩
  | cons c l ih =>
    obtain ⟨q1, hq1, he1⟩ := ih hq
    exact maskEntry_entry hq1 he1

theorem absentFinished_mask {h : Hbc} (hh : absentFinished h) (new : PerChan Bool) :
    absentFinished { h with
      mask := new
      heads := mapChan (fun ch => maskHead (h.mask.get ch) (new.get ch) (h.heads.get ch))
      seq := allRefChans.foldl (maskEntry h new) h.seq } := by
  intro q k e hq he ha
  obtain ⟨q0, hq0, he0⟩ := foldl_maskEntry_entry allRefChans hq he
  rw [mapChan_get] at ha
  exact hh q0 k e hq0 he0 (maskHead_absent ha)

theorem steered_returnAbsents (was : PerChan Head) {s : State} (h : Steered s) : Steered (returnAbsents was s) :=
  steered_foldl (fun _ _ k => steered_absentAlarm _ _ _ k) _ h

theorem steered_applyMask {s : State} (h : Steered s) : Steered (applyMask s) := by
  have h1 := steered_returnAbsents s.hbc.heads (steered_withHbc (absentFinished_mask h.absent s.rbs.common.mask) h)
  exact steered_ite h (steered_endSequence (steered_reportPhase (steered_ite (steered_unsetEvent h1) h1)))

/-- R55: a RESET takes the standardization again, or releases the interlock. -/
theorem steered_resetHeadSteps {s : State} (h : Steered s) (hs : s.osq.step = .reference ∨ s.osq.step = .fetch) :
    Steered (resetHeadSteps s) := by
  obtain ⟨hc, _⟩ := h.atStd hs
  obtain ⟨k1, k2, k3⟩ := mergeRenewal_keeps
    (s.withOsq { s.osq with step := .idle, settle := none, candidates := noCandidates })
  have hu : (applyPendingPlan (resetOsqStep s)).view = { s.view with step := .idle, settle := false } := by
    rw [view_applyPendingPlan, view_resetOsqStep]
  have hl := h.loose_atStd hc
  have hp := (motion_applyPendingPlan (resetOsqStep s)).toSteady
  have close : ∀ t, Steady (applyPendingPlan (resetOsqStep s)) t → t.view.Good → Steered t := by
    intro t ht hg
    have k := hp.trans ht
    refine ⟨?_, ?_, ?_, hg⟩
    · rw [k.msm]; exact k2 ▸ h.source
    · rw [k.scanCount]; exact k1 ▸ h.scans
    · rw [k.hbc]; exact k3 ▸ h.absent
  unfold resetHeadSteps
  dsimp only
  split
  · refine close _ (motion_retakeStd _).toSteady ?_
    unfold retakeStd
    rw [view_arriveStd, view_openStd, hu]
    refine ⟨View.agrees_std (.inr ⟨rfl, rfl, rfl⟩) hl.window hl.watch ?_ hl.fault, View.heeded_std (.inr rfl) rfl⟩
    simpa [View.enter] using hl.period
  · exact close _ (motion_nextMove _).toSteady (good_nextMove (hu ▸ hl))

theorem steered_applyReset {s : State} (h : Steered s) : Steered (applyReset s) := by
  have h1 := fun x (hx : x.seq = none) => steered_returnAbsents s.hbc.heads
    (steered_withHbc (x := x) (absentFinished_noSeq hx) h)
  unfold applyReset
  dsimp only
  split
  · next hs => exact steered_resetHeadSteps (h1 _ rfl) hs
  · exact h1 _ rfl

theorem absentFinished_reference {h : Hbc} (named : PerRef Bool) (n : Cycle) (d : Downlink) :
    absentFinished { h with
      heldRef := none, downlink := d, seq := some ⟨n, false, (addressedSet h named).map freshEntry, false⟩ } := by
  intro q k e hq he ha
  obtain rfl := Option.some.inj hq
  rw [PerRef.get_map] at he
  have hnot : (addressedSet h named).get k = false := by
    have ha' : (h.heads.get k.chan).state = .absent := ha
    cases k <;> simp [addressedSet, PerRef.get, ha']
  rw [hnot] at he
  cases he

theorem steered_sendReference (named : PerRef Bool) {s : State} (h : Steered s) : Steered (sendReference named s) :=
  steered_ite (steered_withHbc (absentFinished_reference named _ _) h)
    (steered_headStepsDone (steered_withHbc h.absent h))

theorem nextFetch_phase {q : Sequence} {c : RefChan} (h : nextFetch q = some c) :
    ∃ e, q.entries.get c = some e ∧ e.phase = .doneSeen := by
  unfold nextFetch at h
  split at h
  · cases h
  have k := List.find?_some h
  cases he : q.entries.get c with
  | none => simp [he] at k
  | some e =>
    simp only [he, Option.elim_some, Bool.and_eq_true, beq_iff_eq] at k
    exact ⟨e, rfl, k.2⟩

theorem steered_sendFetch {q : Sequence} {c : RefChan} {s : State} (hq : s.hbc.seq = some q) (hc : nextFetch q = some c)
    (h : Steered s) : Steered (sendFetch q c s) := by
  refine steered_withHbc ?_ h
  intro q' k e hq' he ha
  obtain rfl := Option.some.inj hq'
  dsimp only at he
  rw [PerRef.get_set] at he
  split at he
  · next hk =>
    subst hk
    obtain ⟨e0, he0, hp⟩ := nextFetch_phase hc
    have := h.absent q k e0 hq he0 ha
    rw [hp] at this
    cases this
  · exact h.absent q k e hq he ha

theorem steered_chooseDownlink {s : State} (h : Steered s) : Steered (chooseDownlink s) := by
  unfold chooseDownlink
  split
  · next q _ hq =>
    split
    · next c hc => exact steered_sendFetch hq hc h
    · exact steered_withHbc h.absent h
  · exact steered_sendReference _ h
  · exact steered_withHbc h.absent h

theorem steered_beginCycle {s : State} (h : Steered s) : Steered (beginCycle s) := by
  have h1 : Steered (applyMask (numberCycle s)) := steered_applyMask (steered_withHbc h.absent h)
  exact steered_settleDrive (steered_ite (steered_applyReset h1) (steered_chooseDownlink h1))

end Sys2Proof.Machine
end

section
/-! PROOFS. The traverse keeps the blocks in agreement with the carriage (R16 … R19, R117, R151). -/

namespace Sys2Proof.Machine

open Safety

/-! ### Holds and the traverse start (R16, R18) -/

/-- Where park override would send the carriage on, one that is active is still untaken. -/
theorem View.Heeded.free {v : View} (h : v.Heeded) (hm : overrideMoves v.carriage = true) :
    v.override = true → v.untaken = true := by
  intro ho
  cases e : v.untaken with
  | true => rfl
  | false => rw [h.taken ho e] at hm; cases hm

theorem view_armOwed (s : State) : (armOwed s).view = s.view := by
  unfold armOwed; split <;> rfl

theorem steered_armOwed {s : State} (h : Steered s) : Steered (armOwed s) :=
  steered_of_steady (motion_armOwed s).toSteady h (by rw [view_armOwed]; exact h.view)

/-- R18: HELD mid-traverse, with the traverse still in progress. -/
theorem steered_heldMidTraverse {s : State} (h : Steered s) (hs : s.cmu.state = .traverse) :
    Steered (want 0 (setCarriage .held (s.withCmu { s.cmu with hold := .none, turnOwed := false }))) := by
  have hv : s.view.carriage = .traverse := hs
  have ha := h.view.1
  obtain ⟨hstep, hset⟩ := ha.idle (by simp [hv]) (by simp [hv])
  have hin : s.view.inTraverse = true := by simp [View.inTraverse, hv]
  have hwin : s.view.window = true := ha.window.2 hin
  have hwat : s.view.watch = true := ha.watch.2 hin
  have hper : s.view.period = false := Bool.eq_false_iff.2 fun e => by simpa [hv] using ha.period.1 e
  have hfau : s.view.motionFault = false := Bool.eq_false_iff.2 fun e => by simpa [hv] using ha.fault.1 e
  have he : (want 0 (setCarriage .held (s.withCmu { s.cmu with hold := .none, turnOwed := false }))).view =
      { s.view.enter .held with turnOwed := false } :=
    (view_setCarriage .held _).trans rfl
  have k := ((motion_withCmu s { s.cmu with hold := .none, turnOwed := false }).trans
    (motion_setCarriage .held _)).trans (motion_want 0 _)
  refine steered_of_steady k.toSteady h ?_
  rw [he]
  refine ⟨?_, h.view.2.waits, fun ho hu => ?_⟩
  · constructor <;> simp [View.inTraverse, View.enter, hv, hstep, hset, hwin, hwat, hper, hfau]
  · exact absurd ((h.view.2.free (by rw [hv]; rfl) ho).symm.trans hu) (by simp)

theorem steered_checkCommandPoint {s : State} (h : Steered s) : Steered (checkCommandPoint s) := by
  unfold checkCommandPoint
  split
  · split
    · next hc => exact steered_osqOccasion (steered_heldMidTraverse h hc.1)
    · exact h
  · exact h

theorem startMap_keeps (d : Dir) (s : State) : (startMap d s).view = { s.view with watch := true } ∧
    (startMap d s).ebm.map.isSome = true ∧ (startMap d s).msm = s.msm ∧ (startMap d s).osq = s.osq ∧
    (startMap d s).hbc = s.hbc := by
  unfold startMap State.setAlarm
  dsimp only
  split <;> exact ⟨rfl, rfl, rfl, rfl, rfl⟩

theorem startWindow_keeps (d : Dir) (r : Bool) {s : State} (hm : s.ebm.map.isSome = true) :
    (startWindow d r s).view = { s.view with window := true } ∧ (startWindow d r s).msm = s.msm ∧
    (startWindow d r s).osq = s.osq ∧ (startWindow d r s).hbc = s.hbc := by
  unfold startWindow
  split
  · next e => simp [e] at hm
  · exact ⟨rfl, rfl, rfl, rfl⟩

/-- The carriage's own part of a traverse start, with its command. -/
def traverseEntered (d : Dir) (s : State) : State :=
  let t := (setCarriage .traverse s).withCmu (startCmu d (setCarriage .traverse s).cmu)
  want (dirSign d * t.scanSpeed) t

/-- The traverse start up to the holds. -/
def traverseOpened (d : Dir) (s : State) : State :=
  startWindow d s.cmu.retraverseOwed (startMap d (applyPendingGrade (traverseEntered d s)))

theorem traverseStart_eq (d : Dir) (s : State) : traverseStart d s =
    checkCommandPoint (armOwed ((traverseOpened d s).withMsm { (traverseOpened d s).msm with holeSeen := false })) := rfl

theorem view_traverseEntered (d : Dir) (s : State) : (traverseEntered d s).view = s.view.enter .traverse :=
  (show (traverseEntered d s).view = (setCarriage .traverse s).view from rfl).trans (view_setCarriage ..)

theorem traverseOpened_keeps (d : Dir) (s : State) :
    (traverseOpened d s).view = { s.view.enter .traverse with window := true, watch := true } ∧
    (traverseOpened d s).msm = s.msm ∧ (traverseOpened d s).osq.scanCount = s.osq.scanCount ∧
    (traverseOpened d s).hbc = s.hbc := by
  obtain ⟨a1, a2, a3, a4, a5⟩ := startMap_keeps d (applyPendingGrade (traverseEntered d s))
  obtain ⟨b1, b2, b3, b4⟩ := startWindow_keeps d s.cmu.retraverseOwed a2
  have k := (motion_applyPendingGrade (traverseEntered d s)).toSteady
  refine ⟨?_, ?_, ?_, ?_⟩
  · unfold traverseOpened
    rw [b1, a1, view_applyPendingGrade, view_traverseEntered]
  · exact b2.trans (a3.trans k.msm)
  · unfold traverseOpened
    rw [b3, a4]
    exact k.scanCount
  · exact b4.trans (a5.trans k.hbc)

/-- R16: a traverse started from TO_LIMIT or TURNING. -/
theorem steered_traverseStart (d : Dir) {s : State} (h : Steered s)
    (hs : s.cmu.state = .toLimit ∨ s.cmu.state = .turning) : Steered (traverseStart d s) := by
  obtain ⟨hv, hm, hn, hh⟩ := traverseOpened_keeps d s
  have hc : s.view.carriage = .toLimit ∨ s.view.carriage = .turning := hs
  have hmoves : overrideMoves s.view.carriage = true := by rcases hc with e | e <;> rw [e] <;> rfl
  have hl : s.view.Loose := by
    refine h.view.1.loose h.view.2.waits ?_ ?_ ?_ ?_
    all_goals rcases hc with e | e <;> simp [e, View.inTraverse]
  rw [traverseStart_eq]
  refine steered_checkCommandPoint (steered_armOwed (steered_withMsm rfl rfl ?_))
  refine ⟨hm ▸ h.source, hn ▸ h.scans, hh ▸ h.absent, ?_⟩
  rw [hv]
  refine ⟨?_, hl.waits, fun ho hu => absurd ((h.view.2.free hmoves ho).symm.trans hu) (by simp)⟩
  constructor <;> simp [View.inTraverse, View.enter, hl.step, hl.settle, hl.fault]
  exact hl.period

/-! ### The traverse end (R17, R117) -/

/-- R153: in THREAD and RUN the monitor's source is clear, and to clear it again changes nothing. -/
theorem clearMsmSource_of_clear {s : State} (h : s.msm.source = false) (hw : s.cmu.overrideWait = 0) :
    clearMsmSource s = s := by
  have hf : flushOverride s = s := flushOverride_of_taken (by simp [Cmu.overrideUntaken, hw])
  have hs : s.withMsm { s.msm with source := false } = s := by
    have e : { s.msm with source := false } = s.msm := by rw [← h]
    rw [e, State.withMsm_self]
  unfold clearMsmSource
  rw [hf]
  exact (congrArg (overrideCleared s.override) hs).trans (by simp [overrideCleared])

/-- What a publication and what follows it leave: the carriage, its drive, the head bus, the sequencer, the converter, the token and
the queue of commands; and of the recipes all but the settle count. -/
structure Reported (s t : State) : Prop where
  held : t.held = s.held
  cmu : t.cmu = s.cmu
  drive : t.drive = s.drive
  hbc : t.hbc = s.hbc
  osq : t.osq = s.osq
  scv : t.scv = s.scv
  cta : t.cta = s.cta
  common : t.rbs.common = s.rbs.common
  banks : t.rbs.banks = s.rbs.banks
  active : t.rbs.active = s.rbs.active
  pendingGrade : t.rbs.pending = s.rbs.pending
  source : t.msm.source = s.msm.source
  pending : t.pending = s.pending
  rst : t.rst = s.rst
  rate : t.rate = s.rate

theorem Reported.refl (s : State) : Reported s s := by constructor <;> rfl

theorem Reported.trans {s t u : State} (h : Reported s t) (k : Reported t u) : Reported s u :=
  ⟨k.held.trans h.held, k.cmu.trans h.cmu, k.drive.trans h.drive, k.hbc.trans h.hbc, k.osq.trans h.osq, k.scv.trans h.scv,
    k.cta.trans h.cta, k.common.trans h.common, k.banks.trans h.banks, k.active.trans h.active,
    k.pendingGrade.trans h.pendingGrade, k.source.trans h.source, k.pending.trans h.pending, k.rst.trans h.rst,
    k.rate.trans h.rate⟩

theorem reported_activate (s : State) (i : PointNo) : Reported s (s.activate i) := by constructor <;> rfl
theorem reported_returnAlarm (s : State) (i : PointNo) : Reported s (s.returnAlarm i) := by constructor <;> rfl

theorem reported_setAlarm (s : State) (i : PointNo) (on : Bool) : Reported s (s.setAlarm i on) := by
  unfold State.setAlarm
  split
  · exact reported_activate s i
  · exact reported_returnAlarm s i

theorem reported_foldl {α : Type} {f : State → α → State} (hf : ∀ s a, Reported s (f s a)) (l : List α) (s : State) :
    Reported s (l.foldl f s) := by
  induction l generalizing s with
  | nil => exact Reported.refl s
  | cons a l ih => exact (hf s a).trans (ih _)

theorem reported_jumpAlarm (i : PointNo) (o : SideOutcome) (s : State) : Reported s (jumpAlarm i o s) := by
  cases o with
  | none => exact Reported.refl s
  | accepted => exact reported_returnAlarm s i
  | jump => exact reported_activate s i

theorem reported_withEbm (s : State) (x : Ebm) : Reported s (s.withEbm x) := by constructor <;> rfl
theorem reported_withAzm (s : State) (x : Azm) : Reported s (s.withAzm x) := by constructor <;> rfl
theorem reported_withPen (s : State) (x : Pen) : Reported s (s.withPen x) := by constructor <;> rfl
theorem reported_withPorts (s : State) (x : PerPort PortState) : Reported s (s.withPorts x) := by constructor <;> rfl
theorem reported_withMsm (s : State) (x : Msm) (h : x.source = s.msm.source := by rfl) : Reported s (s.withMsm x) :=
  { Reported.refl s with source := h, held := rfl }

theorem reported_trackEdges (s : State) : Reported s (trackEdges s) :=
  ((reported_withEbm s _).trans (reported_jumpAlarm ..)).trans (reported_jumpAlarm ..)

theorem reported_evaluateProp (b : GradeBank) (g : Generation) (s : State) (p : Prop4) :
    Reported s (evaluateProp b g s p) := by
  unfold evaluateProp
  dsimp only
  split
  · exact Reported.refl s
  split
  · exact ((reported_setAlarm ..).trans (reported_setAlarm ..)).trans (reported_setAlarm ..)
  · exact Reported.refl s

theorem reported_evaluateLimits (g : Generation) (s : State) : Reported s (evaluateLimits g s) := by
  unfold evaluateLimits
  split
  · split
    · split
      · exact reported_foldl (fun _ _ => reported_evaluateProp ..) _ s
      · exact Reported.refl s
    · exact { Reported.refl s with held := rfl, common := rfl }
  · exact Reported.refl s

theorem reported_returnHole (s : State) : Reported s (returnHole s) := by
  unfold returnHole
  split
  · exact Reported.refl s
  · exact reported_returnAlarm s _

/-- R151, R152: with the source clear the width test's entry into RUN moves no carriage. -/
theorem changeState_run_of_clear (cause : StateCause) (o : OverrideOrder) {s : State} (h : s.msm.source = false)
    (hw : s.cmu.overrideWait = 0) : changeState .run cause o s =
      ((stateNotice .run s.msm.state cause (s.withMsm (enteredMsm .run s))).returnAlarm ptBreak).unsuppressAll := by
  rw [changeState_run]
  refine clearMsmSource_of_clear ?_ ?_
  · simpa [stateNotice, State.notifyAll_eq, enteredMsm_source] using h
  · simpa [stateNotice, State.notifyAll_eq] using hw

theorem reported_notifyAll (s : State) (k : Byte) (pl : List Byte) : Reported s (s.notifyAll k pl) := by
  constructor <;> rfl

theorem reported_unsuppressAll (s : State) : Reported s s.unsuppressAll := by constructor <;> rfl

theorem reported_widthTest (g : Generation) {s : State}
    (h : s.msm.state = .thread → s.msm.source = false ∧ s.cmu.overrideWait = 0) : Reported s (widthTest g s) := by
  unfold widthTest
  split
  · next ht =>
    obtain ⟨hs, hw⟩ := h ht.2
    split
    · split
      · exact reported_withMsm s _
      · rw [changeState_run_of_clear _ _ hs hw]
        exact (((reported_withMsm s _ (enteredMsm_source ..)).trans (reported_notifyAll ..)).trans
          (reported_returnAlarm ..)).trans (reported_unsuppressAll _)
    · exact reported_withMsm s _
  · exact Reported.refl s

/-- In THREAD the monitor's source is clear and no override waits. -/
theorem Steered.clear_of_thread {s : State} (h : Steered s) (hs : s.msm.state = .thread) :
    s.msm.source = false ∧ s.cmu.overrideWait = 0 := by
  have hsrc : s.msm.source = false := Bool.eq_false_iff.2 fun e => by
    rcases h.source.1 e with k | k <;> simp [hs] at k
  refine ⟨hsrc, ?_⟩
  have hu : s.cmu.overrideUntaken = false := Bool.eq_false_iff.2 fun e => by
    have := h.view.2.waits e
    exact absurd (hsrc.symm.trans this) (by simp)
  exact (overrideUntaken_eq_false _).1 hu

/-- The machine monitor is left as it is by all that follows a publication before the width test. -/
theorem trackEdges_keeps (s : State) : (trackEdges s).msm = s.msm ∧ (trackEdges s).pen = s.pen ∧
    (trackEdges s).ebm.watch.opened = false := by
  have j : ∀ (i : PointNo) (o : SideOutcome) (t : State), (jumpAlarm i o t).msm = t.msm ∧ (jumpAlarm i o t).pen = t.pen ∧
      (jumpAlarm i o t).ebm = t.ebm := by
    intro i o t
    cases o <;> exact ⟨rfl, rfl, rfl⟩
  unfold trackEdges
  dsimp only
  simp only [(j _ _ _).1, (j _ _ _).2.1, (j _ _ _).2.2, State.withEbm_msm, State.withEbm_pen, State.withEbm_ebm,
    closeWatch_opened, and_self]

theorem evaluateProp_keeps (b : GradeBank) (g : Generation) (s : State) (p : Prop4) :
    (evaluateProp b g s p).msm = s.msm ∧ (evaluateProp b g s p).pen = s.pen ∧ (evaluateProp b g s p).ebm = s.ebm := by
  have a : ∀ (i : PointNo) (on : Bool) (t : State), (t.setAlarm i on).msm = t.msm ∧ (t.setAlarm i on).pen = t.pen ∧
      (t.setAlarm i on).ebm = t.ebm := by
    intro i on t
    cases on <;> exact ⟨rfl, rfl, rfl⟩
  unfold evaluateProp
  dsimp only
  split
  · exact ⟨rfl, rfl, rfl⟩
  split
  · simp only [(a _ _ _).1, (a _ _ _).2.1, (a _ _ _).2.2, and_self]
  · exact ⟨rfl, rfl, rfl⟩

theorem evaluateLimits_keeps (g : Generation) (s : State) : (evaluateLimits g s).msm = s.msm ∧
    (evaluateLimits g s).pen = s.pen ∧ (evaluateLimits g s).ebm = s.ebm := by
  have f : ∀ (b : GradeBank) (l : List Prop4) (t : State), (l.foldl (evaluateProp b g) t).msm = t.msm ∧
      (l.foldl (evaluateProp b g) t).pen = t.pen ∧ (l.foldl (evaluateProp b g) t).ebm = t.ebm := by
    intro b l
    induction l with
    | nil => exact fun _ => ⟨rfl, rfl, rfl⟩
    | cons p l ih =>
      intro t
      obtain ⟨h1, h2, h3⟩ := ih (evaluateProp b g t p)
      obtain ⟨k1, k2, k3⟩ := evaluateProp_keeps b g t p
      exact ⟨h1.trans k1, h2.trans k2, h3.trans k3⟩
  unfold evaluateLimits
  split
  · split
    · split
      · exact f _ _ s
      · exact ⟨rfl, rfl, rfl⟩
    · exact ⟨rfl, rfl, rfl⟩
  · exact ⟨rfl, rfl, rfl⟩

theorem returnHole_keeps (s : State) : (returnHole s).msm = s.msm ∧ (returnHole s).pen = s.pen ∧
    (returnHole s).ebm = s.ebm := by
  unfold returnHole; split <;> exact ⟨rfl, rfl, rfl⟩

/-- The state that the width test takes, after a publication. -/
def beforeWidthTest (g : Generation) (s : State) : State :=
  returnHole (evaluateLimits g ((trackEdges s).withAzm (azmPublish g (trackEdges s).azm)))

theorem afterPublish_eq (g : Generation) (s : State) : afterPublish g s =
    (widthTest g (beforeWidthTest g s)).withPorts
      ((widthTest g (beforeWidthTest g s)).ports.map (servePort g (widthTest g (beforeWidthTest g s)).azm)) := rfl

theorem reported_beforeWidthTest (g : Generation) (s : State) : Reported s (beforeWidthTest g s) :=
  (((reported_trackEdges s).trans (reported_withAzm _ _)).trans (reported_evaluateLimits g _)).trans (reported_returnHole _)

theorem beforeWidthTest_keeps (g : Generation) (s : State) : (beforeWidthTest g s).msm = s.msm ∧
    (beforeWidthTest g s).pen = s.pen ∧ (beforeWidthTest g s).ebm.watch.opened = false := by
  let u := (trackEdges s).withAzm (azmPublish g (trackEdges s).azm)
  obtain ⟨a1, a2, a3⟩ := trackEdges_keeps s
  obtain ⟨b1, b2, b3⟩ := evaluateLimits_keeps g u
  obtain ⟨c1, c2, c3⟩ := returnHole_keeps (evaluateLimits g u)
  refine ⟨c1.trans (b1.trans a1), c2.trans (b2.trans a2), ?_⟩
  show (returnHole (evaluateLimits g u)).ebm.watch.opened = false
  rw [c3, b3]
  exact a3

/-- The width test leaves the PEN and the EBM, whatever it finds. -/
theorem widthTest_keeps (g : Generation) {s : State} (h : s.msm.state = .thread → s.msm.source = false ∧ s.cmu.overrideWait = 0) :
    (widthTest g s).pen = s.pen ∧ (widthTest g s).ebm = s.ebm ∧
    ((widthTest g s).msm.state = s.msm.state ∨ s.msm.state = .thread ∧ (widthTest g s).msm.state = .run) := by
  unfold widthTest
  split
  · next ht =>
    obtain ⟨hs, hw⟩ := h ht.2
    split
    · split
      · exact ⟨rfl, rfl, .inl rfl⟩
      · rw [changeState_run_of_clear _ _ hs hw]
        refine ⟨by simp [stateNotice, State.notifyAll_eq], by simp [stateNotice, State.notifyAll_eq], .inr ⟨ht.2, ?_⟩⟩
        simp [stateNotice, State.notifyAll_eq, enteredMsm_state]
    · exact ⟨rfl, rfl, .inl rfl⟩
  · exact ⟨rfl, rfl, .inl rfl⟩

/-- What follows a publication, with the width test's condition met. -/
theorem afterPublish_keeps (g : Generation) {s : State}
    (h : s.msm.state = .thread → s.msm.source = false ∧ s.cmu.overrideWait = 0) :
    Reported s (afterPublish g s) ∧ (afterPublish g s).pen = s.pen ∧ (afterPublish g s).ebm.watch.opened = false ∧
    ((afterPublish g s).msm.state = s.msm.state ∨ s.msm.state = .thread ∧ (afterPublish g s).msm.state = .run) := by
  have r := reported_beforeWidthTest g s
  obtain ⟨b1, b2, b3⟩ := beforeWidthTest_keeps g s
  have h' : (beforeWidthTest g s).msm.state = .thread →
      (beforeWidthTest g s).msm.source = false ∧ (beforeWidthTest g s).cmu.overrideWait = 0 := by
    rw [b1, r.cmu]; exact h
  obtain ⟨w1, w2, w3⟩ := widthTest_keeps g h'
  rw [b1] at w3
  refine ⟨(r.trans (reported_widthTest g h')).trans (reported_withPorts _ _), w1.trans b2, ?_, w3⟩
  show (widthTest g (beforeWidthTest g s)).ebm.watch.opened = false
  rw [w2, b3]

theorem breakPins_reported (n : ScanNo) (s : State) : Reported s (breakPins n s) := by constructor <;> rfl

theorem reported_publish (w : Window) (s : State) : Reported s (publish w s).2 := by
  unfold publish
  dsimp only
  cases s.pen.slots[takeSlot s.pen] with
  | none => exact reported_withPen s _
  | some old => exact (breakPins_reported old.scan s).trans (reported_withPen _ _)

theorem publish_keeps (w : Window) (s : State) : (publish w s).2.msm = s.msm ∧ (publish w s).2.ebm = s.ebm ∧
    (publish w s).2.pen.window = none ∧ (publish w s).2.pen.period = s.pen.period := by
  unfold publish
  dsimp only
  cases s.pen.slots[takeSlot s.pen] <;> exact ⟨rfl, rfl, rfl, rfl⟩

/-- R117: a publication closes the window and the watch and leaves the carriage as it is. -/
theorem publishTraverse_keeps {s : State} (h : Steered s) (hs : s.cmu.state = .traverse) :
    Reported s (publishTraverse s) ∧ (publishTraverse s).view = { s.view with window := false, watch := false } ∧
    sourceOk (publishTraverse s).msm := by
  have hv : s.view.carriage = .traverse := hs
  have hw : s.pen.window.isSome = true := h.view.1.window.2 (by simp [View.inTraverse, hv])
  obtain ⟨w, hw⟩ := Option.isSome_iff_exists.1 hw
  have r := reported_publish w s
  obtain ⟨p1, p2, p3, p4⟩ := publish_keeps w s
  obtain ⟨a1, a2, a3, a4⟩ := afterPublish_keeps (publish w s).1 (s := (publish w s).2)
    (by rw [p1, r.cmu]; exact h.clear_of_thread)
  have e : publishTraverse s = afterPublish (publish w s).1 (publish w s).2 := by unfold publishTraverse; rw [hw]
  rw [p1] at a4
  rw [e]
  have rr := r.trans a1
  refine ⟨rr, ?_, ?_⟩
  · unfold State.view
    simp only [rr.cmu, rr.osq, rr.source, a2, a3, p3, p4, Option.isSome_none]
  · unfold sourceOk
    rw [rr.source]
    rcases a4 with k | ⟨k1, k2⟩
    · rw [k]; exact h.source
    · rw [k2, (h.clear_of_thread k1).1]; simp

theorem view_countScan (s : State) : (countScan s).view = s.view := (view_intervalCheck _).trans rfl

/-- R17: the carriage's choice at a traverse end, with the traverse published. -/
theorem good_chooseAtEnd {s : State} (hl : s.view.Loose) (ho : s.view.override = true → s.view.untaken = true)
    (hc : s.cmu.state = .traverse) : (chooseAtEnd s).view.Good := by
  unfold chooseAtEnd
  split
  · exact good_beginStd hl
  split
  · have e : (holdAtLimit s).view = { s.view.enter .held with turnOwed := true } :=
      (view_applyPendingGrade _).trans ((view_setCarriage .held _).trans rfl)
    rw [e]
    have hv : s.view.carriage = .traverse := hc
    refine ⟨?_, hl.waits, fun a b => absurd ((ho a).symm.trans b) (by simp)⟩
    have hp : s.view.period = false := hl.period (by simp [hv])
    constructor <;> simp [View.inTraverse, View.enter, hl.step, hl.settle, hl.window, hl.watch, hl.fault, hv, hp]
  split
  · exact good_goPark goodNext_nextMove hl
  · exact good_goFixed goodNext_nextMove hl ho
  · unfold turnaround
    dsimp only
    have turn : ∀ d, (enterTurning d (computeLimits s)).view.Good := by
      intro d
      rw [view_enterTurning]
      exact ⟨hl.agrees_enter rfl (by simp), (hl.enter _).heeded_free ho⟩
    have limit : (goLimit (computeLimits s)).view.Good := good_goLimit hl ho
    split
    · split
      · exact turn _
      · exact limit
    · split
      · exact turn _
      · exact limit

theorem steered_traverseEnd {s : State} (h : Steered s) (hs : s.cmu.state = .traverse) : Steered (traverseEnd s) := by
  have hv : s.view.carriage = .traverse := hs
  have ha := h.view.1
  obtain ⟨hstep, hset⟩ := ha.idle (by simp [hv]) (by simp [hv])
  have hper : s.view.period = false := Bool.eq_false_iff.2 fun e => by simpa [hv] using ha.period.1 e
  have hfau : s.view.motionFault = false := Bool.eq_false_iff.2 fun e => by simpa [hv] using ha.fault.1 e
  have hfree := h.view.2.free (by rw [hv]; rfl)
  have h0 : Steered (want 0 s) := steered_congr h
  obtain ⟨r, hview, hsrc⟩ := publishTraverse_keeps h0 hs
  let t := publishTraverse (want 0 s)
  let u := computeLimits (countScan (applyPendingPlan t))
  have huv : u.view = { s.view with window := false, watch := false } := by
    show (countScan (applyPendingPlan t)).view = _
    rw [view_countScan, view_applyPendingPlan]
    exact hview
  have hl : u.view.Loose := by
    rw [huv]
    exact ⟨hstep, hset, rfl, rfl, fun _ => hper, hfau, h.view.2.waits⟩
  have k1 := (motion_applyPendingPlan t).toSteady
  have k2 := ((motion_intervalCheck ((applyPendingPlan t).withOsq { (applyPendingPlan t).osq with
    scanCount := satInc 255 (applyPendingPlan t).osq.scanCount })).trans (motion_computeLimits _)).toSteady
  have k3 := (motion_chooseAtEnd u).toSteady
  refine ⟨?_, ?_, ?_, good_chooseAtEnd hl (by rw [huv]; exact hfree) ?_⟩
  · show sourceOk (chooseAtEnd u).msm
    rw [k3.msm]
    show sourceOk (computeLimits (countScan (applyPendingPlan t))).msm
    rw [show (computeLimits (countScan (applyPendingPlan t))).msm = (applyPendingPlan t).msm from k2.msm, k1.msm]
    exact hsrc
  · show (chooseAtEnd u).osq.scanCount ≤ 255
    rw [k3.scanCount]
    rw [show u.osq.scanCount = satInc 255 (applyPendingPlan t).osq.scanCount from k2.scanCount]
    unfold satInc
    omega
  · show absentFinished (chooseAtEnd u).hbc
    rw [k3.hbc, show u.hbc = (applyPendingPlan t).hbc from k2.hbc, k1.hbc, show t.hbc = s.hbc from r.hbc]
    exact h.absent
  · show u.view.carriage = .traverse
    rw [huv]
    exact hv

end Sys2Proof.Machine
end

section
/-! PROOFS. Every command keeps the blocks in agreement with the carriage, and so every step does (R9, R20, R44, R48, R53, R91, R107,
R128, R153). -/

namespace Sys2Proof.Machine

open Safety

/-! ### Encoder counts (R3, R14 … R18) -/

/-- A carriage travelling outside standardization, traverse and FAULT may choose its motion. -/
theorem Steered.loose {s : State} (h : Steered s) (hs : plainState s.cmu.state = true) : s.view.Loose := by
  have hv : plainState s.view.carriage = true := hs
  refine h.view.1.loose h.view.2.waits ?_ ?_ ?_ ?_ <;>
    cases e : s.view.carriage <;> simp [View.inTraverse, e, plainState] at hv ⊢

theorem steered_arriveStd {s : State} (h : Steered s) (hs : s.cmu.state = .toStd) : Steered (arriveStd s) := by
  have hv : s.view.carriage = .toStd := hs
  have ha := h.view.1
  refine steered_of_steady (motion_arriveStd s).toSteady h ?_
  rw [view_arriveStd]
  have hin : s.view.inTraverse = false := by simp [View.inTraverse, hv]
  refine ⟨View.agrees_std (.inr ⟨rfl, rfl, rfl⟩) ?_ ?_ ?_ ?_, h.view.2.waits, fun _ _ => rfl⟩
  · exact Bool.eq_false_iff.2 fun e => by simpa [hin] using ha.window.1 e
  · exact Bool.eq_false_iff.2 fun e => by simpa [hin] using ha.watch.1 e
  · exact Bool.eq_false_iff.2 fun e => by simpa [hv, View.enter] using ha.period.1 (by simpa [View.enter, hv] using e)
  · exact Bool.eq_false_iff.2 fun e => by simpa [hv] using ha.fault.1 e

theorem steered_enterTurning (d : Dir) {s : State} (h : Steered s) (hs : s.cmu.state = .toLimit) :
    Steered (enterTurning d s) := by
  have hl := h.loose (by rw [hs]; rfl)
  refine steered_of_steady (motion_enterTurning d s).toSteady h ?_
  rw [view_enterTurning]
  exact ⟨hl.agrees_enter rfl (by simp), (hl.enter _).heeded_free (h.view.2.free (by
    show overrideMoves s.cmu.state = true
    rw [hs]; rfl))⟩

theorem steered_arrivals (d : Dir) {s : State} (h : Steered s) : Steered (arrivals d s) := by
  have dich : ∀ (b : Bool) (t : State), Steered t → Steered (if b then t else s) := by
    intro b t k
    cases b
    · exact h
    · exact k
  unfold arrivals
  dsimp only
  split
  · next hs =>
    exact dich _ _ (steered_of_steady (motion_arriveParked motion_nextMove s).toSteady h
      (good_arriveParked goodNext_nextMove (h.loose (by rw [hs]; rfl))))
  · next hs =>
    exact dich _ _ (steered_of_steady (motion_arriveFixed motion_nextMove s).toSteady h
      (good_arriveFixed goodNext_nextMove (h.loose (by rw [hs]; rfl)) (by simp [hs])
        (h.view.2.free (by show overrideMoves s.cmu.state = true; rw [hs]; rfl))))
  · next hs => exact dich _ _ (steered_arriveStd h hs)
  · next hs =>
    refine dich _ _ ?_
    split
    · exact steered_traverseStart _ h (.inl hs)
    · exact steered_enterTurning _ h hs
  · next hs => exact steered_ite (steered_traverseStart _ h (.inr hs)) h
  · next hs => exact steered_ite (steered_traverseEnd h hs) (steered_checkCommandPoint h)
  all_goals exact h

theorem steered_countCompares (d : Dir) {s : State} (h : Steered s) : Steered (countCompares d s) :=
  steered_ite (steered_ite (steered_arrivals d h) (steered_enterFault .encoder h)) h

theorem steered_overrideAfterCount (was : CarriageState) {s : State} (h : Steered s) :
    Steered (overrideAfterCount was s) := by
  unfold overrideAfterCount
  split
  · next hw =>
    have h2 : 2 ≤ s.cmu.overrideWait := hw.2
    have hu : s.view.untaken = true := by simp [State.view, Cmu.overrideUntaken]; omega
    have hv : (s.withCmu { s.cmu with overrideWait := s.cmu.overrideWait - 1 }).view = s.view := by
      have e : (s.withCmu { s.cmu with overrideWait := s.cmu.overrideWait - 1 }).view.untaken = true := by
        simp [State.view, Cmu.overrideUntaken]; omega
      have e2 : (s.withCmu { s.cmu with overrideWait := s.cmu.overrideWait - 1 }).view =
          { s.view with untaken := (s.withCmu { s.cmu with overrideWait := s.cmu.overrideWait - 1 }).view.untaken } := rfl
      rw [e2, e, ← hu]
    exact steered_congr h (hv := hv)
  · exact steered_flushOverride h

theorem steered_encoderCount (d : Dir) {s : State} (h : Steered s) : Steered (encoderCount d s) :=
  steered_settleDrive (steered_overrideAfterCount _ (steered_countCompares d (steered_congr h)))

theorem steered_encoderSkip {s : State} (h : Steered s) : Steered (encoderSkip s) := by
  unfold encoderSkip
  dsimp only
  have h1 := fun (p : Phase) => steered_congr h (t := s.withCmu { s.cmu with phase := p })
  split
  · exact h1 _
  have h2 : ∀ (p : Phase) (n : Nat), Steered ((s.withCmu { s.cmu with phase := p }).withCmu
    { (s.withCmu { s.cmu with phase := p }).cmu with skipCount := n }) := fun p n => steered_congr (h1 p)
  split
  · exact steered_settleDrive (steered_enterFault .encoder (h2 _ _))
  · exact h2 _ _

/-! ### Time, records, lines and timers -/

theorem steered_tick {s : State} (h : Steered s) : Steered s.tick := by
  have hv : s.tick.view = s.view := by
    unfold State.view
    simp [State.tick]
  exact steered_congr h (hv := hv)

theorem isSome_periodTake (machine : MachineState) (r : MRecord) (p : Pen) :
    (periodTake machine r p).period.isSome = p.period.isSome ∧ (periodTake machine r p).window = p.window := by
  unfold periodTake
  split
  · exact ⟨rfl, rfl⟩
  next f hf =>
  split
  · dsimp only
    split <;> exact ⟨by rw [hf]; rfl, rfl⟩
  · exact ⟨rfl, rfl⟩

theorem steered_cycleRecordFormed {s : State} (h : Steered s) : Steered (cycleRecordFormed s) :=
  steered_ite (steered_withHbc (s := s.withScv _) h.absent (steered_congr h)) h

theorem steered_penTakeRecord {s : State} (h : Steered s) : Steered (penTakeRecord s) := by
  unfold penTakeRecord
  split
  · exact h
  · next r rest _ =>
    obtain ⟨hp, hw⟩ := isSome_periodTake s.msm.state r { s.pen with window := s.pen.window.map (windowTake s.msm.state r) }
    refine steered_congr h (hv := ?_)
    refine (view_withPen _ _ ?_ ?_).trans rfl
    · show (periodTake s.msm.state r _).window.isSome = _
      rw [hw]
      exact Option.isSome_map
    · exact hp

theorem watchReading_opened (sheet : Option Bool) (p : Int) (w : EdgeWatch) : (watchReading sheet p w).opened = w.opened := by
  have c : ∀ x : Bool, (takeChange x p { w with gap := 0 }).opened = w.opened := by
    intro x
    unfold takeChange
    split
    · rfl
    split <;> rfl
  unfold watchReading
  split
  · rfl
  · dsimp only
    split
    · rfl
    · split
      · rfl
      · exact c _

theorem ebmTake_opened (r : MRecord) (w : EdgeWatch) : (ebmTake r w).opened = w.opened := by
  unfold ebmTake
  split
  · exact watchReading_opened _ _ _
  · rfl

theorem steered_ebmTakeRecord {s : State} (h : Steered s) : Steered (ebmTakeRecord s) := by
  unfold ebmTakeRecord
  split
  · exact h
  · next r rest _ =>
    refine steered_congr h (hv := ?_)
    unfold State.view
    simp [ebmTake_opened]

theorem steered_setRun (x : Option SheetRun) {s : State} (h : Steered s) : Steered (setRun x s) :=
  steered_withMsm rfl rfl h

theorem steered_msmTake (r : MRecord) (o : OverrideOrder) {s : State} (h : Steered s) : Steered (msmTake r o s) := by
  unfold msmTake
  split
  · exact steered_setRun none h
  split
  · exact steered_ite (steered_takeCause _ _ _ _ _ (steered_setRun _ h)) (steered_setRun _ h)
  · unfold takeSet
    split
    · exact h
    · exact steered_ite (steered_activate _ (steered_withMsm (s := setRun none s) rfl rfl (steered_setRun none h)))
        (steered_setRun none h)
  · exact steered_setRun _ h

theorem steered_msmTakeRecord (o : OverrideOrder) {s : State} (h : Steered s) : Steered (msmTakeRecord o s) := by
  unfold msmTakeRecord
  split
  · exact h
  · exact steered_settleDrive (steered_msmTake _ o (steered_congr h))

/-- A homed carriage at rest or homing applies the pending plan and takes its next motion. -/
theorem steered_choose {s : State} (h : Steered s) (hl : s.view.Loose) : Steered (nextMove (applyPendingPlan s)) :=
  steered_of_steady ((motion_applyPendingPlan s).trans (motion_nextMove _)).toSteady h
    (good_nextMove (by rw [view_applyPendingPlan]; exact hl))

/-- The parts of the rule that a move leaves alone, when the carriage may choose its motion. -/
structure Adrift (s : State) : Prop where
  source : sourceOk s.msm
  scans : s.osq.scanCount ≤ 255
  absent : absentFinished s.hbc
  loose : s.view.Loose

theorem Adrift.move {s t : State} (h : Adrift s) (k : Steady s t) (hg : t.view.Good) : Steered t :=
  ⟨k.msm ▸ h.source, k.scanCount ▸ h.scans, k.hbc ▸ h.absent, hg⟩

theorem Adrift.choose {s : State} (h : Adrift s) : Steered (nextMove (applyPendingPlan s)) :=
  h.move ((motion_applyPendingPlan s).trans (motion_nextMove _)).toSteady
    (good_nextMove (by rw [view_applyPendingPlan]; exact h.loose))

theorem Steered.adrift {s : State} (h : Steered s) (hs : plainState s.cmu.state = true) : Adrift s :=
  ⟨h.source, h.scans, h.absent, h.loose hs⟩

/-- R11: HOME found by a carriage with nothing in progress. -/
theorem Adrift.home {s : State} (h : Adrift s) : Steered (arriveHome s) := by
  have h' : Adrift (want 0 (s.withCmu { s.cmu with position := 0, homed := true, skipCount := 0 })) :=
    ⟨h.source, h.scans, h.absent, h.loose⟩
  exact h'.choose

theorem Adrift.homing {s : State} (h : Adrift s) : Steered (enterHoming s) := by
  have k := ((motion_setCarriage .homing s).trans (motion_want (-(s.rbs.common.homeSpeed : Int)) _)).toSteady
  have hv : (want (-(s.rbs.common.homeSpeed : Int)) (setCarriage .homing s)).view = s.view.enter .homing :=
    view_setCarriage .homing s
  have hl := h.loose.enter .homing
  have h' : Adrift (want (-(s.rbs.common.homeSpeed : Int)) (setCarriage .homing s)) :=
    ⟨k.msm ▸ h.source, k.scanCount ▸ h.scans, k.hbc ▸ h.absent, hv ▸ hl⟩
  unfold enterHoming
  dsimp only
  split
  · exact h'.home
  · exact ⟨h'.source, h'.scans, h'.absent, hv ▸ ⟨h.loose.agrees_enter rfl (by simp), hl.heeded rfl⟩⟩

theorem steered_drvfltConfirmed (active : Bool) {s : State} (h : Steered s) : Steered (drvfltConfirmed active s) := by
  have h1 : Steered (s.withCmu { s.cmu with drvflt := confirmLine 2 active s.cmu.drvflt }) := steered_congr h
  unfold drvfltConfirmed
  dsimp only
  split
  · exact h1
  split
  · exact steered_ite (steered_settleDrive (steered_enterFault .drive h1)) h1
  split
  · next hs => exact steered_settleDrive (h1.adrift (by rw [hs]; rfl)).homing
  · exact h1

theorem steered_homeConfirmed (active : Bool) {s : State} (h : Steered s) : Steered (homeConfirmed active s) := by
  have h1 : Steered (s.withCmu { s.cmu with home := confirmLine 2 active s.cmu.home }) := steered_congr h
  unfold homeConfirmed
  dsimp only
  split
  · next hc => exact steered_settleDrive (h1.adrift (by rw [hc.2.2]; rfl)).home
  · exact h1

theorem steered_dwellEnd {s : State} (h : Steered s) : Steered (dwellEnd s) := by
  unfold dwellEnd
  split
  · exact steered_congr h
  · exact h

theorem steered_settleExpiry {s : State} (h : Steered s) : Steered (settleExpiry s) := by
  unfold settleExpiry
  split
  · next hs =>
    have hc : s.view.carriage = .atStd := h.view.1.stands.1 (.inl hs)
    have ha := h.view.1
    let u := (s.withOsq { s.osq with step := .reference, settle := none }).withHbc
      { s.hbc with heldRef := some (enabledRefs s.hbc) }
    have hv : u.view = { s.view with step := .reference, settle := false } := rfl
    show Steered u
    refine ⟨h.source, h.scans, h.absent, ?_⟩
    rw [hv]
    refine ⟨⟨?_, ?_, ?_, ?_, ha.window, ha.watch, ha.period, ha.fault⟩, h.view.2.waits, h.view.2.taken⟩
    · exact ⟨fun e => (by cases e), fun e => absurd (hc.symm.trans e) (by simp)⟩
    · exact ⟨fun _ => hc, fun _ => .inr (.inl rfl)⟩
    · exact ⟨fun e => (by cases e), fun e => (by cases e)⟩
    · exact fun e => by cases e
  · exact h

theorem steered_overdueExpiry {s : State} (h : Steered s) : Steered (overdueExpiry s) :=
  steered_ite (steered_activate _ (s := s.withOsq _) (steered_congr h)) h

theorem steered_breakLineConfirmed (l : BreakLine) (high : Bool) (o : OverrideOrder) {s : State} (h : Steered s) :
    Steered (breakLineConfirmed l high o s) :=
  steered_settleDrive (steered_readingChanged l _ o (steered_withMsm rfl rfl h))

/-! ### The links -/

theorem steered_updPort (p : Port) (f : PortState → PortState) {s : State} (h : Steered s) : Steered (s.updPort p f) :=
  steered_congr h

theorem steered_leaveToken (old : Port) (silent : Bool) {s : State} (h : Steered s) : Steered (leaveToken old silent s) := by
  have hc : ∀ c : Cmu, (clearOwedHold c).state = c.state ∧ (clearOwedHold c).turnOwed = c.turnOwed ∧
      (clearOwedHold c).overrideUntaken = c.overrideUntaken ∧ (clearOwedHold c).parkSource = c.parkSource ∧
      (clearOwedHold c).motionFault = c.motionFault := by
    intro c
    rcases clearOwedHold_cases c with ⟨_, _, e⟩ | ⟨_, e⟩ <;> rw [e] <;> exact ⟨rfl, rfl, rfl, rfl, rfl⟩
  obtain ⟨c1, c2, c3, c4, c5⟩ := hc s.cmu
  have hv : ({ s with cmu := clearOwedHold s.cmu } : State).view = s.view := by
    unfold State.view
    simp only [c1, c2, c3, c4, c5]
  have h1 : Steered { s with cmu := clearOwedHold s.cmu } := steered_congr h (hv := hv)
  rw [leaveToken_eq]
  split
  · exact steered_congr h1
  · exact steered_updPort _ _ (steered_congr h1)

theorem steered_becomeSilent (p : Port) {s : State} (h : Steered s) : Steered (becomeSilent p s) := by
  have h1 : Steered (silencedPort p s) := steered_congr h
  have h2 : Steered (silenceToken p (silencedPort p s)) := steered_ite (steered_leaveToken p true h1) (steered_congr h1)
  have h3 := steered_activate (ptPortSilent p) h2
  rw [becomeSilent_eq]
  cases p with
  | quality => exact h3
  | machine => exact h3
  | actuator => exact steered_congr h3

theorem steered_acceptMessage (p : Port) (r : Receiver) (m : InMsg) (n : Nat) {s : State} (h : Steered s) :
    Steered (acceptMessage p r m n s) := by
  have h1 := steered_updPort p (validPort r n) h
  exact steered_updPort _ _ (steered_ite (steered_returnAlarm _ h1) h1)

theorem steered_messageReceived (p : Port) (cs : List RxChar) {s : State} (h : Steered s) :
    Steered (messageReceived p cs s) := by
  unfold messageReceived
  split
  · exact steered_acceptMessage _ _ _ _ h
  · exact h

theorem steered_badMessage (p : Port) (cs : List RxChar) {s : State} (h : Steered s) : Steered (badMessage p cs s) := by
  unfold badMessage
  split
  · exact steered_updPort _ _ h
  · exact h

theorem steered_characterReceived (p : Port) (c : RxChar) {s : State} (h : Steered s) :
    Steered (characterReceived p c s) := by
  unfold characterReceived
  split
  · exact steered_updPort _ _ h
  · exact steered_updPort _ _ h
  · exact steered_acceptMessage _ _ _ _ h

theorem steered_intercharTimeout (p : Port) {s : State} (h : Steered s) : Steered (intercharTimeout p s) := by
  unfold intercharTimeout
  split
  · exact h
  · exact steered_updPort _ _ h

theorem steered_readChunk (p : Port) {s : State} (h : Steered s) : Steered (readChunk p s) := by
  unfold readChunk
  split
  · split
    · split
      · have h1 := fun g r => steered_updPort p (afterChunk g r) h
        dsimp only
        split
        · exact steered_congr (h1 _ _)
        · exact h1 _ _
      · exact h
    · exact h
  · exact h
  · exact h

theorem steered_supersededChunk (p : Port) {s : State} (h : Steered s) : Steered (supersededChunk p s) := by
  unfold supersededChunk
  split
  · exact steered_ite (steered_updPort _ _ h) h
  · exact h
  · exact h

/-! ### The owners of requests -/

/-- An owner that keeps the rule. -/
def OwnerSteers (owner : Owner) : Prop := ∀ p m s, Steered s → Steered (owner p m s).1

theorem steered_takeMessage (p : Port) (accepts : InMsg → Bool) {s : State} (h : Steered s) :
    Steered (takeMessage p accepts s) := by
  unfold takeMessage
  split
  · exact h
  · exact steered_ite (steered_updPort _ _ h) h

theorem steered_answerHandled (p : Port) (accepts : InMsg → Bool) {owner : Owner} (ho : OwnerSteers owner) {s : State}
    (h : Steered s) : Steered (answerHandled p accepts owner s) := by
  unfold answerHandled
  split
  · exact h
  · exact steered_ite (steered_ite (steered_updPort _ _ h) (steered_updPort _ _ (ho _ _ _ h))) h

theorem steered_request (g : Stage) (p : Port) (accepts : InMsg → Bool) {owner : Owner} (ho : OwnerSteers owner) {s : State}
    (h : Steered s) : Steered (request g p accepts owner s) := by
  cases g with
  | take => exact steered_takeMessage p accepts h
  | answer => exact steered_answerHandled p accepts ho h
  | whole => exact steered_ite h (steered_answerHandled p accepts ho (steered_takeMessage p accepts h))

theorem ownerSteers_withToken {owner : Owner} (ho : OwnerSteers owner) : OwnerSteers (withToken owner) := by
  intro p m s h
  unfold withToken
  split
  · exact ho p m s h
  · exact h

theorem ownerSteers_claim : OwnerSteers ownClaim := by
  intro p m s h
  unfold ownClaim
  split
  · exact steered_congr h
  split
  · exact h
  · exact steered_congr h

theorem ownerSteers_release : OwnerSteers ownRelease := by
  intro p m s h
  unfold ownRelease
  split
  · exact steered_leaveToken p false h
  split
  · exact steered_congr h
  · exact h

/-- A standardization taken, or a motion chosen, from HELD mid-traverse, at a limit or at rest. -/
theorem steered_actHeld {s : State} (h : Steered s) (hs : s.cmu.state = .held) : Steered (actHeld s) := by
  have hl := h.view.1.loose_abort h.view.2.waits (by simp [hs]) (by simp [hs]) (by simp [hs])
  unfold actHeld
  split
  · exact steered_osqOccasion h
  split
  · exact steered_of_steady (motion_takeStd s).toSteady h (good_takeStd hl)
  · have k := ((motion_abortTraverse s).trans (motion_withCmu _ { (abortTraverse s).cmu with turnOwed := false })).trans
      (motion_nextMove _)
    refine steered_of_steady k.toSteady h (good_nextMove ?_)
    exact ⟨hl.step, hl.settle, hl.window, hl.watch, hl.period, hl.fault, hl.waits⟩

theorem steered_nextMove {s : State} (h : Steered s) (hs : plainState s.cmu.state = true) : Steered (nextMove s) :=
  steered_of_steady (motion_nextMove s).toSteady h (good_nextMove (h.loose hs))

theorem steered_actOnPlan (was : ScanPlan) {s : State} (h : Steered s) : Steered (actOnPlan was s) := by
  unfold actOnPlan
  split
  · next hs => exact steered_nextMove h (by rw [hs]; rfl)
  · next hs => exact steered_ite (steered_osqOccasion h) (steered_nextMove h (by rw [hs]; rfl))
  · next hs => exact steered_actHeld h hs
  all_goals exact h

theorem steered_applyPlan (p : ScanPlan) {s : State} (h : Steered s) : Steered (applyPlan p s) :=
  steered_of_steady (steady_applyPlan p s) h (by rw [view_applyPlan]; exact h.view)

theorem ownerSteers_setPlan : OwnerSteers ownSetPlan := by
  intro p m s h
  unfold ownSetPlan
  split
  · exact h
  · exact steered_settleDrive (steered_ite (steered_actOnPlan _ (steered_applyPlan _ (steered_flushOverride h)))
      (steered_congr (steered_flushOverride h)))

theorem steered_takeHold {s : State} (h : Steered s) : Steered (takeHold s).1 := by
  unfold takeHold
  split
  · exact steered_settleDrive (steered_ite h (steered_checkCommandPoint (s := s.withCmu _) (steered_congr h)))
  · exact steered_congr h
  · exact steered_congr h
  all_goals exact h

/-- R19: a carriage HELD mid-traverse goes on. -/
theorem steered_resumeTraverse (hold : Hold) {s : State} (h : Steered s) (hs : s.cmu.state = .held)
    (ht : s.cmu.turnOwed = false) : Steered (resumeTraverse hold s) := by
  have hv : s.view.carriage = .held := hs
  have hturn : s.view.turnOwed = false := ht
  have ha := h.view.1
  obtain ⟨hstep, hset⟩ := ha.idle (by simp [hv]) (by simp [hv])
  have hin : s.view.inTraverse = true := by simp [View.inTraverse, hv, hturn]
  have hper : s.view.period = false := Bool.eq_false_iff.2 fun e => by simpa [hv] using ha.period.1 e
  have hfau : s.view.motionFault = false := Bool.eq_false_iff.2 fun e => by simpa [hv] using ha.fault.1 e
  let t := setCarriage .traverse (s.withCmu { s.cmu with hold := hold })
  let u := want (dirSign t.cmu.direction * t.scanSpeed) t
  have hu : u.view = s.view.enter .traverse := (view_setCarriage .traverse _).trans rfl
  have k := ((motion_withCmu s { s.cmu with hold := hold }).trans (motion_setCarriage .traverse _)).trans
    (motion_want (dirSign t.cmu.direction * t.scanSpeed) _)
  have hsu : Steered u := by
    refine steered_of_steady k.toSteady h ?_
    rw [hu]
    refine ⟨?_, h.view.2.waits, fun a b => absurd ((h.view.2.free (by rw [hv]; rfl) a).symm.trans b) (by simp)⟩
    constructor <;> simp [View.inTraverse, View.enter, hv, hstep, hset, hper, hfau, ha.window.2 hin, ha.watch.2 hin]
  show Steered (checkTarget u)
  unfold checkTarget
  split
  · exact steered_ite (steered_traverseEnd hsu rfl) hsu
  · exact hsu

/-- R19: the turnaround owed is taken. -/
theorem steered_resumeTurn (hold : Hold) {s : State} (h : Steered s) (hs : s.cmu.state = .held)
    (ht : s.cmu.turnOwed = true) : Steered (resumeTurn hold s) := by
  have hv : s.view.carriage = .held := hs
  have hturn : s.view.turnOwed = true := ht
  have hl0 := h.view.1.loose h.view.2.waits (by simp [hv]) (by simp [hv]) (by simp [View.inTraverse, hv, hturn])
    (by simp [hv])
  have hfree := h.view.2.free (by rw [hv]; rfl)
  let u := computeLimits (s.withCmu { s.cmu with hold := hold, turnOwed := false })
  have hl : u.view.Loose := ⟨hl0.step, hl0.settle, hl0.window, hl0.watch, hl0.period, hl0.fault, hl0.waits⟩
  have k := (motion_withCmu s { s.cmu with hold := hold, turnOwed := false }).trans (motion_turnaround _)
  refine steered_of_steady k.toSteady h ?_
  have turn : ∀ d, (enterTurning d u).view.Good := by
    intro d
    rw [view_enterTurning]
    exact ⟨hl.agrees_enter rfl (by simp), (hl.enter _).heeded_free hfree⟩
  have limit : (goLimit u).view.Good := good_goLimit hl hfree
  unfold resumeTurn turnaround
  dsimp only
  split
  · split
    · exact turn _
    · exact limit
  · split
    · exact turn _
    · exact limit

theorem steered_resumeHeld (a b : Hold) {s : State} (h : Steered s) (hs : s.cmu.state = .held) :
    Steered (if s.cmu.turnOwed then resumeTurn a s else resumeTraverse b s) := by
  split
  · next ht => exact steered_resumeTurn a h hs ht
  · next ht => exact steered_resumeTraverse b h hs (by simpa using ht)

theorem steered_takeResume {s : State} (h : Steered s) : Steered (takeResume s).1 := by
  unfold takeResume
  split
  · next hs => exact steered_settleDrive (steered_resumeHeld _ _ h hs)
  · split
    · exact steered_congr h
    · exact h
  all_goals exact h

theorem steered_takeStep {s : State} (h : Steered s) : Steered (takeStep s).1 := by
  unfold takeStep
  split
  · next hs => exact steered_settleDrive (steered_resumeHeld _ _ h hs)
  · exact h

theorem steered_recordRequest {s : State} (h : Steered s) : Steered (recordRequest s) := by
  unfold recordRequest
  split
  · exact h
  split
  · exact steered_settleDrive (steered_osqOccasion (s := (setDue s).withOsq _) (steered_congr (steered_setDue h)))
  all_goals exact steered_congr h

/-- R10: FAULT cleared: the motion-fault source is clear, and the carriage still stands where the fault left it. -/
theorem adrift_faultCleared {s : State} (h : Steered s) (hs : s.cmu.state = .fault) : Adrift (faultCleared s) := by
  have hv : s.view.carriage = .fault := hs
  have ha := h.view.1
  obtain ⟨hstep, hset⟩ := ha.idle (by simp [hv]) (by simp [hv])
  have hin : s.view.inTraverse = false := by simp [View.inTraverse, hv]
  let u := (s.withCmu { s.cmu with skipCount := 0, faultCause := .none, motionFault := false }).returnAlarm ptMotionFault
  have hu : u.view = { s.view with motionFault := false } := rfl
  have k := steady_overrideCleared s.override u
  have hview : (faultCleared s).view = u.view := view_overrideCleared _ (by
    show s.cmu.state ≠ .parked
    simp [hs])
  refine ⟨?_, ?_, ?_, ?_⟩
  · show sourceOk (overrideCleared s.override u).msm
    rw [k.msm]; exact h.source
  · show (overrideCleared s.override u).osq.scanCount ≤ 255
    rw [k.scanCount]; exact h.scans
  · show absentFinished (overrideCleared s.override u).hbc
    rw [k.hbc]; exact h.absent
  · rw [hview, hu]
    refine ⟨hstep, hset, ?_, ?_, fun _ => ?_, rfl, h.view.2.waits⟩
    · exact Bool.eq_false_iff.2 fun e => by simpa [hin] using ha.window.1 e
    · exact Bool.eq_false_iff.2 fun e => by simpa [hin] using ha.watch.1 e
    · exact Bool.eq_false_iff.2 fun e => by simpa [hv] using ha.period.1 e

theorem ownerSteers_faultClear : OwnerSteers ownFaultClear := by
  intro p m s h
  unfold ownFaultClear
  split
  · exact h
  split
  · exact h
  next hs =>
  split
  · exact h
  · have k := adrift_faultCleared h (by simpa using hs)
    show Steered (clearFault s)
    rw [clearFault_eq]
    exact steered_settleDrive (steered_ite k.choose k.homing)

theorem steered_setParkSource {s : State} (h : Steered s) : Steered (setParkSource s) := by
  have ha := h.view.1
  exact steered_settleDrive (steered_takeOverride_of (s := s.withCmu { s.cmu with parkSource := true }) h.source h.scans
    h.absent ⟨ha.travel, ha.stands, ha.settle, ha.commit, ha.window, ha.watch, ha.period, ha.fault⟩)

theorem steered_clearParkSource {s : State} (h : Steered s) : Steered (clearParkSource s) := by
  have h1 := steered_flushOverride h
  have ha := h1.view.1
  have h2 : Steered ((flushOverride s).withCmu { (flushOverride s).cmu with parkSource := false }) := by
    refine ⟨h1.source, h1.scans, h1.absent,
      ⟨ha.travel, ha.stands, ha.settle, ha.commit, ha.window, ha.watch, ha.period, ha.fault⟩, h1.view.2.waits,
      fun x y => h1.view.2.taken ?_ y⟩
    have x' : ((flushOverride s).msm.source || false || (flushOverride s).cmu.motionFault) = true := x
    show ((flushOverride s).msm.source || (flushOverride s).cmu.parkSource || (flushOverride s).cmu.motionFault) = true
    simp only [Bool.or_false, Bool.or_eq_true] at x' ⊢
    exact x'.elim (fun h => .inl (.inl h)) .inr
  exact steered_settleDrive (steered_overrideCleared _ h2)

theorem ownerSteers_park : OwnerSteers ownPark := by
  intro p m s h
  unfold ownPark
  split
  · exact steered_clearParkSource h
  · exact steered_setParkSource h
  · exact h

theorem ownerSteers_speed (o : OverrideOrder) : OwnerSteers (ownSpeed o) := by
  intro p m s h
  unfold ownSpeed
  dsimp only
  split
  · exact h
  · exact steered_settleDrive (steered_compareSpeed _ _ (steered_withMsm rfl rfl h))

theorem ownerSteers_declare (o : OverrideOrder) : OwnerSteers (ownDeclare o) := by
  intro p m s h
  have k := fun n c o => steered_settleDrive (steered_changeState n c o h)
  unfold ownDeclare
  split
  · unfold declareDown
    split
    · exact h
    all_goals exact k _ _ _
  · unfold declareThreading
    split
    · exact k _ _ _
    all_goals exact h
  · unfold declareSheetOn
    split
    · exact k _ _ _
    · exact k _ _ _
    all_goals exact h
  · unfold declareBreak
    split
    · exact h
    all_goals exact steered_settleDrive (steered_takeCause _ _ _ _ _ h)
  · exact h

theorem steered_withAlarms (ap : AltPorts) {s : State} (h : Steered s) : Steered (s.withAlarms ap) := steered_congr h

theorem ownerSteers_ackAlarm : OwnerSteers ownAckAlarm := by
  intro p m s h
  unfold ownAckAlarm
  split
  · split
    · exact h
    · have h1 := steered_withAlarms ‹AltPorts› h
      refine steered_foldl (fun _ _ k => steered_updPort _ _ k) _ ?_
      unfold ackBreak
      exact steered_ite (steered_withMsm (updNewest_state ..) (updNewest_source ..) h1) h1
  · exact h

/-! ### RESTART (R207) -/

/-- R24: after a restart's blocks the carriage stands where it was, with nothing in progress. -/
theorem restartBlocks_keeps {s : State} (h : Steered s) : sourceOk (restartBlocks s).msm ∧
    (restartBlocks s).osq.scanCount ≤ 255 ∧ absentFinished (restartBlocks s).hbc ∧
    (restartBlocks s).view = { s.view with
      turnOwed := false, untaken := false, source := true, step := .idle, settle := false, window := false, watch := false
      period := false } := by
  obtain ⟨_, ho, hh, hm, _⟩ := abortTraverse_fields s
  let u := abortStdWith abandonUntilReset (abortTraverse s)
  obtain ⟨k1, k2, k3⟩ := abortStdWith_keeps abandonUntilReset (abortTraverse s)
  have hidle : (abortTraverse s).view.step = .idle → (abortTraverse s).view.settle = false := by
    intro e
    have e' : s.view.step = .idle := (congrArg Osq.step ho).symm.trans e
    have k : s.view.settle = false := Bool.eq_false_iff.2 fun x => by simpa [e'] using h.view.1.settle.1 x
    exact (congrArg (fun q : Osq => q.settle.isSome) ho).trans k
  have hu : u.view = { (abortTraverse s).view with step := .idle, settle := false } :=
    view_abortStdWith abandonUntilReset _ hidle
  have habs : absentFinished u.hbc := by
    show absentFinished (abortStdWith abandonUntilReset (abortTraverse s)).hbc
    rw [k3, hh]
    split
    · exact h.absent
    · intro q k e hq he ha
      obtain ⟨q0, hq0, rfl⟩ := Option.map_eq_some_iff.1 hq
      exact h.absent q0 k e hq0 he ha
  rw [restartBlocks_eq]
  refine ⟨⟨fun _ => .inl rfl, fun _ => rfl⟩, ?_, habs, ?_⟩
  · show u.osq.scanCount ≤ 255
    rw [k1, ho]; exact h.scans
  · have hv : (restartCleared u).view = { u.view with
        turnOwed := false, untaken := false, source := true, window := false, watch := false, period := false } := rfl
    rw [show restartCleared (abortStdWith abandonUntilReset (abortTraverse s)) = restartCleared u from rfl, hv, hu,
      view_abortTraverse]
    split <;> rfl

theorem reactivate_keeps (s : State) : (reactivate s).view = s.view ∧ (reactivate s).msm = s.msm ∧
    (reactivate s).osq.scanCount = s.osq.scanCount ∧ (reactivate s).hbc = s.hbc := by
  have f : ∀ t : State, (if t.cmu.state = .fault then t.activate ptMotionFault else t).view = t.view ∧
      (if t.cmu.state = .fault then t.activate ptMotionFault else t).msm = t.msm ∧
      (if t.cmu.state = .fault then t.activate ptMotionFault else t).osq = t.osq ∧
      (if t.cmu.state = .fault then t.activate ptMotionFault else t).hbc = t.hbc := by
    intro t
    split <;> exact ⟨rfl, rfl, rfl, rfl⟩
  obtain ⟨a, b, c, d⟩ := f s
  unfold reactivate
  generalize (if s.cmu.state = .fault then s.activate ptMotionFault else s) = u at a b c d
  dsimp only
  have g : ∀ x : Bool, (u.withOsq { u.osq with overdue := x }).view = u.view := fun _ => rfl
  split
  · exact ⟨(g _).trans a, b, (show u.osq.scanCount = _ from congrArg Osq.scanCount c), d⟩
  · exact ⟨(g _).trans a, b, (show u.osq.scanCount = _ from congrArg Osq.scanCount c), d⟩

/-- R24: the carriage states a restart leaves as they are. -/
theorem View.Agrees.restarted {v : View} (h : v.Agrees) (hm : restartMoves v.carriage = false) : View.Agrees { v with
      turnOwed := false, untaken := false, source := true, step := .idle, settle := false, window := false, watch := false
      period := false } := by
  have hf := h.fault
  constructor <;> cases e : v.carriage <;> simp_all [View.inTraverse, restartMoves]

theorem ownerSteers_restart : OwnerSteers ownRestart := by
  intro p m s h
  obtain ⟨a1, a2, a3, a4⟩ := restartBlocks_keeps h
  obtain ⟨b1, b2, b3, b4⟩ := reactivate_keeps (restartBlocks s)
  let u := reactivate (restartBlocks s)
  have hv : u.view = _ := b1.trans a4
  have hs : sourceOk u.msm := b2 ▸ a1
  have hn : u.osq.scanCount ≤ 255 := b3 ▸ a2
  have hh : absentFinished u.hbc := b4 ▸ a3
  have hc : u.cmu.state = s.cmu.state := congrArg View.carriage hv
  refine steered_settleDrive ?_
  show Steered (if restartMoves u.cmu.state then goPark nextMove u else u)
  split
  · next hmv =>
    rw [hc] at hmv
    have hfault : s.view.motionFault = false := Bool.eq_false_iff.2 fun e => by
      have k : s.cmu.state = .fault := h.view.1.fault.1 e
      rw [k] at hmv; cases hmv
    have hl : u.view.Loose := by
      rw [hv]
      exact ⟨rfl, rfl, rfl, rfl, fun _ => rfl, hfault, fun _ => rfl⟩
    have k := (motion_goPark motion_nextMove u).toSteady
    exact ⟨k.msm ▸ hs, k.scanCount ▸ hn, k.hbc ▸ hh, good_goPark goodNext_nextMove hl⟩
  · next hmv =>
    have hmv' : restartMoves s.view.carriage = false := by
      show restartMoves s.cmu.state = false
      rw [← hc]; simpa using hmv
    refine ⟨hs, hn, hh, ?_⟩
    rw [hv]
    refine ⟨h.view.1.restarted hmv', fun e => (by cases e), fun _ _ => ?_⟩
    cases e : s.view.carriage <;> simp_all [restartMoves, overrideMoves]

theorem ownerSteers_headRestart : OwnerSteers ownHeadRestart := fun _ _ _ h => steered_withHbc h.absent h

/-! ### The owners that read and write -/

/-- A stream started moves no carriage. -/
theorem ownerSteers_readProfile : OwnerSteers ownReadProfile := by
  intro p m s h
  unfold ownReadProfile
  split
  · exact h
  unfold openStream
  split
  · exact h
  split
  · exact h
  split
  · exact h
  · dsimp only
    exact steered_congr h

theorem ownerSteers_readSummary : OwnerSteers ownReadSummary := by
  intro p m s h
  unfold ownReadSummary
  split
  · exact h
  split <;> exact h

theorem ownerSteers_readZones : OwnerSteers ownReadZones := by
  intro p m s h
  unfold ownReadZones
  split
  · exact h
  split <;> exact h

theorem ownerSteers_readFixed : OwnerSteers ownReadFixed := by
  intro p m s h
  unfold ownReadFixed
  split <;> exact h

theorem ownerSteers_setDescriptor : OwnerSteers ownSetDescriptor := by
  intro p m s h
  unfold ownSetDescriptor
  split
  · exact h
  · exact steered_congr h

theorem ownerSteers_writeBank : OwnerSteers ownWriteBank := by
  intro p m s h
  unfold ownWriteBank
  split
  · exact h
  split
  · exact h
  split
  · exact h
  · exact steered_congr h

theorem ownerSteers_writeZoneMap : OwnerSteers ownWriteZoneMap := by
  intro p m s h
  unfold ownWriteZoneMap
  split
  · exact h
  · exact steered_congr h
  · exact steered_congr h

theorem steered_gradeNotice (k : BankNo) (p : Port) (was : Option (BankNo × Port)) {s : State} (h : Steered s) :
    Steered (gradeNotice k p was s) := by
  unfold gradeNotice
  split
  · exact h
  · exact steered_updPort _ _ h

theorem ownerSteers_selectGrade : OwnerSteers ownSelectGrade := by
  intro p m s h
  unfold ownSelectGrade
  split
  · exact h
  split
  · exact h
  split
  · exact steered_gradeNotice _ _ _ (s := s.withRbs _) (steered_congr h)
  split
  · next k _ _ _ _ => exact steered_of_steady (motion_applyGrade k s).toSteady h (by rw [code_fst, view_applyGrade]; exact h.view)
  · unfold pendGrade
    exact steered_ite h (steered_gradeNotice _ _ _ (s := s.withRbs _) (steered_congr h))

theorem steered_applyCommon (es : List (Nat × Nat)) {s : State} (h : Steered s) : Steered (applyCommon es s) := by
  have h1 : Steered (s.withRbs { s.rbs with common := writeEntries s.rbs.common es }) := steered_congr h
  have h2 := steered_ite (c := (s.withRbs { s.rbs with common := writeEntries s.rbs.common es }).rbs.common.crawl =
    s.rbs.common.crawl) h1 (steered_compareSpeed .crawlChange .overrideFirst h1)
  have h3 : ∀ {u : State}, Steered u → Steered (levelEffect s.rbs.common u) := fun k => steered_ite k (steered_withAlarms _ k)
  have h4 : ∀ {u : State} (b : Bool), Steered u → Steered (silenceEffect b u) := fun b k =>
    steered_ite (steered_foldl (fun _ p k => steered_ite (steered_becomeSilent p k) k) _ k) k
  have h5 : ∀ {u : State}, Steered u → Steered (overdueEffect u) := fun {u} k =>
    steered_ite (steered_activate _ (s := u.withOsq _) (steered_congr k))
      (steered_ite (steered_returnAlarm _ (s := u.withOsq _) (steered_congr k)) k)
  have h6 : ∀ {u : State}, Steered u → Steered (linesEffect s.rbs.common s.msm.state u) := fun k =>
    have f := steered_foldl (f := lineEffect s.rbs.common)
      (fun _ _ k => steered_ite (steered_takeCause _ _ _ _ _ k) k) allLines k
    steered_ite k (steered_ite (steered_testLines f) f)
  exact steered_settleDrive (h6 (h5 (h4 _ (h3 h2))))

theorem ownerSteers_writeCommon : OwnerSteers ownWriteCommon := by
  intro p m s h
  unfold ownWriteCommon
  dsimp only
  split
  · exact h
  split
  · exact h
  · exact steered_applyCommon _ h

/-! ### Every command -/

theorem steered_release (rate1 rate0 : Bool) {s : State} (h : Steered s) : Steered (release rate1 rate0 s) := by
  refine steered_beginCycle ?_
  have h1 : Steered { s with held := false, rst := confirmLine 3 false s.rst, rate := rateOf rate1 rate0 } := steered_congr h
  exact steered_ite (steered_setDue h1) h1

theorem steered_powerOnReset (s : State) : Steered (powerOnReset s) :=
  steered_congr ((carriageOk_iff _).1 reset_carriageOk)

theorem steered_whenReleased {f : State → State} (hf : ∀ s, Steered s → Steered (f s)) {s t : State} (hs : Steered s)
    (h : whenReleased s f = .next t) : Steered t := kept_of_effect hf hs h

theorem steered_row {owner : Owner} (ho : OwnerSteers owner) {g : Stage} {p : Port} {accepts : InMsg → Bool} {s t : State}
    (hs : Steered s) (h : whenReleased s (request g p accepts owner) = .next t) : Steered t :=
  kept_of_effect (fun _ k => steered_request g p accepts ho k) hs h

theorem steered_exec {c : Instr} {s t : State} (hs : Steered s) (h : exec c s = .next t) : Steered t := by
  cases c with
  | powerOn => cases h; exact steered_powerOnReset s
  | rstConfirmed => cases h; exact steered_congr (steered_powerOnReset s)
  | rstRelease a b => cases h; exact steered_ite (steered_release a b hs) hs
  | encoderCount d => exact kept_of_effect (fun _ k => steered_encoderCount d k) hs h
  | encoderSkip => exact kept_of_effect (fun _ k => steered_encoderSkip k) hs h
  | driveWordRepeat => exact kept_of_effect (fun _ k => steered_congr k) hs h
  | dwellEnd => exact kept_of_effect (fun _ k => steered_dwellEnd k) hs h
  | stallTimeout =>
    exact kept_of_effect (fun _ k => steered_ite (steered_settleDrive (steered_enterFault .stall k)) k) hs h
  | drvfltConfirmed a => exact kept_of_effect (fun _ k => steered_drvfltConfirmed a k) hs h
  | homeConfirmed a => exact kept_of_effect (fun _ k => steered_homeConfirmed a k) hs h
  | cycleStart => exact kept_of_effect (fun _ k => steered_beginCycle (steered_tick k)) hs h
  | uplinkSample ch w => exact kept_of_effect (fun _ k => steered_uplinkSlot ch w k) hs h
  | missingRunLimit ch w => exact kept_of_effect (fun _ k => steered_losingSlot _ ch w k) hs h
  | ackWindowExpiry ch w => exact kept_of_effect (fun _ k => steered_losingSlot _ ch w k) hs h
  | doneDeadline ch w => exact kept_of_effect (fun _ k => steered_losingSlot _ ch w k) hs h
  | answerWindowExpiry ch w => exact kept_of_effect (fun _ k => steered_losingSlot _ ch w k) hs h
  | cycleRecordFormed => exact kept_of_effect (fun _ k => steered_cycleRecordFormed k) hs h
  | penTakeRecord => exact kept_of_effect (fun _ k => steered_penTakeRecord k) hs h
  | fixedPeriodComplete => exact kept_of_effect (fun _ k => steered_ite (steered_penTakeRecord k) k) hs h
  | ebmWatchRecord => exact kept_of_effect (fun _ k => steered_ebmTakeRecord k) hs h
  | edgeGapLimit => exact kept_of_effect (fun _ k => steered_ite (steered_ebmTakeRecord k) k) hs h
  | msmTakeRecord o => exact kept_of_effect (fun _ k => steered_msmTakeRecord o k) hs h
  | sheetLost o => exact kept_of_effect (fun _ k => steered_ite (steered_msmTakeRecord o k) k) hs h
  | sheetRunGapLimit => exact kept_of_effect (fun _ k => steered_ite (steered_msmTakeRecord _ k) k) hs h
  | settleExpiry => exact kept_of_effect (fun _ k => steered_settleExpiry k) hs h
  | overdueExpiry => exact kept_of_effect (fun _ k => steered_overdueExpiry k) hs h
  | breakLineConfirmed l b o => exact kept_of_effect (fun _ k => steered_breakLineConfirmed l b o k) hs h
  | messageReceived p cs => exact kept_of_effect (fun _ k => steered_messageReceived p cs k) hs h
  | badMessage p cs => exact kept_of_effect (fun _ k => steered_badMessage p cs k) hs h
  | intercharTimeout p => exact kept_of_effect (fun _ k => steered_intercharTimeout p k) hs h
  | portSilent p => exact kept_of_effect (fun _ k => steered_ite (steered_becomeSilent p k) k) hs h
  | messageSent p => exact kept_of_effect (fun _ k => steered_updPort p _ k) hs h
  | readChunk p => exact kept_of_effect (fun _ k => steered_readChunk p k) hs h
  | supersededChunk p => exact kept_of_effect (fun _ k => steered_supersededChunk p k) hs h
  | unknownKind p => exact kept_of_effect (fun _ k => steered_takeMessage p _ k) hs h
  | identify p g => exact steered_row (owner := ownIdentify) (fun _ _ _ k => k) hs h
  | readState p g => exact steered_row (owner := ownReadState) (fun _ _ _ k => steered_congr k) hs h
  | readProfile p g => exact steered_row ownerSteers_readProfile hs h
  | readSummary p g => exact steered_row ownerSteers_readSummary hs h
  | readZones p g => exact steered_row ownerSteers_readZones hs h
  | readFixed p g => exact steered_row ownerSteers_readFixed hs h
  | readAlarms p g => exact steered_row (owner := ownReadAlarms) (fun _ _ _ k => k) hs h
  | readBreakLog p g => exact steered_row (owner := ownReadBreakLog) (fun _ _ _ k => k) hs h
  | writeBank p g => exact steered_row ownerSteers_writeBank hs h
  | writeCommon p g => exact steered_row (ownerSteers_withToken ownerSteers_writeCommon) hs h
  | selectGrade p g => exact steered_row ownerSteers_selectGrade hs h
  | writeZoneMap p g => exact steered_row ownerSteers_writeZoneMap hs h
  | claim p g => exact steered_row ownerSteers_claim hs h
  | release p g => exact steered_row ownerSteers_release hs h
  | setPlan p g => exact steered_row (ownerSteers_withToken ownerSteers_setPlan) hs h
  | hold p g =>
    exact steered_row (ownerSteers_withToken fun _ _ _ k => steered_takeHold (steered_flushOverride k)) hs h
  | step p g =>
    exact steered_row (ownerSteers_withToken fun _ _ _ k => steered_takeStep (steered_flushOverride k)) hs h
  | resume p g =>
    exact steered_row (ownerSteers_withToken fun _ _ _ k => steered_takeResume (steered_flushOverride k)) hs h
  | standardize p g =>
    exact steered_row (ownerSteers_withToken fun _ _ _ k => steered_recordRequest (steered_flushOverride k)) hs h
  | faultClear p g => exact steered_row ownerSteers_faultClear hs h
  | speed p g o => exact steered_row (ownerSteers_speed o) hs h
  | declareDown p g o => exact steered_row (ownerSteers_declare o) hs h
  | declareThreading p g => exact steered_row (ownerSteers_declare _) hs h
  | declareSheetOn p g => exact steered_row (ownerSteers_declare _) hs h
  | declareBreak p g o => exact steered_row (ownerSteers_declare o) hs h
  | parkSet p g => exact steered_row ownerSteers_park hs h
  | parkClear p g => exact steered_row ownerSteers_park hs h
  | ackAlarm p g => exact steered_row ownerSteers_ackAlarm hs h
  | setDescriptor p g => exact steered_row ownerSteers_setDescriptor hs h
  | restart p g => exact steered_row ownerSteers_restart hs h
  | headRestart p g => exact steered_row ownerSteers_headRestart hs h
  | characterReceived p c => exact kept_of_effect (fun _ k => steered_characterReceived p c k) hs h

/-- Settles O59, by `steered_exec`: the rule by its parts, kept by every command. -/
theorem everyStepKeepsTheBlocksWithTheCarriage : Obligations.EveryStepKeepsTheBlocksWithTheCarriage :=
  kept_of_exec (fun _ _ h => h) fun _ _ t hs h => (carriageOk_iff t).2 (steered_exec ((carriageOk_iff _).1 hs) h)

end Sys2Proof.Machine
end

section
/-! PROOFS. The step's front command, the power-on reset and the release (R1). -/

namespace Sys2Proof.Machine

open Safety

/-- Settles O1: a step is the dispatch of the front command on the queue's rest. -/
theorem stepRunsTheFrontCommand : Obligations.StepRunsTheFrontCommand := by
  intro s c rest h
  simp only [step, h]
  rfl

/-- Settles O3, block by block. -/
theorem resetHasThePowerOnValues : Obligations.ResetHasThePowerOnValues := by
  refine ⟨?cmu, ?drive, ?hbc, ?osq, ?rbs, ?common, ?ebm, ?pen, ?azm, ?msm, ?alt, ?cta, ?ports⟩
  case cmu => decide
  case drive => decide
  case hbc => exact ⟨fun ch => by cases ch <;> decide, rfl, rfl, rfl⟩
  case osq => exact ⟨rfl, rfl, rfl, rfl, rfl, fun c => by cases c <;> exact ⟨rfl, rfl⟩⟩
  case rbs => exact ⟨rfl, rfl, rfl, by decide⟩
  case common =>
    exact ⟨rfl, rfl, rfl, rfl, rfl, rfl, fun ch => by cases ch <;> rfl, fun c => by cases c <;> rfl, rfl, rfl, rfl,
      fun l => by cases l <;> exact ⟨rfl, rfl⟩, rfl, rfl⟩
  case ebm => decide
  case pen => exact ⟨rfl, rfl, by decide, fun p => by cases p <;> rfl, rfl, rfl, rfl, rfl, rfl⟩
  case azm => decide
  case msm => exact ⟨rfl, rfl, rfl, rfl, rfl, rfl, rfl, rfl, fun l => by cases l <;> rfl⟩
  case alt => exact ⟨by decide, rfl, rfl⟩
  case cta => decide
  case ports =>
    intro p
    cases p <;> decide

/-- Settles O4: every command of a held part but the three of the reset goes through `whenReleased`. -/
theorem powerOnResetHoldsThePart : Obligations.PowerOnResetHoldsThePart := by
  refine ⟨fun s => ⟨rfl, ?_⟩, fun c s h h1 h2 h3 => ?_⟩
  · show Host.Outcome.next ((powerOnReset s).withRst (confirmLine 3 true s.rst)) = _
    rw [confirmLine_three]
    rfl
  · cases c
    case powerOn => exact absurd rfl h1
    case rstConfirmed => exact absurd rfl h2
    case rstRelease a b => exact absurd rfl (h3 a b)
    case cycleStart => exact whenReleased_of_held (fun s => beginCycle s.tick) h
    all_goals exact whenReleased_of_held _ h

/-- The rate the two strap levels name (R188). -/
theorem rateOf_eq (rate1 rate0 : Bool) :
    rateOf rate1 rate0 = if rate1 then (if rate0 then .r921600 else .r460800) else if rate0 then .r230400 else .r115200 := by
  cases rate1 <;> cases rate0 <;> rfl

/-- An unchanged mask changes nothing (R30). -/
theorem applyMask_of_same {s : State} (h : s.rbs.common.mask = s.hbc.mask) : applyMask s = s := by
  simp [applyMask, h]

/-- No alarm point moves for a head that is in service before and after. -/
theorem absentAlarm_of_service {ch : Channel} {was now : HeadState} (hw : was ≠ .absent) (hn : now ≠ .absent) (s : State) :
    absentAlarm ch was now s = s := by
  simp [absentAlarm, hw, hn]

/-- Heads none of which is ABSENT before or after move no alarm point (R33). -/
theorem returnAbsents_of_service {was : PerChan Head} {s : State} (hw : ∀ ch, (was.get ch).state ≠ .absent)
    (hn : ∀ ch, (s.hbc.heads.get ch).state ≠ .absent) : returnAbsents was s = s := by
  unfold returnAbsents
  induction allChannels with
  | nil => rfl
  | cons ch rest ih => rw [List.foldl_cons, absentAlarm_of_service (hw ch) (hn ch), ih]

/-- The head bus a RESET leaves (R42). -/
def resetBus (h : Hbc) : Hbc :=
  { h with
    heads := mapChan (fun ch => resetHead (h.mask.get ch) (h.heads.get ch))
    seq := none
    heldRef := none
    resetPending := false
    downlink := .reset }

theorem applyReset_eq (s : State) :
    applyReset s =
      let t := returnAbsents s.hbc.heads (s.withHbc (resetBus s.hbc))
      if t.osq.step = .reference ∨ t.osq.step = .fetch then resetHeadSteps t else t := rfl

theorem beginCycle_eq (s : State) :
    beginCycle s =
      (if (applyMask (numberCycle s)).hbc.resetPending then applyReset (applyMask (numberCycle s))
        else chooseDownlink (applyMask (numberCycle s))).settleDrive := rfl

theorem resetHead_state (e : Bool) (hd : Head) : (resetHead e hd).state = if e then .probing else hd.state := by
  cases e <;> rfl

/-- A RESET outside the head steps, with no head ABSENT, changes the head bus alone. -/
theorem applyReset_of_service {s : State} (h : ∀ ch, (s.hbc.heads.get ch).state ≠ .absent)
    (hstep : ¬(s.osq.step = .reference ∨ s.osq.step = .fetch)) : applyReset s = s.withHbc (resetBus s.hbc) := by
  have hreset : ∀ ch, ((s.withHbc (resetBus s.hbc)).hbc.heads.get ch).state ≠ .absent := by
    intro ch
    rw [State.withHbc_hbc, resetBus, mapChan_get, resetHead_state]
    split
    · decide
    · exact h ch
  rw [applyReset_eq, returnAbsents_of_service h hreset]
  exact if_neg hstep

/-- The power-on state as it is when its first cycle begins (R1, R45). -/
def releasedState (queue : List Instr) (line : Sampled) (rate : Rate) : State :=
  { State.reset with
    held := false
    rst := line
    rate := rate
    osq := { osqPowerOn with due := true }
    pending := queue }

/-- The first cycle carries the RESET of the power-on state (R26, R42). -/
theorem beginCycle_releasedState (queue : List Instr) (line : Sampled) (rate : Rate) :
    beginCycle (releasedState queue line rate) =
      ((numberCycle (releasedState queue line rate)).withHbc
        (resetBus (numberCycle (releasedState queue line rate)).hbc)).settleDrive := by
  have hprobing : ∀ ch, ((numberCycle (releasedState queue line rate)).hbc.heads.get ch).state ≠ .absent := by
    intro ch
    cases ch <;> exact nofun
  have hmask : applyMask (numberCycle (releasedState queue line rate)) = numberCycle (releasedState queue line rate) :=
    applyMask_of_same rfl
  have hpending : (numberCycle (releasedState queue line rate)).hbc.resetPending = true := rfl
  rw [beginCycle_eq, hmask, if_pos hpending, applyReset_of_service hprobing (by exact nofun)]

/-- Settles O5: the release is the due standardization of R45 and the first cycle start, computed on the power-on state. -/
theorem releaseStartsTheFirstCycle : Obligations.ReleaseStartsTheFirstCycle := by
  intro queue line rate1 rate0
  have hline : confirmLine 3 false line = ⟨some false, 3, some false⟩ := confirmLine_three false line
  have hrelease : release rate1 rate0 { State.reset with pending := queue, rst := line } =
      beginCycle (releasedState queue (confirmLine 3 false line) (rateOf rate1 rate0)) := rfl
  refine ⟨⟨_, congrArg Host.Outcome.next (hrelease.trans (beginCycle_releasedState ..)), rfl, hline, rateOf_eq rate1 rate0, rfl,
    rfl, rfl, fun ch => by cases ch <;> exact ⟨rfl, rfl⟩, rfl, rfl, rfl, rfl, rfl⟩, fun s h => ?_⟩
  show Host.Outcome.next (if s.held then release rate1 rate0 s else s) = .next s
  simp [h]

end Sys2Proof.Machine
end

section
/-! PROOFS. The drive output's commands (R6, R7), the standardization's timers (R48, R56) and the drift check at COMMIT (R51). -/

namespace Sys2Proof.Machine

open Safety

/-! ### The drive output (R6, R7) -/

theorem exec_released {s : State} {f : State → State} {c : Instr} (hc : exec c s = whenReleased s f) (h : s.held = false) :
    exec c s = .next (f s) := hc.trans (whenReleased_of_released f h)

theorem driveWord_zero : driveWord 0 = 0 := rfl

theorem dwellEnd_of_none {s : State} (h : s.drive.dwell = none) : dwellEnd s = s := by
  simp [dwellEnd, h]

theorem dwellEnd_of_dwell {s : State} (h : s.drive.dwell ≠ none) :
    dwellEnd s = s.withDrive ({ s.drive with dwell := none } : Drive).settle := by
  have hd : s.drive.dwell.isSome = true := Option.isSome_iff_ne_none.2 h
  simp [dwellEnd, hd, State.settleDrive]

/-- A command that differs from the one in force and does not oppose it is sent (R6). -/
theorem Drive.settle_sent {d : Drive} (hd : d.dwell = none) (hn : d.wanted ≠ d.out) (hs : 0 ≤ d.wanted * d.out) :
    d.settle = d.send d.wanted := by
  obtain ⟨h, _⟩ | ⟨_, h, _⟩ | ⟨_, _, h, _⟩ | ⟨_, _, _, h⟩ := d.settle_cases
  · exact absurd hd h
  · exact absurd h hn
  · omega
  · exact h

/-- A command of the opposite sign starts a dwell at zero (R6). -/
theorem Drive.settle_opposed {d : Drive} (hd : d.dwell = none) (hs : d.wanted * d.out < 0) :
    d.settle = { d.send 0 with dwell := some ⟨0, 0⟩ } := by
  obtain ⟨h, _⟩ | ⟨_, h, _⟩ | ⟨_, _, _, h⟩ | ⟨_, _, h, _⟩ := d.settle_cases
  · exact absurd hd h
  · rw [h] at hs
    exact absurd (mul_self_nonneg d.out) (by omega)
  · exact h
  · omega

theorem Drive.send_eq (v : Int) (d : Drive) : d.send v =
    ⟨d.wanted, v, d.dwell, if v = 0 then none else if d.out = 0 then some 0 else d.stall, driveWord v, 0⟩ := rfl

/-- Settles O10, by the four cases of settling. -/
theorem driveOutputSendsTheCommand : Obligations.DriveOutputSendsTheCommand := by
  refine ⟨fun s h => ⟨?_, fun hd => ?_, fun hd ho hw => ?_, fun hd ho hw => ?_⟩,
    fun d hd => ⟨fun hs => ?_, fun hs hn => ?_, fun ho hw => ?_, fun hw ho => ?_⟩⟩
  · exact exec_released (f := driveWordRepeat) rfl h
  · rw [exec_released (f := dwellEnd) rfl h, dwellEnd_of_none hd]
  · have hset : ({ s.drive with dwell := none } : Drive).settle = { s.drive with dwell := none } :=
      Drive.settle_of_settled _ fun _ => ho.trans hw.symm
    rw [exec_released (f := dwellEnd) rfl h, dwellEnd_of_dwell hd, hset]
    rfl
  · have hsent : ({ s.drive with dwell := none } : Drive).settle = ({ s.drive with dwell := none } : Drive).send s.drive.wanted :=
      Drive.settle_sent rfl (fun e => hw (e.trans ho)) (by simp [ho])
    rw [exec_released (f := dwellEnd) rfl h, dwellEnd_of_dwell hd, hsent, Drive.send_eq, if_neg hw, if_pos ho]
    rfl
  · rw [Drive.settle_opposed hd hs, Drive.send_eq, if_pos rfl, driveWord_zero]
  · have hne : d.wanted ≠ 0 ∧ d.out ≠ 0 := by
      constructor <;> intro e <;> simp [e] at hs
    rw [Drive.settle_sent hd hn (by omega), Drive.send_eq, if_neg hne.1, if_neg hne.2, hd]
    rfl
  · rw [Drive.settle_sent hd (fun e => hw (e.trans ho)) (by simp [ho]), Drive.send_eq, if_neg hw, if_pos ho, hd]
    rfl
  · rw [Drive.settle_sent hd (fun e => ho (e.symm.trans hw)) (by simp [hw]), Drive.send_eq, if_pos hw, hd, hw, driveWord_zero]

/-! ### The timers of the standardization (R48, R56) -/

/-- The due age at which the overdue time is exceeded exceeds it in whole seconds (R56; log entry 4). -/
theorem overdueAge_exceeds (t a : Nat) : 60 * t < max a ((60 * t + 1) * 2000) / 2000 := by
  omega

/-- Settles O19. -/
theorem standardizationTimersExpire : Obligations.StandardizationTimersExpire := by
  intro s h
  refine ⟨fun hs => ?_, fun hs => ?_, fun hd ho => ?_, fun hd => ?_⟩
  · rw [exec_released (f := settleExpiry) rfl h, settleExpiry, if_pos hs]
    rfl
  · rw [exec_released (f := settleExpiry) rfl h, settleExpiry, if_neg hs]
  · refine ⟨_, exec_released (f := overdueExpiry) rfl h, ?_⟩
    rw [overdueExpiry, if_pos (by simp [hd, ho])]
    exact ⟨State.activate_active _ _, rfl, hd, overdueAge_exceeds _ _, rfl, rfl⟩
  · have hn : ¬(s.osq.due ∧ !s.osq.overdue) := by
      rcases hd with hd | ho
      · simp [hd]
      · simp [ho]
    rw [exec_released (f := overdueExpiry) rfl h, overdueExpiry, if_neg hn]

/-! ### COMMIT (R51) -/

theorem ptStdDrift_injective {c d : RefChan} (h : ptStdDrift c = ptStdDrift d) : c = d := by
  cases c <;> cases d <;> first | rfl | exact absurd h (by decide)

theorem ptStdDrift_ne_ptOverdue (c : RefChan) : ptStdDrift c ≠ ptOverdue := by
  cases c <;> decide

theorem driftOk_iff (tol : Nat) (old : Option (BitVec 16)) (new : BitVec 16) :
    driftOk tol old new = true ↔
      new ≠ 0 ∧ ∀ o, old = some o → ((new.toNat : Int) - o.toNat).natAbs * 1024 ≤ tol * o.toNat := by
  cases old <;> simp [driftOk]

/-- What COMMIT makes of one channel (R51): its reference and the state of its STD DRIFT point. -/
structure Judged (s t : State) (c : RefChan) : Prop where
  without : s.osq.candidates.get c = none → t.scv.refs.get c = s.scv.refs.get c ∧
    (t.alt.points[ptStdDrift c]).state = (s.alt.points[ptStdDrift c]).state
  accepted : ∀ new, s.osq.candidates.get c = some new →
    driftOk (s.rbs.common.drift.get c) (s.scv.refs.get c) new = true →
    t.scv.refs.get c = some new ∧ (t.alt.points[ptStdDrift c]).state ∈ [PointState.normal, .returnUnack]
  refused : ∀ new, s.osq.candidates.get c = some new →
    driftOk (s.rbs.common.drift.get c) (s.scv.refs.get c) new = false →
    t.scv.refs.get c = s.scv.refs.get c ∧ alarmActive t (ptStdDrift c)

/-- What a channel's drift check reads and moves is as it was. -/
structure Passed1 (s t : State) (c : RefChan) : Prop where
  candidates : t.osq.candidates = s.osq.candidates
  common : t.rbs = s.rbs
  refs : t.scv.refs.get c = s.scv.refs.get c
  point : (t.alt.points[ptStdDrift c]).state = (s.alt.points[ptStdDrift c]).state

theorem commitChannel_judged (s : State) (c : RefChan) : Judged s (commitChannel s c) c := by
  unfold commitChannel
  cases hc : s.osq.candidates.get c with
  | none => exact ⟨fun _ => ⟨rfl, rfl⟩, fun _ h => by simp [hc] at h, fun _ h => by simp [hc] at h⟩
  | some r =>
    have hr : ∀ {new}, s.osq.candidates.get c = some new → r = new := fun h => Option.some.inj (hc.symm.trans h)
    by_cases hd : driftOk (s.rbs.common.drift.get c) (s.scv.refs.get c) r = true
    · simp only [hd, if_true]
      refine ⟨fun h => by simp [hc] at h, fun new h _ => ⟨?_, State.returnAlarm_over _ _⟩, fun new h hf => ?_⟩
      · rw [← hr h]
        exact PerRef.get_set_same ..
      · rw [← hr h, hd] at hf
        exact absurd hf (by decide)
    · simp only [hd]
      exact ⟨fun h => by simp [hc] at h, fun new h hf => absurd (hr h ▸ hf) hd,
        fun _ _ _ => ⟨rfl, State.activate_active _ _⟩⟩

/-- Another channel's drift check leaves this channel alone. -/
theorem commitChannel_passed (s : State) {c d : RefChan} (h : c ≠ d) : Passed1 s (commitChannel s d) c := by
  have hp : ptStdDrift c ≠ ptStdDrift d := fun e => h (ptStdDrift_injective e)
  unfold commitChannel
  split
  · exact ⟨rfl, rfl, rfl, rfl⟩
  split
  · exact ⟨rfl, rfl, PerRef.get_set_ne _ _ h, State.returnAlarm_other _ hp⟩
  · exact ⟨rfl, rfl, rfl, State.activate_other _ hp⟩

theorem Judged.before {s t u : State} {c : RefChan} (h : Passed1 s t c) (k : Judged t u c) : Judged s u c := by
  obtain ⟨h1, h2, h3, h4⟩ := h
  obtain ⟨k1, k2, k3⟩ := k
  rw [h1, h3, h4] at k1
  rw [h1, h2, h3] at k2 k3
  exact ⟨k1, k2, k3⟩

theorem Judged.after {s t u : State} {c : RefChan} (h : Judged s t c) (k : Passed1 t u c) : Judged s u c := by
  obtain ⟨_, _, k3, k4⟩ := k
  obtain ⟨h1, h2, h3⟩ := h
  simp only [alarmActive] at h3
  rw [← k3, ← k4] at h1 h2 h3
  exact ⟨h1, h2, h3⟩

theorem commitChannels_judged (s : State) (c : RefChan) : Judged s (allRefChans.foldl commitChannel s) c := by
  let a := commitChannel s .beta
  let b := commitChannel a .irw
  show Judged s (commitChannel b .cal) c
  cases c with
  | beta =>
    exact ((commitChannel_judged s .beta).after (commitChannel_passed a (d := .irw) (by decide))).after
      (commitChannel_passed b (by decide))
  | irw =>
    exact ((commitChannel_judged a .irw).before (commitChannel_passed s (by decide))).after
      (commitChannel_passed b (by decide))
  | cal =>
    exact ((commitChannel_judged b .cal).before (commitChannel_passed a (by decide))).before
      (commitChannel_passed s (by decide))

/-- COMMIT moves no point but those of its channels before it returns STANDARDIZE OVERDUE. -/
theorem commitChannels_points (l : List RefChan) (s : State) {i : PointNo} (h : ∀ c, i ≠ ptStdDrift c) :
    ((l.foldl commitChannel s).alt.points[i]).state = (s.alt.points[i]).state := by
  induction l generalizing s with
  | nil => rfl
  | cons c l ih =>
    refine (ih _).trans ?_
    unfold commitChannel
    split
    · rfl
    split
    · exact State.returnAlarm_other _ (h c)
    · exact State.activate_other _ (h c)

theorem commitChannels_blocks (l : List RefChan) (s : State) : (l.foldl commitChannel s).osq = s.osq ∧
    (l.foldl commitChannel s).cmu = s.cmu ∧ (l.foldl commitChannel s).hbc = s.hbc ∧
    (l.foldl commitChannel s).pen = s.pen := by
  induction l generalizing s with
  | nil => exact ⟨rfl, rfl, rfl, rfl⟩
  | cons c l ih =>
    have hc : (commitChannel s c).osq = s.osq ∧ (commitChannel s c).cmu = s.cmu ∧ (commitChannel s c).hbc = s.hbc ∧
        (commitChannel s c).pen = s.pen := by
      unfold commitChannel
      split
      · exact ⟨rfl, rfl, rfl, rfl⟩
      split <;> exact ⟨rfl, rfl, rfl, rfl⟩
    obtain ⟨h1, h2, h3, h4⟩ := hc
    obtain ⟨k1, k2, k3, k4⟩ := ih (commitChannel s c)
    exact ⟨k1.trans h1, k2.trans h2, k3.trans h3, k4.trans h4⟩

/-- The OSQ as COMMIT leaves it before the renewal is merged (R51). -/
def committedOsq (q : Osq) : Osq :=
  { q with
    step := .commit
    candidates := noCandidates
    scanCount := 0
    due := false
    requested := false
    overdue := false }

/-- The state after the drift checks, with STANDARDIZE OVERDUE returned. -/
def committedState (s : State) : State :=
  ((allRefChans.foldl commitChannel s).withOsq (committedOsq s.osq)).returnAlarm ptOverdue

theorem commit_eq (s : State) : commit s = mergeRenewal (committedState s) := by
  have h : (allRefChans.foldl commitChannel s).osq = s.osq := (commitChannels_blocks _ s).1
  unfold committedState committedOsq
  rw [← h]
  rfl

/-- A renewal is merged into the OSQ alone (R54). -/
theorem mergeRenewal_eq (s : State) : mergeRenewal s = s.withOsq (mergeRenewal s).osq := by
  unfold mergeRenewal setDue
  cases s.osq.renewal with
  | none => rfl
  | some r => dsimp only; split <;> rfl

/-- The renewal merged into an OSQ with the due and requested flags clear (R54). -/
theorem mergeRenewal_osq {s : State} (hd : s.osq.due = false) (hr : s.osq.requested = false) :
    (mergeRenewal s).osq = { s.osq with
      due := s.osq.renewal.isSome
      requested := s.osq.renewal.getD false
      renewal := none
      dueAge := if s.osq.renewal.isSome then 0 else s.osq.dueAge } := by
  unfold mergeRenewal setDue
  cases hn : s.osq.renewal with
  | none =>
    generalize s.osq = q at hd hr hn
    obtain ⟨step, due, requested, renewal, count, age, settle, candidates, overdue⟩ := q
    simp_all
  | some r => simp [hd, hr]

/-- The states of the points of the committed state: STANDARDIZE OVERDUE is over, no other has moved since the drift checks. -/
theorem committedState_points (s : State) :
    ((committedState s).alt.points[ptOverdue]).state ∈ [PointState.normal, .returnUnack] ∧
    ∀ i : PointNo, i ≠ ptOverdue →
      ((committedState s).alt.points[i]).state = ((allRefChans.foldl commitChannel s).alt.points[i]).state := by
  unfold committedState
  exact ⟨State.returnAlarm_over _ ptOverdue, fun _ h => State.returnAlarm_other _ h⟩

theorem commit_blocks (s : State) : (commit s).alt = (committedState s).alt ∧
    (commit s).scv = (allRefChans.foldl commitChannel s).scv ∧ (commit s).cmu = s.cmu ∧ (commit s).hbc = s.hbc ∧
    (commit s).pen = s.pen := by
  obtain ⟨_, hcmu, hhbc, hpen⟩ := commitChannels_blocks allRefChans s
  rw [commit_eq, mergeRenewal_eq]
  refine ⟨rfl, rfl, ?_, ?_, ?_⟩
  · simpa [committedState] using hcmu
  · simpa [committedState] using hhbc
  · simpa [committedState] using hpen

theorem commit_osq (s : State) : (commit s).osq = { committedOsq s.osq with
    due := s.osq.renewal.isSome
    requested := s.osq.renewal.getD false
    renewal := none
    dueAge := if s.osq.renewal.isSome then 0 else s.osq.dueAge } := by
  rw [commit_eq, mergeRenewal_osq rfl rfl]
  rfl

theorem commit_judged (s : State) (c : RefChan) : Judged s (commit s) c := by
  obtain ⟨halt, hscv, _⟩ := commit_blocks s
  have hpoint := (committedState_points s).2 (ptStdDrift c) (ptStdDrift_ne_ptOverdue c)
  rw [← halt] at hpoint
  obtain ⟨h1, h2, h3⟩ := commitChannels_judged s c
  simp only [alarmActive] at h3
  rw [← hscv, ← hpoint] at h1 h2 h3
  exact ⟨h1, h2, h3⟩

/-- Settles O18, channel by channel. -/
theorem commitAppliesTheDriftCheck : Obligations.CommitAppliesTheDriftCheck := by
  intro s
  obtain ⟨halt, _, hcmu, hhbc, hpen⟩ := commit_blocks s
  obtain ⟨hover, hothers⟩ := committedState_points s
  refine ⟨fun c => (commit_judged s c).without, fun c new h => ⟨fun ha => ?_, fun ha => ?_⟩, ?_, fun i hi hd => ?_, ?_⟩
  · exact (commit_judged s c).accepted new h ((driftOk_iff ..).2 ha)
  · exact (commit_judged s c).refused new h (Bool.eq_false_iff.2 fun k => ha ((driftOk_iff ..).1 k))
  · rw [halt]
    exact hover
  · rw [halt, hothers i hi]
    exact commitChannels_points _ s hd
  · rw [commit_osq]
    exact ⟨fun hr => if_pos hr, rfl, rfl, rfl, rfl, fun c => by cases c <;> rfl, rfl, hcmu, hhbc, hpen⟩

end Sys2Proof.Machine
end

section
/-! PROOFS. A row of the request table as a command: what it leaves when its port takes and answers a message in one step (R195). -/

namespace Sys2Proof.Machine

open Safety

/-- A message waits on a port, is one of a row's, and passes the checks of the port (R195). -/
structure Row (s : State) (p : Port) (m : InMsg) (need : Nat) (accepts : InMsg → Bool) : Prop where
  waits : waits s p m need
  accepted : accepts m = true
  need : replyNeed m.kind.toNat = need
  kind : m.kind.toNat < 128
  check : portCheck p m = none

/-- The port's checks pass a message of a permitted request kind and of a right length. -/
theorem portCheck_none {p : Port} {m : InMsg} {k : Nat} (hk : m.kind.toNat = k) (hr : isRequestKind k = true)
    (hp : permitted p k = true) (hl : lenOk k m.payload = true) : portCheck p m = none := by
  simp [portCheck, hk, hr, hp, hl]

theorem isRequestKind_lt {k : Nat} (h : isRequestKind k = true) : k < 128 := by
  simp [isRequestKind] at h
  omega

/-- The row of a kind. -/
theorem Row.of_kind {s : State} {p : Port} {m : InMsg} {need k : Nat} (hw : Safety.waits s p m need) (hk : m.kind = BitVec.ofNat 8 k)
    (hl : lenOk k m.payload = true) (hp : permitted p k = true := by rfl) (hr : isRequestKind k = true := by rfl)
    (hn : replyNeed k = need := by rfl) : Row s p m need (ofKind k) := by
  have hlt := isRequestKind_lt hr
  have e : m.kind.toNat = k := by
    rw [hk, BitVec.toNat_ofNat]
    exact Nat.mod_eq_of_lt (by omega)
  exact ⟨hw, by simp [ofKind, e], by rw [e]; exact hn, by omega, portCheck_none e hr hp hl⟩

/-- The row of a kind and a code. -/
theorem Row.of_code {s : State} {p : Port} {m : InMsg} {need k c codes : Nat} (hw : Safety.waits s p m need)
    (hk : m.kind = BitVec.ofNat 8 k) (hl : lenOk k m.payload = true)
    (hc : fieldAt m.payload 0 1 = c ∨ codes ≤ fieldAt m.payload 0 1)
    (hp : permitted p k = true := by rfl) (hr : isRequestKind k = true := by rfl)
    (hn : replyNeed k = need := by rfl) : Row s p m need (ofCode k c codes) := by
  have h := Row.of_kind hw hk hl hp hr hn
  refine ⟨hw, ?_, h.need, h.kind, h.check⟩
  have ha := h.accepted
  rcases hc with e | e <;> simp [ofCode, ha, e]

section
variable {s : State} {p : Port} {m : InMsg} {need : Nat} {accepts : InMsg → Bool} {owner : Owner} {c : Instr}

/-- The command of a row leaves the owner's state with the reply queued. -/
theorem Row.exec (h : Row s p m need accepts) (hc : exec c s = whenReleased s (request .whole p accepts owner)) :
    exec c s = .next ((owner p m (s.updPort p (takenPort m))).1.updPort p
      (queueReply m (owner p m (s.updPort p (takenPort m))).2 need)) := by
  rw [exec_released hc h.waits.1, request_whole owner h.waits h.accepted h.need h.check]

/-- The same when the owner leaves the state as it is. -/
theorem Row.exec_answered (h : Row s p m need accepts) (hc : Machine.exec c s = whenReleased s (request .whole p accepts owner))
    {parts : List (List Byte)} (ho : owner p m (s.updPort p (takenPort m)) = (s.updPort p (takenPort m), parts))
    (hl : parts.length ≤ need := by decide) : Machine.exec c s = .next (answered s p m parts) := by
  rw [exec_released hc h.waits.1, request_code h.waits h.accepted h.need h.kind h.check hl ho]

/-- The same when the owner changes other blocks and leaves the ports as they are. -/
theorem Row.exec_changed (h : Row s p m need accepts) (hc : Machine.exec c s = whenReleased s (request .whole p accepts owner))
    {parts : List (List Byte)} {t : State}
    (ho : owner p m (s.updPort p (takenPort m)) = (t.withPorts (s.updPort p (takenPort m)).ports, parts))
    (hl : parts.length ≤ need := by decide) : Machine.exec c s = .next (t.withPorts (answeredPorts s p m parts)) := by
  rw [exec_released hc h.waits.1, request_change h.waits h.accepted h.need h.kind h.check hl ho]

/-- The command of a row whose owner answers in one part: the state and the reply. -/
theorem Row.exec_replied (h : Row s p m need accepts) (hc : Machine.exec c s = whenReleased s (request .whole p accepts owner))
    {rc : Byte} {rest : List Byte} {t : State} (ho : owner p m (s.updPort p (takenPort m)) = (t, [rc :: rest]))
    (hn : 1 ≤ need := by decide) :
    Machine.exec c s = .next (t.updPort p (queueReply m [rc :: rest] need)) ∧
    repliedWith (t.updPort p (queueReply m [rc :: rest] need)) p m rc := by
  refine ⟨?_, queueReply_repliedWith h.kind hn⟩
  have e := h.exec hc
  rw [ho] at e
  exact e

end

/-- A row of one code whose owner needs the token. -/
theorem withToken_taken {owner : Owner} {s : State} {p : Port} (m : InMsg) (h : s.cta.holder = some p) :
    withToken owner p m (s.updPort p (takenPort m)) = owner p m (s.updPort p (takenPort m)) :=
  withToken_of_holder h

end Sys2Proof.Machine
end

section
/-! PROOFS. The entry into FAULT and the ways out of it, and homing (R5, R7, R8, R9, R10, R11). -/

namespace Sys2Proof.Machine

open Safety

/-! ### What a grade application and an abort leave (R54, R87) -/

/-- A grade application moves nothing of the carriage, the drive, the sequencer, the edges or the window (R87). -/
theorem applyPendingGrade_keeps (s : State) : (applyPendingGrade s).cmu = s.cmu ∧ (applyPendingGrade s).drive = s.drive ∧
    (applyPendingGrade s).osq = s.osq ∧ (applyPendingGrade s).ebm = s.ebm ∧ (applyPendingGrade s).cta = s.cta ∧
    (applyPendingGrade s).pen.window = s.pen.window := by
  unfold applyPendingGrade
  split
  · exact ⟨rfl, rfl, rfl, rfl, rfl, rfl⟩
  · unfold applyGrade
    split
    · exact ⟨rfl, rfl, rfl, rfl, rfl, rfl⟩
    · simp

/-- An abort of a standardization changes the head bus and the sequencer alone (R54). -/
theorem abortStdWith_eq (told : Hbc → Hbc) (s : State) :
    abortStdWith told s = (s.withHbc (if s.osq.step = .idle then s.hbc else told s.hbc)).withOsq (abortStdWith told s).osq ∧
    (abortStdWith told s).osq.step = .idle := by
  unfold abortStdWith
  split
  · next h => exact ⟨rfl, h⟩
  · unfold resetOsqStep
    rw [mergeRenewal_eq]
    refine ⟨rfl, ?_⟩
    unfold mergeRenewal setDue
    split
    · rfl
    · dsimp only
      split <;> rfl

/-- The same block by block. -/
theorem abortStdWith_blocks (told : Hbc → Hbc) (s : State) : (abortStdWith told s).cmu = s.cmu ∧
    (abortStdWith told s).drive = s.drive ∧ (abortStdWith told s).osq.step = .idle ∧
    (abortStdWith told s).hbc = (if s.osq.step = .idle then s.hbc else told s.hbc) ∧ (abortStdWith told s).alt = s.alt ∧
    (abortStdWith told s).scv = s.scv ∧ (abortStdWith told s).pen = s.pen ∧ (abortStdWith told s).ebm = s.ebm := by
  obtain ⟨h, hidle⟩ := abortStdWith_eq told s
  refine ⟨?_, ?_, hidle, ?_, ?_, ?_, ?_, ?_⟩ <;> rw [h] <;> rfl

/-! ### FAULT (R9) -/

theorem abortTraverse_keeps (s : State) : (abortTraverse s).scv = s.scv ∧ (abortTraverse s).pen.counter = s.pen.counter ∧
    (abortTraverse s).pen.slots = s.pen.slots ∧ (abortTraverse s).cmu.position = s.cmu.position ∧
    (abortTraverse s).cmu.drvflt = s.cmu.drvflt := by
  unfold abortTraverse
  split <;> exact ⟨rfl, rfl, rfl, rfl, rfl⟩

/-- The blocks of the carriage in FAULT before its standardization is aborted. -/
theorem faulted_blocks (cause : FaultCause) (s : State) :
    (faulted cause s).cmu = { (abortTraverse s).cmu with
      state := .fault, homed := s.cmu.homed && (cause != .encoder), faultCause := cause, hold := .none, turnOwed := false
      motionFault := true, overrideWait := 0 } ∧
    (faulted cause s).drive = s.drive.halt ∧ (faulted cause s).scv = s.scv ∧
    (faulted cause s).pen.counter = s.pen.counter ∧ (faulted cause s).pen.slots = s.pen.slots ∧
    (faulted cause s).pen.window = (abortTraverse s).pen.window ∧ (faulted cause s).ebm = (abortTraverse s).ebm := by
  obtain ⟨h1, h2, h3, _, _⟩ := abortTraverse_keeps s
  refine ⟨?_, ?_, ?_, ?_, ?_, ?_, ?_⟩ <;> simp [faulted, setCarriage, h1, h2, h3]

/-- R9: what the entry into FAULT leaves of each block. -/
theorem enterFault_blocks (cause : FaultCause) {s : State} (h : s.cmu.state ≠ .fault) :
    (enterFault cause s).cmu = (faulted cause s).cmu ∧ (enterFault cause s).drive = s.drive.halt ∧
    (enterFault cause s).osq.step = .idle ∧
    (enterFault cause s).hbc = (if s.osq.step = .idle then s.hbc else abandonSeq s.hbc) ∧
    alarmActive (enterFault cause s) ptMotionFault ∧ (enterFault cause s).scv = s.scv ∧
    (enterFault cause s).pen.counter = s.pen.counter ∧ (enterFault cause s).pen.slots = s.pen.slots ∧
    (enterFault cause s).pen.window = (abortTraverse s).pen.window ∧ (enterFault cause s).ebm = (abortTraverse s).ebm := by
  obtain ⟨_, hdrive, hscv, hcounter, hslots, hwindow, hebm⟩ := faulted_blocks cause s
  obtain ⟨a1, a2, hidle, hhbc, halt, a5, a6, a7⟩ : _ ∧ _ ∧ _ ∧ _ ∧ _ ∧ _ ∧ (abortStd (faulted cause s)).pen = _ ∧ _ :=
    abortStdWith_blocks abandonSeq (faulted cause s)
  obtain ⟨ho, hh, _⟩ := faulted_fields cause s
  obtain ⟨g1, g2, g3, g4, _, g6⟩ := applyPendingGrade_keeps (abortStd (faulted cause s))
  have m := (motion_applyPendingGrade (abortStd (faulted cause s))).toSteady
  have hactive : alarmActive (faulted cause s) ptMotionFault := State.activate_active ..
  have hpoint := m.points ptMotionFault (by decide)
  rw [ho, hh] at hhbc
  rw [enterFault_eq cause h]
  refine ⟨g1.trans a1, g2.trans (a2.trans hdrive), (congrArg Osq.step g3).trans hidle, m.hbc.trans hhbc, ?_,
    m.scv.trans (a5.trans hscv), m.counter.trans ?_, m.slots.trans ?_, g6.trans ?_, g4.trans (a7.trans hebm)⟩
  · unfold alarmActive at hactive ⊢
    rw [hpoint, show (abortStd (faulted cause s)).alt = _ from halt]
    exact hactive
  · rw [a6, hcounter]
  · rw [a6, hslots]
  · rw [a6, hwindow]

/-- R9: the entry into FAULT from any other state, and what it leaves of the carriage's own record. -/
theorem enterFault_entered (cause : FaultCause) {s : State} (h : s.cmu.state ≠ .fault) :
    faultEntered s (enterFault cause s).settleDrive cause ∧
    (enterFault cause s).settleDrive.cmu.homed = (s.cmu.homed && (cause != .encoder)) ∧
    (enterFault cause s).settleDrive.cmu.position = s.cmu.position ∧
    (enterFault cause s).settleDrive.cmu.drvflt = s.cmu.drvflt ∧ (enterFault cause s).cmu.overrideWait = 0 := by
  obtain ⟨hcmu, hdrive, hstep, hhbc, hactive, hscv, hcounter, hslots, hwindow, hebm⟩ := enterFault_blocks cause h
  obtain ⟨hf, _⟩ := faulted_blocks cause s
  obtain ⟨_, _, _, hposition, hdrvflt⟩ := abortTraverse_keeps s
  obtain ⟨hout, hwanted, hdwell, hstall⟩ := s.drive.halt_fields
  rw [hf] at hcmu
  have hsettled : (enterFault cause s).settleDrive = enterFault cause s :=
    State.settleDrive_of_settled fun _ => by rw [hdrive, hout, hwanted]
  rw [hsettled]
  unfold faultEntered
  rw [hcmu, hdrive, hscv, hwindow, hebm]
  refine ⟨⟨rfl, rfl, hout, hwanted, hdwell, hstall, rfl, rfl, rfl, hactive, hstep, rfl, hcounter, hslots, hhbc, fun ht => ?_⟩,
    rfl, hposition, hdrvflt, rfl⟩
  obtain ⟨hw, hx⟩ := abortTraverse_window s ht
  refine ⟨hw, hx, ?_⟩
  rw [abortTraverse_cmu, if_pos ht]

/-- R9: in FAULT the recorded cause stays, and cause ENCODER still clears the homed flag. -/
theorem enterFault_of_fault (cause : FaultCause) {s : State} (h : s.cmu.state = .fault) :
    enterFault cause s = s.withCmu { s.cmu with homed := s.cmu.homed && (cause != .encoder) } := by
  unfold enterFault
  rw [if_pos h]

/-! ### Encoder faults (R4, R5) -/

theorem encoderCount_outside {d : Dir} {s : State} (hh : s.cmu.homed = true)
    (hp : s.cmu.position + dirSign d < -500 ∨ (s.rbs.common.pMax : Int) + 500 < s.cmu.position + dirSign d) :
    countCompares d (countPosition d s) = enterFault .encoder (countPosition d s) := by
  have hout : inWindow s.rbs.common.pMax (s.cmu.position + dirSign d) = false := by
    simp [inWindow]
    omega
  unfold countCompares
  rw [if_pos (show (countPosition d s).cmu.homed = true from hh)]
  exact if_neg (by rw [show (countPosition d s).cmu.position = s.cmu.position + dirSign d from rfl,
    show (countPosition d s).rbs.common.pMax = s.rbs.common.pMax from rfl, hout]; decide)

/-- R4: a skip outside FAULT, up to the third. -/
theorem encoderSkip_counted {s : State} (hf : s.cmu.state ≠ .fault) (h : s.cmu.skipCount < 3) :
    encoderSkip s = s.withCmu { s.cmu with
      phase := ⟨!s.cmu.phase.enca, !s.cmu.phase.encb⟩, skipCount := s.cmu.skipCount + 1 } := by
  have hsat : satInc 4 s.cmu.skipCount = s.cmu.skipCount + 1 := Nat.min_eq_right (by omega)
  have hne : s.cmu.skipCount + 1 ≠ 4 := by omega
  simp [encoderSkip, hf, hsat, hne]

/-- R4: the fourth skip. -/
theorem encoderSkip_fourth {s : State} (hf : s.cmu.state ≠ .fault) (h : s.cmu.skipCount = 3) :
    encoderSkip s = (enterFault .encoder (s.withCmu { s.cmu with
      phase := ⟨!s.cmu.phase.enca, !s.cmu.phase.encb⟩, skipCount := 4 })).settleDrive := by
  simp [encoderSkip, hf, h, satInc]

/-- Settles O7: outside FAULT both events enter it; in FAULT the carriage's record alone changes. -/
theorem encoderFaultsStopTheCarriage : Obligations.EncoderFaultsStopTheCarriage := by
  refine ⟨fun d s => ?_, fun s h => ⟨fun hf => ?_, fun hf hk => ?_, fun hf hk => ?_⟩⟩
  · intro pos h hh hp
    have hcompare := encoderCount_outside (d := d) hh hp
    refine ⟨fun hf => ?_, fun hf ho hs => ?_⟩
    · obtain ⟨hent, hhomed, hpos, _, hwait⟩ := enterFault_entered .encoder (s := countPosition d s) hf
      refine ⟨_, exec_released (f := encoderCount d) rfl h, ?_⟩
      rw [encoderCount, hcompare, overrideAfterCount_of_taken _ hwait]
      refine ⟨hent, ?_, hpos⟩
      rw [hhomed]
      exact Bool.and_false _
    · rw [exec_released (f := encoderCount d) rfl h, encoderCount, hcompare,
        enterFault_of_fault .encoder (s := countPosition d s) hf,
        overrideAfterCount_of_taken _ (by exact (overrideUntaken_eq_false _).1 ho), State.settleDrive_of_settled]
      · exact congrArg Host.Outcome.next (by simp [countPosition, State.withCmu, State.withDrive, pos])
      · intro hd
        have : s.drive.dwell = none := Option.map_eq_none_iff.1 hd
        exact hs this
  · rw [exec_released (f := encoderSkip) rfl h, encoderSkip]
    exact congrArg Host.Outcome.next (if_pos hf)
  · rw [exec_released (f := encoderSkip) rfl h, encoderSkip_counted hf hk]
    rfl
  · obtain ⟨hent, hhomed, hpos, _⟩ := enterFault_entered .encoder (s := s.withCmu { s.cmu with
      phase := ⟨!s.cmu.phase.enca, !s.cmu.phase.encb⟩, skipCount := 4 }) hf
    refine ⟨_, exec_released (f := encoderSkip) rfl h, ?_⟩
    rw [encoderSkip_fourth hf hk]
    refine ⟨hent, ?_, hpos⟩
    rw [hhomed]
    exact Bool.and_false _

end Sys2Proof.Machine
end

section
/-! PROOFS. The choice of motion, homing and FAULT CLEAR (R8, R10, R11, R13). -/

namespace Sys2Proof.Machine

open Safety

/-! ### The states a choice of motion ends in (R13, R15) -/

/-- The carriage states a choice of motion can lead to. -/
def chosenStates : List CarriageState := [.toPark, .parked, .toLimit, .turning, .toFixed, .fixed, .toStd, .atStd]

theorem takeStd_chosen (s : State) : (takeStd s).cmu.state ∈ chosenStates := by
  rcases takeStd_state s with ⟨h, _⟩ | ⟨h, _⟩ <;> rw [h] <;> decide

theorem goLimit_chosen (s : State) : (goLimit s).cmu.state ∈ chosenStates := by
  have h := goLimit_state s
  simp only [List.mem_cons, List.not_mem_nil, or_false] at h
  rcases h with h | h <;> rw [h] <;> decide

/-- A choice made from one of these states, or from any, leads to one of them. -/
theorem goPark_chosen {next : State → State} (hn : ∀ u, u.cmu.state ∈ chosenStates → (next u).cmu.state ∈ chosenStates)
    (s : State) : (goPark next s).cmu.state ∈ chosenStates := by
  unfold goPark
  split
  · next h => rw [h]; decide
  dsimp only
  split
  · refine hn _ ?_
    rw [(applyPendingPlan_plan _).1]
    show (applyPendingGrade _).cmu.state ∈ _
    rw [(applyPendingGrade_keeps _).1, comeToRest_state]
    decide
  · rw [travel_state]; decide

theorem goFixed_chosen {next : State → State} (hn : ∀ u, u.cmu.state ∈ chosenStates → (next u).cmu.state ∈ chosenStates)
    (s : State) : (goFixed next s).cmu.state ∈ chosenStates := by
  unfold goFixed
  dsimp only
  split
  · unfold arriveFixed
    dsimp only
    have hfixed : ∀ u : State, (applyPendingPlan (applyPendingGrade (comeToRest .fixed u))).cmu.state = .fixed := by
      intro u
      rw [(applyPendingPlan_plan _).1]
      show (applyPendingGrade _).cmu.state = _
      rw [(applyPendingGrade_keeps _).1, comeToRest_state]
    split
    · exact takeStd_chosen _
    split
    · rw [hfixed]; decide
    · exact hn _ (by rw [hfixed]; decide)
  · rw [travel_state]; decide

theorem nextMotion_chosen (n : Nat) (s : State) (h : s.cmu.state ∈ chosenStates ∨ 0 < n) :
    (nextMotion n s).cmu.state ∈ chosenStates := by
  induction n generalizing s with
  | zero => exact h.resolve_right (Nat.lt_irrefl 0)
  | succ n ih =>
    have hn : ∀ u, u.cmu.state ∈ chosenStates → (nextMotion n u).cmu.state ∈ chosenStates := fun u k => ih u (.inl k)
    unfold nextMotion
    split
    · exact takeStd_chosen s
    split
    · exact goPark_chosen hn s
    split
    · exact goPark_chosen hn s
    · exact goFixed_chosen hn s
    · exact goLimit_chosen s

theorem nextMove_chosen (s : State) : (nextMove s).cmu.state ∈ chosenStates := nextMotion_chosen motionBound s (.inr (by decide))

theorem chosen_not_homing {st : CarriageState} (h : st ∈ chosenStates) : st ∉ [CarriageState.unhomed, .homing] := by
  revert h
  cases st <;> decide

/-! ### Homing (R11) -/

/-- R11: HOME found. -/
theorem arriveHome_found (s : State) :
    (arriveHome s).cmu.position = 0 ∧ (arriveHome s).cmu.homed = true ∧ (arriveHome s).cmu.state ∈ chosenStates ∧
    (arriveHome s).cmu.plan = s.cta.pending.getD s.cmu.plan ∧ (arriveHome s).cta.pending = none ∧
    (arriveHome s).cmu.drvflt = s.cmu.drvflt ∧ (arriveHome s).cmu.home = s.cmu.home ∧ (arriveHome s).hbc = s.hbc ∧
    (arriveHome s).msm = s.msm := by
  let a := s.withCmu { s.cmu with position := 0, homed := true, skipCount := 0 }
  let b := applyPendingPlan (want 0 a)
  obtain ⟨hcmu, hcta⟩ := applyPendingPlan_plan (want 0 a)
  have hb := (motion_applyPendingPlan (want 0 a)).toSteady
  have m := motion_nextMove b
  obtain ⟨hpending, hplan⟩ := m.plan (by rw [show b.cta = _ from hcta])
  refine ⟨m.position.trans hb.position, m.homed.trans hb.homed, nextMove_chosen b, hplan.trans (congrArg Cmu.plan hcmu), hpending,
    m.drvflt.trans hb.drvflt, m.home.trans hb.home, m.hbc.trans hb.hbc, m.msm.trans hb.msm⟩

/-- A carriage parked or fixed by a choice of motion has a skip count that came to rest at 0 (R4, R15). -/
theorem goPark_skipCount {next : State → State} (hn : ∀ u, u.cmu.skipCount = 0 → (next u).cmu.skipCount = 0)
    {s : State} (h : s.cmu.skipCount = 0) : (goPark next s).cmu.skipCount = 0 := by
  unfold goPark
  split
  · exact h
  dsimp only
  split
  · refine hn _ ?_
    rw [(applyPendingPlan_plan _).1]
    show (applyPendingGrade _).cmu.skipCount = 0
    rw [(applyPendingGrade_keeps _).1]
    rfl
  · exact h

theorem goLimit_skipCount {s : State} (h : s.cmu.skipCount = 0) : (goLimit s).cmu.skipCount = 0 := by
  simp only [goLimit]
  repeat' split
  all_goals exact h

theorem takeStd_skipCount {s : State} (h : s.cmu.skipCount = 0) : (takeStd s).cmu.skipCount = 0 := by
  have ha : (abortTraverse s).cmu.skipCount = 0 := by
    rw [abortTraverse_cmu]
    split <;> exact h
  have ho : (openStd (abortTraverse s)).cmu.skipCount = 0 := by
    show (dropArmed (abortTraverse s).cmu).skipCount = 0
    unfold dropArmed
    split <;> exact ha
  unfold takeStd beginStd goStd
  dsimp only
  split
  · rfl
  · exact ho

theorem goFixed_skipCount {next : State → State} (hn : ∀ u, u.cmu.skipCount = 0 → (next u).cmu.skipCount = 0)
    {s : State} (h : s.cmu.skipCount = 0) : (goFixed next s).cmu.skipCount = 0 := by
  unfold goFixed
  dsimp only
  split
  · unfold arriveFixed
    dsimp only
    have hfixed : ∀ u : State, (applyPendingPlan (applyPendingGrade (comeToRest .fixed u))).cmu.skipCount = 0 := by
      intro u
      rw [(applyPendingPlan_plan _).1]
      show (applyPendingGrade _).cmu.skipCount = 0
      rw [(applyPendingGrade_keeps _).1]
      rfl
    split
    · exact takeStd_skipCount (hfixed _)
    split
    · exact hfixed _
    · exact hn _ (hfixed _)
  · exact h

/-- A choice of motion leaves a skip count of 0 (R4). -/
theorem nextMotion_skipCount (n : Nat) {s : State} (h : s.cmu.skipCount = 0) : (nextMotion n s).cmu.skipCount = 0 := by
  induction n generalizing s with
  | zero => exact h
  | succ n ih =>
    unfold nextMotion
    split
    · exact takeStd_skipCount h
    split
    · exact goPark_skipCount (fun _ => ih) h
    split
    · exact goPark_skipCount (fun _ => ih) h
    · exact goFixed_skipCount (fun _ => ih) h
    · exact goLimit_skipCount h

theorem arriveHome_skipCount (s : State) : (arriveHome s).cmu.skipCount = 0 := by
  refine nextMotion_skipCount motionBound ?_
  rw [(applyPendingPlan_plan _).1]
  rfl

theorem homeConfirmed_found {s : State} (h : s.cmu.state = .homing) (hc : s.cmu.home.confirmed ≠ some true) :
    homeConfirmed true s = (arriveHome (s.withCmu { s.cmu with home := ⟨some true, 2, some true⟩ })).settleDrive := by
  simp [homeConfirmed, confirmLine_two, h, hc]

/-- Settles O12. -/
theorem homeFoundZeroesThePosition : Obligations.HomeFoundZeroesThePosition := by
  intro s h
  refine ⟨fun hs hc => ?_, fun active hn => ?_⟩
  · let u := s.withCmu { s.cmu with home := ⟨some true, 2, some true⟩ }
    obtain ⟨hpos, hhomed, hstate, hplan, hpending, _, hhome, hhbc, hmsm⟩ := arriveHome_found u
    refine ⟨_, exec_released (f := homeConfirmed true) rfl h, ?_⟩
    rw [homeConfirmed_found hs hc]
    refine ⟨hpos, hhomed, arriveHome_skipCount u, fun e => ?_, hhome, hpending, hplan, hhbc, hmsm⟩
    have e' : (arriveHome u).cmu.state = .homing := e
    rw [e'] at hstate
    exact absurd hstate (by decide)
  · have hcond : ¬(active = true ∧ s.cmu.home.confirmed ≠ some true ∧ s.cmu.state = .homing) := by
      rintro ⟨h1, h2, h3⟩
      rcases hn with e | e | e
      · simp [e] at h1
      · exact h2 e
      · exact e h3
    rw [exec_released (f := homeConfirmed active) rfl h, homeConfirmed, confirmLine_two]
    exact congrArg Host.Outcome.next (if_neg hcond)

/-- R11: HOMING entered with HOME not active. -/
theorem enterHoming_seeks {s : State} (h : s.cmu.home.confirmed ≠ some true) :
    enterHoming s = want (-(s.rbs.common.homeSpeed : Int)) (setCarriage .homing s) := by
  unfold enterHoming
  exact if_neg h

/-- R11: HOMING entered with HOME active. -/
theorem enterHoming_found {s : State} (h : s.cmu.home.confirmed = some true) :
    enterHoming s = arriveHome (want (-(s.rbs.common.homeSpeed : Int)) (setCarriage .homing s)) := by
  unfold enterHoming
  exact if_pos h

/-! ### Stall and drive faults (R7, R8) -/

theorem drvfltConfirmed_eq (active : Bool) (s : State) :
    drvfltConfirmed active s =
      let t := s.withCmu { s.cmu with drvflt := ⟨some active, 2, some active⟩ }
      if s.cmu.drvflt.confirmed = some active then t
      else if active then (if s.cmu.drvflt.confirmed = some false then (enterFault .drive t).settleDrive else t)
      else if s.cmu.state = .unhomed then (enterHoming t).settleDrive
      else t := by
  unfold drvfltConfirmed
  rw [confirmLine_two]
  rfl

/-- Settles O11. -/
theorem stallAndDriveFaults : Obligations.StallAndDriveFaults := by
  intro s h
  let fresh (active : Bool) : State := s.withCmu { s.cmu with drvflt := ⟨some active, 2, some active⟩ }
  have hdrv : ∀ active, exec (.drvfltConfirmed active) s = .next (drvfltConfirmed active s) := fun active =>
    exec_released (f := drvfltConfirmed active) rfl h
  refine ⟨fun hs hf => ?_, fun hs => ?_, fun hc hf => ?_, fun hc => ?_, fun hc => ?_, fun hs hc hh => ?_, fun hs hc hh => ?_⟩
  · obtain ⟨hent, hhomed, hpos, _⟩ := enterFault_entered .stall hf
    refine ⟨_, exec_released (f := stallTimeout) rfl h, ?_⟩
    rw [stallTimeout, if_pos (Option.isSome_iff_ne_none.2 hs)]
    exact ⟨hent, hhomed.trans (Bool.and_true _), hpos⟩
  · rw [exec_released (f := stallTimeout) rfl h, stallTimeout, hs]
    rfl
  · obtain ⟨hent, hhomed, _, hd, _⟩ := enterFault_entered .drive (s := fresh true) hf
    refine ⟨_, hdrv true, ?_⟩
    rw [drvfltConfirmed_eq, hc]
    exact ⟨hent, hhomed.trans (Bool.and_true _), hd⟩
  · rw [hdrv, drvfltConfirmed_eq]
    refine congrArg Host.Outcome.next ?_
    by_cases ht : s.cmu.drvflt.confirmed = some true
    · exact if_pos ht
    refine (if_neg ht).trans ((if_pos rfl).trans ?_)
    by_cases hf : s.cmu.drvflt.confirmed = some false
    · obtain ⟨hst, hset⟩ := hc.resolve_left (fun k => k hf)
      rw [if_pos hf, enterFault_of_fault .drive (s := fresh true) hst, State.settleDrive_of_settled]
      · exact congrArg (fun b => { s with cmu := { s.cmu with drvflt := ⟨some true, 2, some true⟩, homed := b } })
          (Bool.and_true _)
      · exact hset
    · exact if_neg hf
  · rw [hdrv, drvfltConfirmed_eq]
    refine congrArg Host.Outcome.next ?_
    by_cases hf : s.cmu.drvflt.confirmed = some false
    · exact if_pos hf
    · exact (if_neg hf).trans ((if_neg (by decide)).trans (if_neg (hc.resolve_right hf)))
  · refine ⟨_, hdrv false, ?_⟩
    have e : drvfltConfirmed false s = (enterHoming (fresh false)).settleDrive := by
      rw [drvfltConfirmed_eq]
      exact (if_neg hc).trans ((if_neg (by decide)).trans (if_pos hs))
    rw [e, enterHoming_seeks (s := fresh false) hh]
    exact ⟨rfl, rfl, rfl, State.settleDrive_wanted _, rfl⟩
  · let u := want (-(s.rbs.common.homeSpeed : Int)) (setCarriage .homing (fresh false))
    obtain ⟨hpos, hhomed, hstate, hplan, hpending, hd, _⟩ := arriveHome_found u
    refine ⟨_, hdrv false, ?_⟩
    have e : drvfltConfirmed false s = (arriveHome u).settleDrive := by
      rw [drvfltConfirmed_eq]
      exact (if_neg hc).trans ((if_neg (by decide)).trans ((if_pos hs).trans
        (congrArg State.settleDrive (enterHoming_found (s := fresh false) hh))))
    rw [e]
    exact ⟨chosen_not_homing hstate, hpos, hhomed, hplan, hpending, hd⟩

/-! ### FAULT CLEAR (R10) -/

theorem parkUnlessResume_eq (s : State) : parkUnlessResume s = s.withCmu { s.cmu with
    plan := if s.cmu.plan.resume then s.cmu.plan else { s.cmu.plan with mode := .park } } := by
  unfold parkUnlessResume
  by_cases h : s.cmu.plan.resume = true
  · rw [if_pos h, if_pos h]
    rfl
  · rw [if_neg h, if_neg h]

/-- R10, R21: the carriage cleared of its fault, with the active plan the resume flag leaves it. -/
theorem faultCleared_of_fault {s : State} (h : s.cmu.state = .fault) :
    faultCleared s = (s.returnAlarm ptMotionFault).withCmu { s.cmu with
      skipCount := 0
      faultCause := .none
      motionFault := false
      plan := if s.override && !(s.msm.source || s.cmu.parkSource) && !s.cmu.plan.resume then
          { s.cmu.plan with mode := .park } else s.cmu.plan } := by
  have hover : ((s.withCmu { s.cmu with skipCount := 0, faultCause := .none, motionFault := false }).returnAlarm
      ptMotionFault).override = (s.msm.source || s.cmu.parkSource) := by
    simp [State.override]
  unfold faultCleared
  rw [overrideCleared_eq, hover]
  cases s.override && !(s.msm.source || s.cmu.parkSource) with
  | false => rfl
  | true =>
    rw [if_pos rfl, parkUnlessResume_eq, if_neg (by simp [h])]
    by_cases hr : s.cmu.plan.resume = true <;> simp [hr] <;> rfl

/-- What homing, or the next motion, keeps of a carriage cleared of its fault. -/
structure Cleared (s t : State) : Prop where
  faultCause : t.cmu.faultCause = s.cmu.faultCause
  motionFault : t.cmu.motionFault = s.cmu.motionFault
  skipCount : s.cmu.skipCount = 0 → t.cmu.skipCount = 0
  homed : s.cmu.homed = true → t.cmu.homed = true
  points : ∀ i : PointNo, i ∉ limitPoints → (t.alt.points[i]).state = (s.alt.points[i]).state
  hbc : t.hbc = s.hbc
  msm : t.msm = s.msm

theorem Steady.cleared {s t : State} (h : Steady s t) (hk : s.cmu.skipCount = 0 → t.cmu.skipCount = 0) : Cleared s t :=
  ⟨h.faultCause, h.motionFault, hk, fun e => h.homed.trans e, h.points, h.hbc, h.msm⟩

theorem cleared_nextMove (s : State) : Cleared s (nextMove (applyPendingPlan s)) := by
  refine ((motion_applyPendingPlan s).trans (motion_nextMove _)).toSteady.cleared fun h => ?_
  refine nextMotion_skipCount motionBound ?_
  rw [(applyPendingPlan_plan _).1]
  exact h

theorem cleared_arriveHome (s : State) : Cleared s (arriveHome s) := by
  let a := s.withCmu { s.cmu with position := 0, homed := true, skipCount := 0 }
  have m := ((motion_want 0 a).trans ((motion_applyPendingPlan _).trans (motion_nextMove _))).toSteady
  exact ⟨m.faultCause, m.motionFault, fun _ => arriveHome_skipCount s, fun _ => m.homed, m.points, m.hbc, m.msm⟩

theorem cleared_enterHoming (s : State) : Cleared s (enterHoming s) := by
  unfold enterHoming
  dsimp only
  split
  · have k := cleared_arriveHome (want (-(s.rbs.common.homeSpeed : Int)) (setCarriage .homing s))
    exact ⟨k.faultCause, k.motionFault, k.skipCount, k.homed, k.points, k.hbc, k.msm⟩
  · exact ⟨rfl, rfl, id, id, fun _ _ => rfl, rfl, rfl⟩

theorem cleared_clearFault (s : State) : Cleared (faultCleared s) (clearFault s) := by
  have settled : ∀ {t : State}, Cleared (faultCleared s) t → Cleared (faultCleared s) t.settleDrive := fun h =>
    ⟨h.faultCause, h.motionFault, h.skipCount, h.homed, h.points, h.hbc, h.msm⟩
  rw [clearFault_eq]
  split
  · exact settled (cleared_nextMove _)
  · exact settled (cleared_enterHoming _)

/-- R10: what an accepted FAULT CLEAR leaves, whichever way the carriage goes. -/
theorem clearFault_cleared {s : State} (h : s.cmu.state = .fault) :
    (clearFault s).cmu.faultCause = .none ∧ (clearFault s).cmu.motionFault = false ∧ (clearFault s).cmu.skipCount = 0 ∧
    (clearFault s).cmu.homed = (s.cmu.homed || (clearFault s).cmu.homed) ∧
    ((clearFault s).alt.points[ptMotionFault]).state ∈ [PointState.normal, .returnUnack] ∧ (clearFault s).hbc = s.hbc ∧
    (clearFault s).msm = s.msm := by
  have k := cleared_clearFault s
  have hc := faultCleared_of_fault h
  have hover : ((faultCleared s).alt.points[ptMotionFault]).state ∈ [PointState.normal, .returnUnack] := by
    rw [hc]
    exact State.returnAlarm_over s ptMotionFault
  have hpoint := k.points ptMotionFault (by decide)
  rw [← hpoint] at hover
  have hhomed : (faultCleared s).cmu.homed = s.cmu.homed := by rw [hc]; rfl
  refine ⟨k.faultCause.trans (by rw [hc]; rfl), k.motionFault.trans (by rw [hc]; rfl), k.skipCount (by rw [hc]; rfl), ?_, hover,
    k.hbc.trans (by rw [hc]; rfl), k.msm.trans (by rw [hc]; rfl)⟩
  cases hs : s.cmu.homed with
  | false => rfl
  | true => rw [k.homed (hhomed.trans hs)]; rfl

/-- R10, R13: a homed carriage goes by the plan from where it stands. -/
theorem clearFault_homed {s : State} (h : s.cmu.state = .fault) (hh : s.cmu.homed = true) :
    (clearFault s).cmu.position = s.cmu.position ∧ (clearFault s).cta.pending = none ∧
    (clearFault s).cmu.plan = s.cta.pending.getD (faultCleared s).cmu.plan ∧
    (clearFault s).cmu.state ∈ chosenStates := by
  have hc := faultCleared_of_fault h
  have hhomed : (faultCleared s).cmu.homed = true := by rw [hc]; exact hh
  have hcta : (faultCleared s).cta = s.cta := by rw [hc]; rfl
  have hpos : (faultCleared s).cmu.position = s.cmu.position := by rw [hc]; rfl
  obtain ⟨happlied, hnone⟩ := applyPendingPlan_plan (faultCleared s)
  have m := motion_nextMove (applyPendingPlan (faultCleared s))
  have hp : (applyPendingPlan (faultCleared s)).cta.pending = none := by rw [hnone]
  obtain ⟨hpending, hplan⟩ := m.plan hp
  rw [clearFault_eq, if_pos hhomed]
  refine ⟨m.position.trans ((motion_applyPendingPlan _).position.trans hpos), hpending, hplan.trans ?_, nextMove_chosen _⟩
  rw [happlied, hcta]

/-- R10, R11: one that is not homed homes, from HOME not active. -/
theorem clearFault_seeks {s : State} (h : s.cmu.state = .fault) (hh : s.cmu.homed = false)
    (hc : s.cmu.home.confirmed ≠ some true) : (clearFault s).cmu.state = .homing ∧ (clearFault s).cmu.homed = false ∧
    (clearFault s).drive.wanted = -(s.rbs.common.homeSpeed : Int) := by
  have e := faultCleared_of_fault h
  have hhomed : (faultCleared s).cmu.homed = false := by rw [e]; exact hh
  have hhome : (faultCleared s).cmu.home.confirmed ≠ some true := by rw [e]; exact hc
  have hspeed : (faultCleared s).rbs = s.rbs := by rw [e]; rfl
  rw [clearFault_eq, hhomed, if_neg (by decide), enterHoming_seeks hhome]
  exact ⟨rfl, hhomed, (State.settleDrive_wanted _).trans (by rw [hspeed]; rfl)⟩

/-- Settles O49. -/
theorem faultsAreCleared : Obligations.FaultsAreCleared := by
  intro s p m hw hk hl ht
  have row : Row s p m 1 (ofKind 20) := .of_kind hw hk (by rw [hl]; rfl)
  have htoken : ¬(s.cta.holder.isSome = true ∧ s.cta.holder ≠ some p) := by
    rcases ht with e | e <;> simp [e]
  let u := s.updPort p (takenPort m)
  refine ⟨fun hc => ?_, fun hf hd => ?_⟩
  · refine row.exec_answered (owner := ownFaultClear) rfl ?_
    show ownFaultClear p m u = (u, [[rcWrongState]])
    by_cases hf : s.cmu.state = .fault
    · have hd := hc.resolve_left (fun k => k hf)
      exact (if_neg htoken).trans ((if_neg (fun k => k hf)).trans (if_pos hd))
    · exact (if_neg htoken).trans (if_pos hf)
  · have howner : ownFaultClear p m u = (clearFault u, [[rcOk]]) :=
      (if_neg htoken).trans ((if_neg (fun k => k hf)).trans (if_neg hd))
    obtain ⟨hexec, hreply⟩ := row.exec_replied (owner := ownFaultClear) (c := .faultClear p .whole) rfl howner
    have hu : u.cmu.state = .fault := hf
    obtain ⟨c1, c2, c3, c4, c5, c6, c7⟩ := clearFault_cleared hu
    refine ⟨_, hexec, hreply, c1, c2, c3, c4, c5, c6, c7, fun hh => ?_, fun hh hc => clearFault_seeks hu hh hc⟩
    obtain ⟨h1, h2, h3, h4⟩ := clearFault_homed hu hh
    refine ⟨h1, h2, fun plan hp => ?_, fun hp hm => ?_, h4⟩
    · have hp' : u.cta.pending = some plan := hp
      exact h3.trans (by rw [hp']; rfl)
    · have hp' : u.cta.pending = none := hp
      refine h3.trans ?_
      rw [hp', faultCleared_of_fault hu]
      have ho : u.override = true := by simp [u, State.override, hm]
      show (if u.override && !(s.msm.source || s.cmu.parkSource) && !s.cmu.plan.resume then
          { s.cmu.plan with mode := .park } else s.cmu.plan) = _
      rw [ho]
      cases s.msm.source <;> cases s.cmu.parkSource <;> cases hr : s.cmu.plan.resume <;> rfl

end Sys2Proof.Machine
end

section
/-! PROOFS. The property formulas (R68 … R73), the cycle record handed on (R34, R59 … R63) and the edge watch (R92 … R95). -/

namespace Sys2Proof.Machine

open Safety

/-! ### The property formulas -/

theorem waterOf_some (kT tRef t : Int) (w : Val) : waterOf kT tRef (some w) (some t) = some (compensate kT tRef w t) := rfl

/-- R70: the rounded product exceeds 65,535 from 268,433,408 on. -/
theorem caliper_product_iff (a : Nat) : 65535 < roundHalfUp a 4096 ↔ 268433407 < a := by
  unfold roundHalfUp
  omega

/-- R70: a sample at the zero gap or above it. -/
theorem caliper_of_le {raw ref : BitVec 16} (gain : Nat) (h : ref.toNat ≤ raw.toNat) :
    caliper gain raw ref =
      if 268433407 < (raw.toNat - ref.toNat) * gain then ⟨65535, .highClamp⟩
      else ⟨roundHalfUp ((raw.toNat - ref.toNat) * gain) 4096, .valid⟩ := by
  unfold caliper
  rw [if_neg (Nat.not_lt.2 h)]
  simp only [caliper_product_iff]

/-- R70: a sample below the zero gap. -/
theorem caliper_of_lt {raw ref : BitVec 16} (gain : Nat) (h : raw.toNat < ref.toNat) : caliper gain raw ref = ⟨0, .lowClamp⟩ :=
  if_pos h

/-- R70: the product of the statement, over the integers. -/
theorem caliper_product {raw ref : BitVec 16} (gain : Nat) (h : ref.toNat ≤ raw.toNat) :
    ((raw.toNat : Int) - ref.toNat) * gain = (((raw.toNat - ref.toNat) * gain : Nat) : Int) := by
  rw [Nat.cast_mul, Nat.cast_sub h]

/-- Settles O22, formula by formula. -/
theorem propertyFormulasClampAndMark : Obligations.PropertyFormulasClampAndMark := by
  refine ⟨fun kT tRef t w => ⟨fun h => ?_, fun h => ?_, fun h h' => ?_, rfl, rfl, ?_⟩,
    fun gain raw ref => ⟨fun h => ?_, fun h h' => ?_, fun h => ?_⟩, fun bw w => ⟨fun h => ?_, fun h h' => ?_, fun h h' => ?_,
      fun h => ?_, fun h => ?_⟩⟩
  · rw [waterOf_some]
    exact congrArg some (if_pos h)
  · rw [waterOf_some]
    exact congrArg some ((if_neg (by omega)).trans (if_pos h))
  · rw [waterOf_some]
    exact congrArg some ((if_neg (by omega)).trans (if_neg (by omega)))
  · have hx : (w.value : Int) + roundHalfAway ((w.value : Int) * 0 * (t - tRef)) 1048576 = w.value := by
      rw [Int.mul_zero, Int.zero_mul, roundHalfAway_zero (by decide), Int.add_zero]
    rw [waterOf_some]
    unfold compensate
    rw [hx]
    by_cases hw : 65535 < w.value
    · rw [if_pos hw, if_neg (by omega), if_pos (by omega)]
    · rw [if_neg hw, if_neg (by omega), if_neg (by omega)]
      rfl
  · refine caliper_of_lt gain ?_
    by_contra hle
    have e := caliper_product gain (Nat.not_lt.1 hle)
    rcases h with h | h
    · rw [e] at h
      omega
    · exact hle h
  · have e := caliper_product gain h
    have h'' : (((raw.toNat - ref.toNat) * gain : Nat) : Int) ≤ 268433407 := e ▸ h'
    rw [caliper_of_le gain h, if_neg (by omega), e, Int.toNat_natCast]
  · have hle : ref.toNat ≤ raw.toNat := by
      by_contra hlt
      have : ((raw.toNat : Int) - ref.toNat) * gain ≤ 0 :=
        mul_nonpos_of_nonpos_of_nonneg (by omega) (Int.natCast_nonneg _)
      omega
    have e := caliper_product gain hle
    have h'' : 268433407 < (((raw.toNat - ref.toNat) * gain : Nat) : Int) := e ▸ h
    rw [caliper_of_le gain hle, if_pos (by omega)]
  · exact if_pos h
  · exact (if_neg h).trans (if_pos h')
  · exact (if_neg h).trans (if_neg (Nat.not_lt.2 h'))
  · exact if_pos h
  · exact if_neg (Nat.not_lt.2 h)

/-! ### The cycle record (R34, R59 … R63) -/

/-- R61: only a READY head's sample is usable. -/
theorem usable_eq (r : SlotRecord) : usable r = if r.head = .ready then r.sample else none := by
  unfold usable
  cases r.head <;> rfl

/-- The measurement record under an active bank (R60). -/
theorem convert_bank (refs : PerRef (Option (BitVec 16))) (b : GradeBank) (r : CycleRecord) :
    let m := convert refs (some b) r
    m.bw = byRatio b.betaTable (usable r.chans.beta) refs.beta ∧
    m.w = waterOf b.kT b.tRef (byRatio b.irwTable (usable r.chans.irw) refs.irw) m.temp ∧
    m.cal = caliperOf b.gain (usable r.chans.cal) refs.cal ∧
    m.moi = m.bw.bind (fun x => m.w.bind (fun y => moisture x y)) ∧
    m.dry = m.bw.bind (fun x => m.w.map (fun y => dryWeight x y)) ∧
    m.uncomp = (m.w.isSome && m.temp.isNone) := ⟨rfl, rfl, rfl, rfl, rfl, rfl⟩

/-- The fields a measurement record has with or without a bank (R62, R63). -/
theorem convert_common (refs : PerRef (Option (BitVec 16))) (bank : Option GradeBank) (r : CycleRecord) :
    (convert refs bank r).cycle = r.cycle ∧ (convert refs bank r).snap = r.snap ∧
    (convert refs bank r).sheet = sheetOf r ∧ (convert refs bank r).temp = tempOf r := by
  cases bank <;> exact ⟨rfl, rfl, rfl, rfl⟩

theorem waterOf_none (kT tRef : Int) (t : Option Int) : waterOf kT tRef none t = none := by
  cases t <;> rfl

/-- Settles O17. -/
theorem cycleRecordIsHandedOn : Obligations.CycleRecordIsHandedOn := by
  intro s h chan record m sample
  have husable : ∀ ch, usable (chan ch) = sample ch := fun ch => usable_eq _
  obtain ⟨hcycle, hsnap, hsheet, htemp⟩ := convert_common s.scv.refs s.rbs.activeBank record
  refine ⟨⟨hcycle, hsnap, hsheet.trans ?_, htemp.trans ?_⟩, fun hb => ?_, fun b hb => ?_, fun hs => ?_, fun hs => ?_⟩
  · rw [← husable]
    rfl
  · rw [← husable]
    rfl
  · have hm : m = convert s.scv.refs none record := by rw [← hb]
    rw [hm]
    exact ⟨rfl, rfl, rfl, rfl, rfl, rfl⟩
  · have hm : m = convert s.scv.refs (some b) record := by rw [← hb]
    obtain ⟨hbw, hw, hcal, hmoi, hdry, huncomp⟩ := convert_bank s.scv.refs b record
    rw [← hm] at hbw hw hcal hmoi hdry huncomp
    have hbeta : usable record.chans.beta = sample .beta := husable .beta
    have hirw : usable record.chans.irw = sample .irw := husable .irw
    have hcalw : usable record.chans.cal = sample .cal := husable .cal
    rw [hbeta] at hbw
    rw [hirw] at hw
    rw [hcalw] at hcal
    refine ⟨hbw.trans ?_, hw.trans ?_, hcal.trans ?_, hmoi.trans ?_, hdry.trans ?_, ?_⟩
    · cases sample .beta <;> cases s.scv.refs.beta <;> rfl
    · cases sample .irw <;> cases s.scv.refs.irw <;> first | exact waterOf_none .. | rfl
    · cases sample .cal <;> cases s.scv.refs.cal <;> rfl
    · cases m.bw <;> cases m.w <;> rfl
    · cases m.bw <;> cases m.w <;> rfl
    · rw [huncomp, Bool.and_eq_true, Option.isSome_iff_ne_none, Option.isNone_iff_eq_none]
  · rw [exec_released (f := cycleRecordFormed) rfl h]
    exact congrArg Host.Outcome.next (if_pos hs)
  · rw [exec_released (f := cycleRecordFormed) rfl h]
    exact congrArg Host.Outcome.next (if_neg (Nat.not_lt.2 hs))

/-! ### The edge watch (R92 … R95) -/

/-- The EBM takes its oldest record into the watch. -/
theorem ebmTakeRecord_of {s : State} {r : MRecord} {rest : List MRecord} (h : s.scv.toEbm = r :: rest) :
    ebmTakeRecord s = { s with
      scv := { s.scv with toEbm := rest }, ebm := { s.ebm with watch := ebmTake r s.ebm.watch } } := by
  unfold ebmTakeRecord
  rw [h]
  rfl

theorem ebmTake_skips {r : MRecord} {w : EdgeWatch} (h : w.opened = false ∨ r.snap.state ≠ .traverse) : ebmTake r w = w := by
  refine if_neg fun k => ?_
  rcases h with h | h
  · simp [h] at k
  · exact h k.2

theorem ebmTake_watches {r : MRecord} {w : EdgeWatch} (ho : w.opened = true) (ht : r.snap.state = .traverse) :
    ebmTake r w = watchReading r.sheet r.snap.position w := if_pos ⟨ho, ht⟩

/-- R93: an absent reading lengthens the gap, and from the 16th on the previous reading is forgotten. -/
theorem watchReading_absent (p : Int) (w : EdgeWatch) :
    watchReading none p w = { w with gap := min 16 (w.gap + 1), previous := if min 16 (w.gap + 1) = 16 then none else w.previous } :=
  rfl

/-- R93: a reading like the one before it. -/
theorem watchReading_same {x : Bool} {w : EdgeWatch} (p : Int) (h : w.previous = some x) :
    watchReading (some x) p w = { w with gap := 0 } := by
  obtain ⟨_, _, previous⟩ := w
  dsimp only at h
  subst h
  exact if_pos rfl

/-- R93, R94, R95: a reading that differs from the one before it. -/
theorem watchReading_change {x : Bool} {w : EdgeWatch} (p : Int) (h : w.previous = some (!x)) :
    watchReading (some x) p w = { takeChange x p { w with gap := 0 } with previous := some x } := by
  unfold watchReading
  dsimp only
  rw [h]
  cases x <;> rfl

/-- Settles O24, by the reading and the one before it. -/
theorem edgeWatchReadsSheet : Obligations.EdgeWatchReadsSheet := by
  intro s r rest h hr w left
  have htake : exec .ebmWatchRecord s = .next (left (ebmTake r w)) := by
    rw [exec_released (f := ebmTakeRecord) rfl h, ebmTakeRecord_of hr]
  refine ⟨fun hs => by rw [htake, ebmTake_skips hs], fun ho ht => ?_⟩
  have hwatch := ebmTake_watches (r := r) ho ht
  rw [hwatch] at htake
  refine ⟨fun hx hg => ?_, fun hx hg => ?_, fun hx hg => ?_, fun x hx hp => ?_, fun x hx hp => ?_, fun x hx hp => ?_⟩
  · have hmin : min 16 (w.gap + 1) = w.gap + 1 := by omega
    rw [htake, hx, watchReading_absent, hmin, if_neg (by omega)]
  · have hmin : min 16 (w.gap + 1) = 16 := by omega
    have hreach : reachesGap s = true := by
      simp [reachesGap, hr, ht, hx, show s.ebm.watch.opened = true from ho, show s.ebm.watch.gap = 15 from hg]
    rw [exec_released (f := edgeGapLimit) rfl h, edgeGapLimit, if_pos hreach, ebmTakeRecord_of hr, hwatch, hx,
      watchReading_absent, hmin, if_pos rfl]
  · have hmin : min 16 (w.gap + 1) = 16 := by omega
    rw [htake, hx, watchReading_absent, hmin, if_pos rfl]
  · rw [htake, hx, watchReading]
    dsimp only
    rw [hp]
  · rw [htake, hx, watchReading_same _ hp]
  · rw [hx, watchReading_change _ hp] at htake
    unfold takeChange at htake
    refine ⟨fun htr hx1 hl => ?_, fun htr hx0 => ?_, fun hi => ?_⟩
    · rw [htake, hx1]
      simp [htr, hl]
    · rw [htake, hx0]
      simp [htr]
    · have hcond : (w.trailing.isSome || (x && w.leading.isSome)) = true := by
        rcases hi with hi | ⟨hx1, hl⟩
        · simp [Option.isSome_iff_ne_none.2 hi]
        · simp [hx1, Option.isSome_iff_ne_none.2 hl]
      rw [htake]
      exact congrArg (fun v : EdgeWatch => Host.Outcome.next (left { v with previous := some x })) (if_pos hcond)

end Sys2Proof.Machine
end

section
/-! PROOFS. The PEN and the MSM take their records (R108, R109, R128, R129, R146, R147). -/

namespace Sys2Proof.Machine

open Safety

/-! ### The PEN (R108, R109, R128, R129) -/

theorem penTakeRecord_of {s : State} {r : MRecord} {rest : List MRecord} (h : s.scv.toPen = r :: rest) :
    penTakeRecord s = { s with scv := { s.scv with toPen := rest }, pen := penTake s.msm.state r s.pen } := by
  unfold penTakeRecord
  rw [h]
  rfl

theorem sheetRunning_iff (m : MachineState) : sheetRunning m = true ↔ m = .run ∨ m = .thread := by
  simp [sheetRunning]

theorem penTake_window {machine : MachineState} {r : MRecord} {p : Pen} {w : Window} (hw : p.window = some w)
    (hp : p.period = none) : penTake machine r p = { p with window := some (windowTake machine r w) } := by
  unfold penTake periodTake
  dsimp only
  rw [hp, hw]
  rfl

theorem acceptedBin_eq_none {machine : MachineState} {w : Window} {r : MRecord}
    (h : r.snap.state ≠ .traverse ∨ ¬(machine = .run ∨ machine = .thread) ∨ binOf w.ctx.map r.snap.position = none) :
    acceptedBin machine w r = none := by
  unfold acceptedBin
  split
  · next k =>
    rcases h with h | h | h
    · exact absurd k.1 h
    · exact absurd ((sheetRunning_iff machine).1 k.2) h
    · exact h
  · rfl

/-- R109: the accumulator of one bin after an accepted record. -/
theorem modify_addValue (v : Option Val) (as : List Acc) (i j : Nat) :
    (as.modify i (addValue v))[j]? = as[j]?.map (fun a =>
      match v with
      | none => a
      | some x =>
        if j = i ∧ a.count < 65535 then ⟨a.sum + x.value, a.count + 1, a.clamp + (if x.status = .valid then 0 else 1)⟩
        else a) := by
  rw [List.getElem?_modify]
  refine congrArg (fun f : Acc → Acc => as[j]?.map f) (funext fun a => ?_)
  cases v with
  | none => by_cases hi : i = j <;> simp [hi, addValue]
  | some x =>
    by_cases hi : i = j
    · subst hi
      by_cases hc : 65535 ≤ a.count
      · simp [addValue, hc]
      · by_cases hs : x.status = .valid <;> simp [addValue, hc, hs]
    · simp [hi, Ne.symm hi]

theorem raiseUncomp_of_lt {u : Nat} (h : u < 4294967295) : raiseUncomp u = u + 1 := if_neg (Nat.ne_of_lt h)

/-- R128: a value of a record in the period, in RUN and THREAD. -/
theorem fixedAdd_get (machine : MachineState) (r : MRecord) (f : FixedPeriod) (q : Prop4) :
    (fixedAdd machine r f).accs.get q = match r.profiled.get q with
      | some v => if machine = .run ∨ machine = .thread
          then ⟨(f.accs.get q).sum + v.value, (f.accs.get q).count + 1⟩ else f.accs.get q
      | none => f.accs.get q := by
  unfold fixedAdd
  simp only [sheetRunning_iff]
  by_cases hr : machine = .run ∨ machine = .thread
  · simp only [hr, if_true, PerProp.get_map2, addFixed]
    cases r.profiled.get q <;> rfl
  · simp only [hr, if_false]
    cases r.profiled.get q <;> rfl

/-- R128, R129: the open period takes a record of FIXED. -/
theorem penTake_period {machine : MachineState} {r : MRecord} {p : Pen} {f : FixedPeriod} (hw : p.window = none)
    (hp : p.period = some f) (hr : r.snap.state = .fixed) : penTake machine r p =
      if 2000 ≤ f.records + 1 then
        { p with period := some fixedPeriodFresh, fixedRec := some (fixedRecordOf (fixedAdd machine r f) r) }
      else { p with period := some (fixedAdd machine r f) } := by
  unfold penTake periodTake
  dsimp only
  rw [hp, hw]
  exact if_pos hr

theorem completesPeriod_iff {s : State} {r : MRecord} {rest : List MRecord} {f : FixedPeriod} (h : s.scv.toPen = r :: rest)
    (hp : s.pen.period = some f) : completesPeriod s = true ↔ r.snap.state = .fixed ∧ f.records = 1999 := by
  simp [completesPeriod, h, hp]

/-- Settles O23: a record with the window open, one it does not accept, and one in a fixed-point period. -/
theorem penTakesRecords : Obligations.PenTakesRecords := by
  intro s r rest h hr taken running present
  have htake : exec .penTakeRecord s = .next { taken with pen := penTake s.msm.state r s.pen } := by
    rw [exec_released (f := penTakeRecord) rfl h, penTakeRecord_of hr]
  refine ⟨fun w i hw hp ht hrun hb hu => ?_, fun w hw hp hn => ?_, fun f hw hp hf => ?_⟩
  · have hbin : acceptedBin s.msm.state w r = some i := (if_pos ⟨ht, (sheetRunning_iff _).2 hrun⟩).trans hb
    have htaken : windowTake s.msm.state r w = accumulate w i r := by
      unfold windowTake
      rw [hbin]
    refine ⟨accumulate w i r, ?_, rfl, ?_, fun q j => ?_⟩
    · rw [htake, penTake_window hw hp, htaken]
    · show (if r.uncomp = true then raiseUncomp w.uncomp else w.uncomp) = _
      cases r.uncomp
      · rfl
      · exact raiseUncomp_of_lt hu
    · show ((PerProp.map2 _ r.profiled w.accs).get q)[j]? = _
      rw [PerProp.get_map2]
      exact modify_addValue ..
  · have htaken : windowTake s.msm.state r w = w := by
      unfold windowTake
      rw [acceptedBin_eq_none hn]
    rw [htake, penTake_window hw hp, htaken, ← hw]
  · have hadded := penTake_period (machine := s.msm.state) hw hp hf
    have hcomplete := completesPeriod_iff hr hp
    refine ⟨(fixedAdd s.msm.state r f).accs, fun q => fixedAdd_get .., fun hc => ⟨?_, ?_⟩, fun hc => ?_⟩
    · rw [htake, hadded, if_neg (by omega)]
      rfl
    · rw [exec_released (f := fixedPeriodComplete) rfl h, fixedPeriodComplete, if_neg (fun k => by have := (hcomplete.1 k).2; omega)]
    · have hforms : exec .fixedPeriodComplete s = exec .penTakeRecord s := by
        rw [exec_released (f := fixedPeriodComplete) rfl h, fixedPeriodComplete, if_pos (hcomplete.2 ⟨hf, hc⟩)]
        exact (exec_released (f := penTakeRecord) rfl h).symm
      refine ⟨(fixedAdd s.msm.state r f).accs.map fixedAverage, fun q => PerProp.get_map .., ?_, hforms.symm⟩
      rw [hforms, htake, hadded, if_pos (by omega)]
      rfl

/-! ### The MSM (R146, R147) -/

/-- R146: eligibility. -/
theorem eligibleRecord_iff (e : Ebm) (r : MRecord) : eligibleRecord e r = true ↔
    (r.snap.state = .traverse ∨ r.snap.state = .fixed) ∧
    ∃ ef eb, e.ef = some ef ∧ e.eb = some eb ∧ ef < r.snap.position ∧ r.snap.position < eb := by
  unfold eligibleRecord betweenEdges
  cases e.ef <;> cases e.eb <;> simp

/-- The state in which the oldest record of the MSM is taken. -/
def msmTaken (rest : List MRecord) (s : State) : State := s.withScv { s.scv with toMsm := rest }

theorem msmTakeRecord_of {s : State} {r : MRecord} {rest : List MRecord} (o : OverrideOrder) (h : s.scv.toMsm = r :: rest) :
    msmTakeRecord o s = (msmTake r o (msmTaken rest s)).settleDrive := by
  unfold msmTakeRecord
  rw [h]
  rfl

theorem msmTake_ineligible {s : State} {r : MRecord} (o : OverrideOrder) (h : eligibleRecord s.ebm r = false) :
    msmTake r o s = setRun none s := by
  simp [msmTake, h]

theorem msmTake_clear {s : State} {r : MRecord} (o : OverrideOrder) (h : eligibleRecord s.ebm r = true)
    (hr : r.sheet = some false) : msmTake r o s = takeClear r o s := by
  simp [msmTake, h, hr]

theorem msmTake_set {s : State} {r : MRecord} (o : OverrideOrder) (h : eligibleRecord s.ebm r = true)
    (hr : r.sheet = some true) : msmTake r o s = takeSet s := by
  simp [msmTake, h, hr]

theorem msmTake_absent {s : State} {r : MRecord} (o : OverrideOrder) (h : eligibleRecord s.ebm r = true)
    (hr : r.sheet = none) : msmTake r o s = setRun (s.msm.run.bind gapRun) s := by
  simp [msmTake, h, hr]

theorem takeClear_keeps {s : State} {r : MRecord} {o : OverrideOrder}
    (h : losesSheet s.rbs.common.sheetLost (growRun r.snap.position s.msm.run) = false) :
    takeClear r o s = setRun (some (growRun r.snap.position s.msm.run)) s := by
  simp [takeClear, h]

/-- Settles O25. -/
theorem sheetRunsAreCounted : Obligations.SheetRunsAreCounted := by
  intro s o r rest h hd hr left eligible
  have hexec : ∀ {run}, msmTake r o (msmTaken rest s) = setRun run (msmTaken rest s) →
      exec (.msmTakeRecord o) s = .next (left run) := by
    intro run e
    rw [exec_released (f := msmTakeRecord o) rfl h, msmTakeRecord_of o hr, e, State.settleDrive_of_settled (by exact hd)]
    rfl
  refine ⟨fun he => hexec (msmTake_ineligible o (Bool.eq_false_iff.2 fun k => he ((eligibleRecord_iff ..).1 k))), fun he => ?_⟩
  have helig : eligibleRecord (msmTaken rest s).ebm r = true := (eligibleRecord_iff ..).2 he
  have hgap : ∀ {run'}, r.sheet = none → s.msm.run.bind gapRun = run' →
      msmTake r o (msmTaken rest s) = setRun run' (msmTaken rest s) := fun hx e => e ▸ msmTake_absent o helig hx
  refine ⟨fun hx hn hl => ?_, fun x hx hn hl => ?_, fun hx hn => ?_, fun x hx hn hg => ?_, fun x hx hn hg => ?_, fun hx hn => ?_,
    fun x hx hn hs hl => ?_⟩
  · have hrun : (msmTaken rest s).msm.run = none := hn
    refine hexec ((msmTake_clear o helig hx).trans ((takeClear_keeps ?_).trans ?_))
    · rw [hrun]
      exact decide_eq_false (Nat.not_le.2 hl)
    · rw [hrun]
      rfl
  · have hrun : (msmTaken rest s).msm.run = some x := hn
    have hcommon : (msmTaken rest s).rbs = s.rbs := rfl
    refine hexec ((msmTake_clear o helig hx).trans ((takeClear_keeps ?_).trans ?_))
    · rw [hrun, hcommon]
      rcases hl with hl | hl
      · simp [losesSheet, growRun, hl]
      · have : ¬ s.rbs.common.sheetLost ≤ satInc 4000 x.length := by
          unfold satInc
          omega
        simp [losesSheet, growRun, this]
    · rw [hrun]
      rfl
  · exact hexec (hgap hx (by rw [hn]; rfl))
  · exact hexec (hgap hx (by rw [hn]; exact if_neg (by omega)))
  · have hreach : reachesRunGap s = true := by
      have helig' : eligibleRecord s.ebm r = true := helig
      simp [reachesRunGap, hr, hn, helig', hx, hg]
    have habs := msmTake_absent .overrideFirst helig hx
    rw [show (msmTaken rest s).msm.run = some x from hn] at habs
    rw [exec_released (f := sheetRunGapLimit) rfl h, sheetRunGapLimit, if_pos hreach, msmTakeRecord_of .overrideFirst hr, habs,
      show (some x).bind gapRun = none from if_pos (by omega), State.settleDrive_of_settled (by exact hd)]
    rfl
  · refine hexec ((msmTake_set o helig hx).trans ?_)
    cases hrun : s.msm.run with
    | none =>
      have hrun' : (msmTaken rest s).msm.run = none := hrun
      unfold takeSet
      rw [hrun']
      show msmTaken rest s = (msmTaken rest s).withMsm { (msmTaken rest s).msm with run := none }
      rw [← hrun']
      rfl
    | some x =>
      have hrun' : (msmTaken rest s).msm.run = some x := hrun
      have hhole : isHole x = false := by
        rcases hn x hrun with e | e
        · simp [isHole, e]
        · simp [isHole, Nat.not_le.2 e]
      unfold takeSet
      rw [hrun']
      simp [hhole]
  · have hrun' : (msmTaken rest s).msm.run = some x := hn
    have hhole : isHole x = true := by simp [isHole, hs, hl]
    refine ⟨_, exec_released (f := msmTakeRecord o) rfl h, ?_⟩
    have e : takeSet (msmTaken rest s) =
        ((setRun none (msmTaken rest s)).withMsm { s.msm with run := none, holeSeen := true }).activate ptHole := by
      unfold takeSet
      rw [hrun']
      exact if_pos hhole
    rw [msmTakeRecord_of o hr, msmTake_set o helig hx, e]
    refine ⟨by simp, State.activate_active _ ptHole, ?_, ?_, ?_⟩ <;> simp [setRun, msmTaken]

end Sys2Proof.Machine
end

section
/-! PROOFS. What the moves of the carriage leave of the alarm points: a grade application returns the limit points, and no move
touches another point but for its annunciation (R87, R164, R168). -/

namespace Sys2Proof.Machine

open Safety

/-- Outside the limit points every point keeps all but its annunciated flag, which is not lost; and no point becomes suppressed. -/
structure Quiet (s t : State) : Prop where
  state : ∀ j : PointNo, j ∉ limitPoints → (t.alt.points[j]).state = (s.alt.points[j]).state
  count : ∀ j : PointNo, j ∉ limitPoints → (t.alt.points[j]).count = (s.alt.points[j]).count
  kept : ∀ j : PointNo, j ∉ limitPoints → (s.alt.points[j]).annunciated = true → (t.alt.points[j]).annunciated = true
  suppressed : ∀ j : PointNo, (s.alt.points[j]).suppressed = false → (t.alt.points[j]).suppressed = false

theorem Quiet.of_alt {s t : State} (h : t.alt = s.alt) : Quiet s t :=
  ⟨fun _ _ => by rw [h], fun _ _ => by rw [h], fun _ _ k => by rw [h]; exact k, fun _ k => by rw [h]; exact k⟩

theorem Quiet.refl (s : State) : Quiet s s := .of_alt rfl

theorem Quiet.trans {s t u : State} (h : Quiet s t) (k : Quiet t u) : Quiet s u :=
  ⟨fun j hj => (k.state j hj).trans (h.state j hj), fun j hj => (k.count j hj).trans (h.count j hj),
    fun j hj x => k.kept j hj (h.kept j hj x), fun j x => k.suppressed j (h.suppressed j x)⟩

/-- The same from a state with the same table. -/
theorem Quiet.of_same {s u t : State} (k : Quiet u t) (h : u.alt = s.alt := by rfl) : Quiet s t := (Quiet.of_alt h).trans k

/-- A return moves its own point, to one that is not suppressed if it was not, and no other (R164). -/
theorem returnPoint_keeps (x : AlarmCtx) (i : PointNo) (ap : AltPorts) :
    (∀ j : PointNo, j ≠ i → ((returnPoint x i ap).1.points[j]).state = (ap.1.points[j]).state ∧
      ((returnPoint x i ap).1.points[j]).count = (ap.1.points[j]).count ∧
      ((ap.1.points[j]).annunciated = true → ((returnPoint x i ap).1.points[j]).annunciated = true)) ∧
    ∀ j : PointNo, (ap.1.points[j]).suppressed = false → ((returnPoint x i ap).1.points[j]).suppressed = false := by
  have key : ∃ a : Alt, returnPoint x i ap = settleAlarms x (a, ap.2) ∧ (∀ j : PointNo, j ≠ i → a.points[j] = ap.1.points[j]) ∧
      ((ap.1.points[i]).suppressed = false → (a.points[i]).suppressed = false) := by
    refine ⟨_, rfl, fun j hj => ?_, fun hs => ?_⟩
    · split
      · rw [Alt.setPoint_get, if_neg hj]
      · split <;> simp only [Alt.dropOrder, Alt.setPoint_get] <;> simp [hj]
      · rfl
      · rfl
    · split
      · rw [Alt.setPoint_get, if_pos rfl]
      · split
        · simp only [Alt.dropOrder, Alt.setPoint_get]
          exact hs
        · simp only [Alt.dropOrder, Alt.setPoint_get]
          rfl
      · exact hs
      · exact hs
  obtain ⟨a, e, hothers, hown⟩ := key
  have h := settleAlarms_passed x (a, ap.2)
  rw [e]
  refine ⟨fun j hj => ?_, fun j hs => (h.suppressed j).trans ?_⟩
  · rw [← hothers j hj]
    exact ⟨h.state j, h.count j, h.kept j⟩
  · by_cases hj : j = i
    · subst hj
      exact hown hs
    · exact (congrArg AlarmPoint.suppressed (hothers j hj)).trans hs

theorem quiet_returnAlarm (s : State) {i : PointNo} (hi : i ∈ limitPoints) : Quiet s (s.returnAlarm i) := by
  obtain ⟨h, hs⟩ := returnPoint_keeps s.alarmCtx i s.alarms
  have hne : ∀ {j : PointNo}, j ∉ limitPoints → j ≠ i := fun hj e => hj (e ▸ hi)
  exact ⟨fun j hj => (h j (hne hj)).1, fun j hj => (h j (hne hj)).2.1, fun j hj => (h j (hne hj)).2.2, hs⟩

theorem quiet_returnAlarms (is : List PointNo) (h : ∀ i ∈ is, i ∈ limitPoints) (s : State) : Quiet s (s.returnAlarms is) := by
  unfold State.returnAlarms
  induction is generalizing s with
  | nil => exact Quiet.refl s
  | cons i is ih =>
    exact (quiet_returnAlarm s (h i List.mem_cons_self)).trans (ih (fun _ hj => h _ (List.mem_cons_of_mem _ hj)) _)

theorem quiet_applyPendingGrade (s : State) : Quiet s (applyPendingGrade s) := by
  unfold applyPendingGrade
  split
  · exact Quiet.refl s
  · unfold applyGrade
    split
    · exact Quiet.of_alt rfl
    · exact (quiet_returnAlarms _ (fun _ h => h) _).of_same

@[simp] theorem setCarriage_alt (st : CarriageState) (s : State) : (setCarriage st s).alt = s.alt := rfl
@[simp] theorem travel_alt (st : CarriageState) (x : Int) (d : Dir) (a : Approach) (v : Nat) (s : State) :
    (travel st x d a v s).alt = s.alt := rfl
@[simp] theorem enterTurning_alt (d : Dir) (s : State) : (enterTurning d s).alt = s.alt := rfl
@[simp] theorem comeToRest_alt (st : CarriageState) (s : State) : (comeToRest st s).alt = s.alt := rfl
@[simp] theorem computeLimits_alt (s : State) : (computeLimits s).alt = s.alt := rfl
@[simp] theorem openStd_alt (s : State) : (openStd s).alt = s.alt := rfl
@[simp] theorem arriveStd_alt (s : State) : (arriveStd s).alt = s.alt := rfl

theorem intervalCheck_alt (s : State) : (intervalCheck s).alt = s.alt := by
  unfold intervalCheck setDue
  split
  · split <;> rfl
  · rfl

theorem applyPendingPlan_alt (s : State) : (applyPendingPlan s).alt = s.alt := by
  unfold applyPendingPlan
  split
  · rfl
  · exact intervalCheck_alt _

theorem abortTraverse_alt (s : State) : (abortTraverse s).alt = s.alt := by
  unfold abortTraverse
  split <;> rfl

theorem takeStd_alt (s : State) : (takeStd s).alt = s.alt := by
  unfold takeStd beginStd goStd
  dsimp only
  split <;> simp [abortTraverse_alt]

theorem goLimit_alt (s : State) : (goLimit s).alt = s.alt := by
  simp only [goLimit]
  repeat' split
  all_goals simp

theorem quiet_goPark {next : State → State} (hn : ∀ u, Quiet u (next u)) (s : State) : Quiet s (goPark next s) := by
  unfold goPark
  split
  · exact Quiet.refl s
  dsimp only
  split
  · unfold arriveParked
    exact (((quiet_applyPendingGrade _).of_same (s := s) (by simp)).trans (.of_alt (applyPendingPlan_alt _))).trans (hn _)
  · exact Quiet.of_alt (travel_alt ..)

theorem quiet_goFixed {next : State → State} (hn : ∀ u, Quiet u (next u)) (s : State) : Quiet s (goFixed next s) := by
  unfold goFixed
  dsimp only
  split
  · unfold arriveFixed
    dsimp only
    have happlied : ∀ u : State, u.alt = s.alt → Quiet s (applyPendingPlan (applyPendingGrade (comeToRest .fixed u))) := fun u hu =>
      ((quiet_applyPendingGrade (comeToRest .fixed u)).of_same hu).trans (.of_alt (applyPendingPlan_alt _))
    split
    · exact (happlied _ (travel_alt ..)).trans (.of_alt (takeStd_alt _))
    split
    · exact happlied _ (travel_alt ..)
    · exact (happlied _ (travel_alt ..)).trans (hn _)
  · exact Quiet.of_alt (travel_alt ..)

theorem quiet_nextMotion (n : Nat) (s : State) : Quiet s (nextMotion n s) := by
  induction n generalizing s with
  | zero => exact Quiet.refl s
  | succ n ih =>
    unfold nextMotion
    split
    · exact .of_alt (takeStd_alt s)
    split
    · exact quiet_goPark ih s
    split
    · exact quiet_goPark ih s
    · exact quiet_goFixed ih s
    · exact .of_alt (goLimit_alt s)

theorem quiet_takeOverride (s : State) : Quiet s (takeOverride s) := by
  unfold takeOverride
  dsimp only
  split
  · refine (quiet_goPark (quiet_nextMotion motionBound) _).of_same ?_
    exact abortTraverse_alt (s.withCmu { s.cmu with overrideWait := 0 })
  · exact .of_alt rfl

theorem quiet_raiseOverride (o : OverrideOrder) (s : State) : Quiet s (raiseOverride o s) := by
  unfold raiseOverride
  split
  · exact quiet_takeOverride s
  · split
    · exact .of_alt rfl
    · exact Quiet.refl s

theorem quiet_setMsmSource (o : OverrideOrder) (s : State) : Quiet s (setMsmSource o s) :=
  (quiet_raiseOverride o (s.withMsm { s.msm with source := true })).of_same

theorem quiet_flushOverride (s : State) : Quiet s (flushOverride s) := by
  unfold flushOverride
  split
  · exact (quiet_takeOverride s).trans (.of_alt rfl)
  · exact Quiet.refl s

theorem quiet_overrideCleared (was : Bool) (s : State) : Quiet s (overrideCleared was s) := by
  have hpark : (parkUnlessResume s).alt = s.alt := by rw [parkUnlessResume_eq]; rfl
  rw [overrideCleared_eq]
  split
  · split
    · exact (quiet_nextMotion motionBound _).of_same hpark
    · exact .of_alt hpark
  · exact Quiet.refl s

theorem quiet_clearMsmSource (s : State) : Quiet s (clearMsmSource s) :=
  (quiet_flushOverride s).trans (quiet_overrideCleared _ _).of_same

end Sys2Proof.Machine
end

section
/-! PROOFS. The changes of the machine state and their causes (R143, R144, R147, R149 … R157). -/

namespace Sys2Proof.Machine

open Safety

/-! ### What each change of state leaves (R152 … R154) -/

@[simp] theorem stateNotice_alt (new old : MachineState) (cause : StateCause) (s : State) :
    (stateNotice new old cause s).alt = s.alt := rfl
@[simp] theorem stateNotice_msm (new old : MachineState) (cause : StateCause) (s : State) :
    (stateNotice new old cause s).msm = s.msm := rfl

@[simp] theorem stateNotice_hbc (new old : MachineState) (cause : StateCause) (s : State) :
    (stateNotice new old cause s).hbc = s.hbc := rfl

theorem setMsmSource_msm (o : OverrideOrder) (s : State) : (setMsmSource o s).msm = { s.msm with source := true } :=
  (aside_raiseOverride o _).msm

theorem clearMsmSource_msm (s : State) : (clearMsmSource s).msm = { s.msm with source := false } :=
  (aside_overrideCleared _ _).msm.trans (by rw [State.withMsm_msm, (aside_flushOverride s).msm])

theorem clearMsmSource_hbc (s : State) : (clearMsmSource s).hbc = s.hbc :=
  (aside_overrideCleared _ _).hbc.trans (aside_flushOverride s).hbc

/-- The entry into DOWN (R153, R154). -/
theorem changeState_down_left (cause : StateCause) (o : OverrideOrder) (s : State) :
    (changeState .down cause o s).msm = { s.msm with state := .down, widthPasses := 0, source := true } ∧
    ((changeState .down cause o s).alt.points[ptBreak]).state ∈ [PointState.normal, .returnUnack] ∧
    (changeState .down cause o s).hbc = s.hbc := by
  let u := (stateNotice .down s.msm.state cause (s.withMsm (enteredMsm .down s))).returnAlarm ptBreak
  have e : changeState .down cause o s = setMsmSource o u := changeState_down ..
  have hq := (quiet_setMsmSource o u).state ptBreak (by decide)
  rw [e]
  refine ⟨setMsmSource_msm o u, ?_, (aside_raiseOverride o _).hbc⟩
  rw [hq]
  exact State.returnAlarm_over _ ptBreak

/-- The entry into BREAK (R153, R154, R163). -/
theorem changeState_brk_left (cause : StateCause) (o : OverrideOrder) (s : State) :
    let t := changeState .brk cause o s
    t.msm = { s.msm with state := .brk, widthPasses := 0, source := true } ∧
    (t.alt.points[ptBreak]).state = .activeUnack ∧ (t.alt.points[ptBreak]).annunciated = true ∧
    (t.alt.points[ptBreak]).count = min 65535 ((s.alt.points[ptBreak]).count + 1) ∧ t.hbc = s.hbc := by
  let v := stateNotice .brk s.msm.state cause (s.withMsm (enteredMsm .brk s))
  have e : changeState .brk cause o s = setMsmSource o (v.activate ptBreak) := changeState_brk ..
  obtain ⟨hstate, hann, hcount, _⟩ := activateBreak_state v.alarmCtx v.alarms
  have hbreak : (v.activate ptBreak).alt = (activateBreak v.alarmCtx v.alarms).1 := by
    unfold State.activate
    rw [if_pos rfl]
    rfl
  rw [← hbreak] at hstate hann hcount
  have hq := quiet_setMsmSource o (v.activate ptBreak)
  have hout : ptBreak ∉ limitPoints := by decide
  intro t
  have ht : t = setMsmSource o (v.activate ptBreak) := e
  rw [ht]
  exact ⟨setMsmSource_msm o _, (hq.state _ hout).trans hstate, hq.kept _ hout hann, (hq.count _ hout).trans hcount,
    (aside_raiseOverride o _).hbc⟩

/-- The entry into THREAD (R153, R157). -/
theorem changeState_thread_left (cause : StateCause) (o : OverrideOrder) (s : State) :
    (changeState .thread cause o s).msm = { enteredMsm .thread s with source := false } ∧
    (changeState .thread cause o s).hbc = s.hbc := by
  rw [changeState_thread, clearMsmSource_msm, clearMsmSource_hbc]
  exact ⟨rfl, rfl⟩

/-- The entry into RUN (R152, R153, R166). -/
theorem changeState_run_left (cause : StateCause) (o : OverrideOrder) (s : State) :
    let t := changeState .run cause o s
    t.msm = { enteredMsm .run s with source := false } ∧
    (t.alt.points[ptBreak]).state ∈ [PointState.normal, .returnUnack] ∧
    (∀ i : PointNo, (t.alt.points[i]).suppressed = false) ∧ t.hbc = s.hbc := by
  let u := (stateNotice .run s.msm.state cause (s.withMsm (enteredMsm .run s))).returnAlarm ptBreak
  have e : changeState .run cause o s = clearMsmSource u.unsuppressAll := changeState_run ..
  have hpass := settleAlarms_passed u.alarmCtx
    ({ u.alt with points := u.alt.points.map (fun p => { p with suppressed := false }) }, u.ports)
  have hsup : ∀ i : PointNo, (u.unsuppressAll.alt.points[i]).suppressed = false := fun i =>
    (hpass.suppressed i).trans (by simp)
  have hover : (u.unsuppressAll.alt.points[ptBreak]).state ∈ [PointState.normal, .returnUnack] := by
    have k : (u.unsuppressAll.alt.points[ptBreak]).state = (u.alt.points[ptBreak]).state :=
      (hpass.state ptBreak).trans (by simp)
    rw [k]
    exact State.returnAlarm_over _ ptBreak
  have hq := quiet_clearMsmSource u.unsuppressAll
  intro t
  have ht : t = clearMsmSource u.unsuppressAll := e
  rw [ht, clearMsmSource_msm, clearMsmSource_hbc]
  refine ⟨by simp [u], ?_, fun i => hq.suppressed i (hsup i), by simp [u]⟩
  rw [hq.state ptBreak (by decide)]
  exact hover

/-! ### A break cause (R149, R155, R156) -/

/-- R155: the log after a new record, in RUN and THREAD. -/
theorem openRecord_log (f : FirstOut) (m : Msm) :
    (openRecord f m).log.head? = some ⟨m.nextBreak, f, [], 0, none, none, none, true⟩ ∧
    (openRecord f m).log.length = min 8 (m.log.length + 1) ∧ (openRecord f m).nextBreak = m.nextBreak + 1 ∧
    (openRecord f m).run = m.run ∧ (openRecord f m).lines = m.lines ∧ (openRecord f m).speed = m.speed := by
  have hnewest : ∀ g, (updNewest g m).log.length = m.log.length ∧ (updNewest g m).nextBreak = m.nextBreak ∧
      (updNewest g m).run = m.run ∧ (updNewest g m).lines = m.lines ∧ (updNewest g m).speed = m.speed := by
    intro g
    unfold updNewest
    split
    · exact ⟨rfl, rfl, rfl, rfl, rfl⟩
    · next r rest e => exact ⟨by rw [e]; rfl, rfl, rfl, rfl, rfl⟩
  unfold openRecord
  by_cases h : m.state = .thread
  · obtain ⟨h1, h2, h3, h4, h5⟩ := hnewest closeRecord
    simp [h, h1, h2, h3, h4, h5]
    omega
  · simp [h]
    omega

/-- R149, R153, R155: a cause taken in RUN or THREAD enters BREAK with its record open. -/
theorem takeCause_enters {s : State} (kind : CauseKind) (pos : Int) (c : Cycle) (cause : StateCause) (o : OverrideOrder)
    (h : s.msm.state = .run ∨ s.msm.state = .thread) :
    let t := takeCause kind pos c cause o s
    breakEntered s t kind pos c ∧ t.msm.run = s.msm.run ∧ t.msm.lines = s.msm.lines ∧ t.msm.speed = s.msm.speed ∧
    t.hbc = s.hbc := by
  let u := s.withMsm (openRecord ⟨kind, pos, s.pen.counter, c⟩ s.msm)
  have e : takeCause kind pos c cause o s = changeState .brk cause o u := by
    unfold takeCause
    rcases h with h | h <;> rw [h]
  obtain ⟨hmsm, hstate, hann, hcount, hhbc⟩ := changeState_brk_left cause o u
  obtain ⟨hhead, hlength, hnext, hrun, hlines, hspeed⟩ := openRecord_log ⟨kind, pos, s.pen.counter, c⟩ s.msm
  intro t
  have ht : t = changeState .brk cause o u := e
  rw [ht]
  unfold breakEntered
  rw [hmsm]
  exact ⟨⟨rfl, rfl, rfl, hhead, hlength, hnext, hstate, hann, hcount⟩, hrun, hlines, hspeed, hhbc⟩

theorem takeCause_down {s : State} (kind : CauseKind) (pos : Int) (c : Cycle) (cause : StateCause) (o : OverrideOrder)
    (h : s.msm.state = .down) : takeCause kind pos c cause o s = s := by
  unfold takeCause
  rw [h]

theorem takeCause_brk {s : State} (kind : CauseKind) (pos : Int) (c : Cycle) (cause : StateCause) (o : OverrideOrder)
    (h : s.msm.state = .brk) : takeCause kind pos c cause o s = s.withMsm (appendCause ⟨kind, pos, c⟩ s.msm) := by
  unfold takeCause
  rw [h]

/-- R156: a new cause in an open record, appended while it has room and counted when it is full. -/
theorem appendCause_new {m : Msm} {c : LaterCause} {r : BreakRecord} {older : List BreakRecord} (hl : m.log = r :: older)
    (ho : r.isOpen = true) (hf : r.first.kind ≠ c.kind) (hk : ∀ x ∈ r.later, x.kind ≠ c.kind) :
    appendCause c m = { m with log := (if r.later.length < 4 then { r with later := r.later ++ [c] }
      else { r with overflow := min 255 (r.overflow + 1) }) :: older } := by
  have hnew : ¬(c.kind = r.first.kind ∨ c.kind ∈ r.later.map LaterCause.kind) := by
    rintro (e | e)
    · exact hf e.symm
    · obtain ⟨x, hx, e⟩ := List.mem_map.1 e
      exact hk x hx e
  unfold appendCause updNewest
  rw [hl]
  dsimp only
  rw [ho]
  simp only [Bool.not_true, Bool.false_eq_true, if_false, if_neg hnew]
  rfl

@[simp] theorem growRun_some (p : Int) (x : SheetRun) :
    growRun p (some x) = ⟨x.start, satInc 4000 x.length, 0, x.spent⟩ := rfl

/-! ### SHEET LOST (R147) -/

/-- Settles O26, by the machine state. -/
theorem sheetLostIsABreakCause : Obligations.SheetLostIsABreakCause := by
  intro s o r rest ef eb x h hr hsnap hef heb hlo hhi hx hrun hspent hlen hlost spent
  let u := msmTaken rest s
  have helig : eligibleRecord s.ebm r = true := (eligibleRecord_iff ..).2 ⟨hsnap, ef, eb, hef, heb, hlo, hhi⟩
  have hgrow : growRun r.snap.position s.msm.run = ⟨x.start, x.length + 1, 0, false⟩ := by
    rw [hrun]
    have hsat : satInc 4000 x.length = x.length + 1 := by
      unfold satInc
      omega
    rw [growRun_some, hsat, hspent]
  have hloses : losesSheet s.rbs.common.sheetLost (growRun r.snap.position s.msm.run) = true := by
    rw [hgrow]
    exact decide_eq_true hlost
  have hreach : reachesLost s = true := by
    unfold reachesLost
    rw [hr]
    simp [helig, hx, hloses]
  have hclear : takeClear r o u = takeCause .sheetLost x.start r.cycle .sheetLost o (setRun (some spent) u) := by
    have hloses' : losesSheet u.rbs.common.sheetLost (growRun r.snap.position u.msm.run) = true := hloses
    have hgrow' : growRun r.snap.position u.msm.run = _ := hgrow
    unfold takeClear
    rw [if_pos hloses', hgrow']
  have hexec : exec (.sheetLost o) s =
      .next (takeCause .sheetLost x.start r.cycle .sheetLost o (setRun (some spent) u)).settleDrive := by
    rw [exec_released (f := sheetLost o) rfl h, sheetLost, if_pos hreach, msmTakeRecord_of o hr,
      msmTake_clear o (by exact helig) hx, hclear]
  refine ⟨fun hs => ?_, fun hs hd => ?_, fun newest older hs hd hl ho hf hk hfull => ?_⟩
  · obtain ⟨hent, hrun', _⟩ := takeCause_enters (s := setRun (some spent) u) .sheetLost x.start r.cycle .sheetLost o hs
    exact ⟨_, hexec, hent, hrun'⟩
  · rw [hexec, takeCause_down (s := setRun (some spent) u) _ _ _ _ _ hs, State.settleDrive_of_settled (by exact hd)]
    rfl
  · rw [hexec, takeCause_brk (s := setRun (some spent) u) _ _ _ _ _ hs, State.settleDrive_of_settled (by exact hd),
      appendCause_new (by exact hl) ho hf hk, if_pos hfull]
    rfl

/-! ### The break lines (R142, R143) -/

theorem breakLineConfirmed_eq (l : BreakLine) (high : Bool) (o : OverrideOrder) (s : State) :
    breakLineConfirmed l high o s = (readingChanged l (lineReading s.rbs.common s.msm l) o
      (s.withMsm { s.msm with lines := s.msm.lines.set l ⟨some high, 3, some high⟩ })).settleDrive := by
  unfold breakLineConfirmed
  rw [confirmLine_three]

/-- R143: the reading of an enabled line. -/
theorem lineReading_enabled {b : CommonBank} {m : Msm} {l : BreakLine} (h : b.lineEnable.get l = true) :
    lineReading b m l = match (m.lines.get l).confirmed with
      | none => .none
      | some high => if high = b.lineLow.get l then .absent else .present := if_pos h

theorem lineReading_disabled {b : CommonBank} {m : Msm} {l : BreakLine} (h : b.lineEnable.get l = false) :
    lineReading b m l = .none := if_neg (by simp [h])

/-- An enabled line reads absent where its confirmed level is its absent one (R143). -/
theorem lineReading_absent_iff {b : CommonBank} {m : Msm} {l : BreakLine} (h : b.lineEnable.get l = true) :
    lineReading b m l = .absent ↔ (m.lines.get l).confirmed = some (b.lineLow.get l) := by
  rw [lineReading_enabled h]
  cases hc : (m.lines.get l).confirmed with
  | none => simp
  | some high => by_cases e : high = b.lineLow.get l <;> simp [e]

/-- An enabled line reads present where its confirmed level is the other one. -/
theorem lineReading_present_iff {b : CommonBank} {m : Msm} {l : BreakLine} (h : b.lineEnable.get l = true) :
    lineReading b m l = .present ↔ (m.lines.get l).confirmed = some (!b.lineLow.get l) := by
  rw [lineReading_enabled h]
  cases hc : (m.lines.get l).confirmed with
  | none => simp
  | some high => cases high <;> cases b.lineLow.get l <;> simp

/-- R150: the line condition. -/
theorem lineCondition_iff (b : CommonBank) (m : Msm) : lineCondition b m = true ↔
    (∃ l, b.lineEnable.get l = true) ∧ ∀ l, b.lineEnable.get l = true → lineReading b m l = .present := by
  simp only [lineCondition, Bool.and_eq_true, List.any_eq_true, List.all_eq_true, Bool.or_eq_true, Bool.not_eq_true',
    beq_iff_eq]
  constructor
  · rintro ⟨⟨l, _, hl⟩, hall⟩
    exact ⟨⟨l, hl⟩, fun k hk => (hall k (mem_allLines k)).resolve_left (by simp [hk])⟩
  · rintro ⟨⟨l, hl⟩, hall⟩
    refine ⟨⟨l, mem_allLines l, hl⟩, fun k _ => ?_⟩
    cases hk : b.lineEnable.get k with
    | false => exact .inl rfl
    | true => exact .inr (hall k hk)

theorem enteredMsm_thread_fields (s : State) : (enteredMsm .thread s).lines = s.msm.lines ∧
    (enteredMsm .thread s).nextBreak = s.msm.nextBreak ∧ (enteredMsm .thread s).speed = s.msm.speed ∧
    (enteredMsm .thread s).state = .thread := by
  refine ⟨?_, ?_, ?_, enteredMsm_state .thread s⟩ <;> simp only [enteredMsm, updNewest] <;> split <;> rfl

/-- R150: the line condition takes the machine to THREAD. -/
theorem testLines_left {s : State} (h : lineCondition s.rbs.common s.msm = true) :
    (testLines s).msm.state = .thread ∧ (testLines s).msm.source = false ∧ (testLines s).msm.lines = s.msm.lines ∧
    (testLines s).msm.nextBreak = s.msm.nextBreak ∧ (testLines s).msm.speed = s.msm.speed ∧ (testLines s).hbc = s.hbc := by
  obtain ⟨hmsm, hhbc⟩ := changeState_thread_left .linesPresent .overrideFirst s
  obtain ⟨h1, h2, h3, h4⟩ := enteredMsm_thread_fields s
  unfold testLines
  rw [if_pos h, hmsm]
  exact ⟨h4, rfl, h1, h2, h3, hhbc⟩

/-- A level confirmed again, or of a disabled line, changes no reading (R143). -/
theorem readingChanged_same {s : State} {l : BreakLine} {was : Reading} (o : OverrideOrder)
    (h : lineReading s.rbs.common s.msm l = was) : readingChanged l was o s = s := if_pos h

/-- R143, R155: an enabled line turned to absent is a cause. -/
theorem readingChanged_absent {s : State} {l : BreakLine} {was : Reading} (o : OverrideOrder)
    (h : lineReading s.rbs.common s.msm l = .absent) (hw : was ≠ .absent) :
    readingChanged l was o s = takeCause (.line l) s.cmu.position s.hbc.cycle (.line l) o s :=
  (if_neg (fun e => hw (e.symm.trans h))).trans (if_pos h)

/-- R143, R150: an enabled line turned to present tests the line condition in BREAK. -/
theorem readingChanged_present {s : State} {l : BreakLine} {was : Reading} (o : OverrideOrder)
    (h : lineReading s.rbs.common s.msm l = .present) (hw : was ≠ .present) (hs : s.msm.state = .brk) :
    readingChanged l was o s = testLines s :=
  (if_neg (fun e => hw (e.symm.trans h))).trans ((if_neg (by simp [h])).trans (if_pos hs))

/-- Settles O27, by the reading before and after. -/
theorem breakLinesAreRead : Obligations.BreakLinesAreRead := by
  intro s l high o h confirmed was
  let u := s.withMsm { s.msm with lines := confirmed }
  have hexec : exec (.breakLineConfirmed l high o) s =
      .next (readingChanged l (lineReading s.rbs.common s.msm l) o u).settleDrive := by
    rw [exec_released (f := breakLineConfirmed l high o) rfl h, breakLineConfirmed_eq]
  have hlevel : (u.msm.lines.get l).confirmed = some high := congrArg Sampled.confirmed (PerLine.get_set_same ..)
  refine ⟨fun hsame hd => ?_, fun he hhigh hw => ?_, fun he hhigh hw hs hall => ?_⟩
  · have hreading : lineReading u.rbs.common u.msm l = lineReading s.rbs.common s.msm l := by
      cases he : s.rbs.common.lineEnable.get l with
      | false => exact (lineReading_disabled (b := u.rbs.common) he).trans (lineReading_disabled he).symm
      | true =>
        have hw : (s.msm.lines.get l).confirmed = some high := hsame.resolve_left (by simp [he])
        rw [lineReading_enabled (b := u.rbs.common) he, lineReading_enabled he, hlevel, hw]
        rfl
    rw [hexec, readingChanged_same o hreading, State.settleDrive_of_settled (by exact hd)]
    rfl
  · have hnow : lineReading u.rbs.common u.msm l = .absent := (lineReading_absent_iff he).2 (by rw [hlevel, hhigh])
    have hbefore : lineReading s.rbs.common s.msm l ≠ .absent := fun e =>
      hw (((lineReading_absent_iff he).1 e).trans (by rw [hhigh]))
    rw [readingChanged_absent o hnow hbefore] at hexec
    refine ⟨fun hs => ?_, fun hs hd => ?_, fun newest older hs hd hl ho hf hk hfull => ?_⟩
    · obtain ⟨hent, _, hlines, _⟩ := takeCause_enters (s := u) (.line l) u.cmu.position u.hbc.cycle (.line l) o hs
      exact ⟨_, hexec, hent, hlines⟩
    · rw [hexec, takeCause_down (s := u) _ _ _ _ _ hs, State.settleDrive_of_settled (by exact hd)]
      rfl
    · rw [hexec, takeCause_brk (s := u) _ _ _ _ _ hs, State.settleDrive_of_settled (by exact hd),
        appendCause_new (by exact hl) ho hf hk, if_neg (by omega)]
      rfl
  · have hother : high = !s.rbs.common.lineLow.get l := by
      cases high <;> cases hlow : s.rbs.common.lineLow.get l <;> simp_all
    have hnow : lineReading u.rbs.common u.msm l = .present := (lineReading_present_iff he).2 (by rw [hlevel, hother])
    have hbefore : lineReading s.rbs.common s.msm l ≠ .present := fun e =>
      hw (((lineReading_present_iff he).1 e).trans (by rw [hother]))
    have hcond : lineCondition u.rbs.common u.msm = true := by
      refine (lineCondition_iff ..).2 ⟨⟨l, he⟩, fun k hk => ?_⟩
      by_cases e : k = l
      · exact e ▸ hnow
      · refine (lineReading_present_iff hk).2 ?_
        show ((s.msm.lines.set l _).get k).confirmed = _
        rw [PerLine.get_set_ne _ _ e]
        exact hall k hk e
    rw [readingChanged_present o hnow hbefore (by exact hs)] at hexec
    obtain ⟨h1, h2, h3, h4, _⟩ := testLines_left hcond
    exact ⟨_, hexec, h1, h2, h3, h4⟩

end Sys2Proof.Machine
end

section
/-! PROOFS. The bins of a map (R102, R103) and the slot a publication takes (R119). -/

namespace Sys2Proof.Machine

open Safety

/-! ### The bins of a map (R102, R103) -/

theorem ceilDiv_le_iff {n : Nat} (hn : 0 < n) (a x : Nat) : ceilDiv a n ≤ x ↔ a ≤ x * n := by
  unfold ceilDiv
  rw [← Nat.lt_succ_iff, Nat.div_lt_iff_lt_mul hn, Nat.succ_mul]
  omega

theorem lt_ceilDiv_iff {n : Nat} (hn : 0 < n) (a x : Nat) : x < ceilDiv a n ↔ x * n < a := by
  have h := ceilDiv_le_iff hn a x
  omega

theorem ceilDiv_mul (x : Nat) {n : Nat} (hn : 0 < n) : ceilDiv (x * n) n = x := by
  have h := (ceilDiv_le_iff hn (x * n) x).2 (Nat.le_refl _)
  have k : x * n ≤ ceilDiv (x * n) n * n := (ceilDiv_le_iff hn _ _).1 (Nat.le_refl _)
  exact Nat.le_antisymm h (Nat.le_of_mul_le_mul_right k hn)

/-- One bin is the floor of the mean width or one more. -/
theorem ceilDiv_step {n : Nat} (hn : 0 < n) (i s : Nat) :
    ceilDiv (i * s) n + s / n ≤ ceilDiv ((i + 1) * s) n ∧ ceilDiv ((i + 1) * s) n ≤ ceilDiv (i * s) n + s / n + 1 := by
  have hlow : i * s ≤ ceilDiv (i * s) n * n := (ceilDiv_le_iff hn _ _).1 (Nat.le_refl _)
  have hhigh : (i + 1) * s ≤ ceilDiv ((i + 1) * s) n * n := (ceilDiv_le_iff hn _ _).1 (Nat.le_refl _)
  have hnext : (i + 1) * s = i * s + s := Nat.succ_mul i s
  have hfloor : s / n * n ≤ s := Nat.div_mul_le_self s n
  have hceil : s < s / n * n + n := Nat.lt_div_mul_add hn
  generalize hc' : ceilDiv ((i + 1) * s) n = c' at hhigh ⊢
  generalize hc : ceilDiv (i * s) n = c at hlow ⊢
  constructor
  · have hq : s / n ≤ c' := Nat.le_of_mul_le_mul_right (by omega : s / n * n ≤ c' * n) hn
    have hle : c ≤ c' - s / n := by
      rw [← hc, ceilDiv_le_iff hn, Nat.sub_mul]
      omega
    omega
  · rw [← hc', ceilDiv_le_iff hn, hnext, Nat.add_mul, Nat.add_mul]
    omega

section
variable {m : BinMap} {n : Nat} {start stop : Int} {s : Nat}

/-- The map of a span of `s` positions in `n` bins. -/
structure Mapped (m : BinMap) (n : Nat) (start stop : Int) (s : Nat) : Prop where
  bins : m.n = some n
  first : m.start = some start
  past : m.stop = some stop
  width : m.span = some (s : Int)
  length : stop = start + s

theorem binOf_invalid (h : m.valid = false) (p : Int) : binOf m p = none := by
  simp [binOf, h]

theorem boundaries_invalid (h : m.valid = false) : boundaries m = [] := by
  simp [boundaries, h]

theorem binOf_outside (hm : Mapped m n start stop s) {p : Int} (h : p < start ∨ stop ≤ p) : binOf m p = none := by
  cases hv : m.valid with
  | false => exact binOf_invalid hv p
  | true =>
    simp only [binOf, hv, hm.bins, hm.first, hm.past, hm.width]
    exact if_neg (by omega)

/-- R102: the bin of the position `x` beyond the start. -/
theorem binOf_inside (hm : Mapped m n start stop s) (hv : m.valid = true) {x : Nat} (hx : x < s) :
    binOf m (start + x) = some (x * n / s) := by
  have hstop := hm.length
  have hdist : start + (x : Int) - start = x := by omega
  simp only [binOf, hv, hm.bins, hm.first, hm.past, hm.width, hdist]
  rw [if_pos (by omega), ← Nat.cast_mul, ← Int.natCast_ediv, Int.toNat_natCast]

theorem binOf_eq_some_iff (hm : Mapped m n start stop s) (hv : m.valid = true) (p : Int) (i : Nat) :
    binOf m p = some i ↔ ∃ x : Nat, x < s ∧ p = start + x ∧ x * n / s = i := by
  constructor
  · intro h
    have hstop := hm.length
    by_cases hout : p < start ∨ stop ≤ p
    · rw [binOf_outside hm hout] at h
      exact absurd h (by simp)
    · refine ⟨(p - start).toNat, by omega, by omega, ?_⟩
      have e : p = start + ((p - start).toNat : Int) := by omega
      rw [e, binOf_inside hm hv (by omega)] at h
      exact Option.some.inj h
  · rintro ⟨x, hx, rfl, rfl⟩
    exact binOf_inside hm hv hx

/-- R103: the boundary points. -/
theorem boundaries_get (hm : Mapped m n start stop s) (hv : m.valid = true) (i : Nat) :
    (boundaries m)[i]? = if i ≤ n then some (start + (ceilDiv (i * s) n : Nat)) else none := by
  simp only [boundaries, hv, hm.bins, hm.first, hm.width, Int.toNat_natCast]
  rw [List.getElem?_map]
  by_cases h : i ≤ n
  · rw [List.getElem?_range (by omega), if_pos h]
    rfl
  · rw [if_neg h, List.getElem?_eq_none (by simp; omega)]
    rfl

/-- R103: bin `i` holds the positions between its boundary points. -/
theorem bin_iff_between (hm : Mapped m n start stop s) (hv : m.valid = true) (hn : 0 < n) (hs : 0 < s) {i : Nat} (hi : i < n)
    (p : Int) : binOf m p = some i ↔
      start + (ceilDiv (i * s) n : Nat) ≤ p ∧ p < start + (ceilDiv ((i + 1) * s) n : Nat) := by
  have hdiv : ∀ x : Nat, x * n / s = i ↔ ceilDiv (i * s) n ≤ x ∧ x < ceilDiv ((i + 1) * s) n := by
    intro x
    rw [ceilDiv_le_iff hn, lt_ceilDiv_iff hn, Nat.div_eq_iff hs]
    rw [Nat.succ_mul]
    omega
  have htop : ceilDiv ((i + 1) * s) n ≤ s := by
    rw [ceilDiv_le_iff hn, Nat.mul_comm]
    exact Nat.mul_le_mul_left s hi
  rw [binOf_eq_some_iff hm hv]
  constructor
  · rintro ⟨x, _, rfl, hx⟩
    have := (hdiv x).1 hx
    omega
  · rintro ⟨hlo, hhi⟩
    refine ⟨(p - start).toNat, by omega, by omega, (hdiv _).2 ⟨by omega, by omega⟩⟩

end

/-- Settles O28: a map's positions counted from its start. -/
theorem binsOfAMap : Obligations.BinsOfAMap := by
  refine ⟨fun m h => ⟨boundaries_invalid h, binOf_invalid h⟩, fun m n start stop span hn hstart hstop hspan hlen h16 h10 => ?_⟩
  obtain ⟨s, rfl⟩ : ∃ s : Nat, span = s := ⟨span.toNat, by omega⟩
  have hm : Mapped m n start stop s := ⟨hn, hstart, hstop, hspan, by omega⟩
  have hn0 : 0 < n := by omega
  have hs0 : 0 < s := by omega
  refine ⟨fun p hp => binOf_outside hm hp, fun hv => ⟨fun p hlo hhi => ?_, ?_, ?_, ?_, fun i a b ha hb => ?_⟩⟩
  · obtain ⟨x, rfl⟩ : ∃ x : Nat, p = start + x := ⟨(p - start).toNat, by omega⟩
    have hx : x < s := by omega
    have hdist : start + (x : Int) - start = x := by omega
    refine ⟨_, binOf_inside hm hv hx, ?_, ?_, ?_⟩
    · rw [Nat.div_lt_iff_lt_mul hs0, Nat.mul_comm n s]
      exact Nat.mul_lt_mul_of_pos_right hx hn0
    · rw [hdist]
      exact_mod_cast Nat.div_mul_le_self (x * n) s
    · rw [hdist]
      have := Nat.lt_div_mul_add hs0 (a := x * n)
      have h' : x * n < (x * n / s + 1) * s := by
        rw [Nat.succ_mul]
        omega
      exact_mod_cast h'
  · simp [boundaries, hv, hn, hstart, hspan]
  · rw [boundaries_get hm hv, if_pos (Nat.zero_le n)]
    have : ceilDiv (0 * s) n = 0 := by
      have := ceilDiv_mul 0 hn0
      simpa using this
    rw [this]
    simp
  · rw [boundaries_get hm hv, if_pos (Nat.le_refl n), Nat.mul_comm n s, ceilDiv_mul s hn0]
    exact congrArg some (by omega)
  · rw [boundaries_get hm hv] at ha hb
    have hi : i < n := by
      by_contra h
      rw [if_neg (by omega)] at hb
      exact absurd hb (by simp)
    rw [if_pos (by omega)] at ha hb
    have ha := Option.some.inj ha
    have hb := Option.some.inj hb
    obtain ⟨hlow, hhigh⟩ := ceilDiv_step hn0 i s
    have hten : 10 ≤ s / n := by
      rw [Nat.le_div_iff_mul_le hn0]
      omega
    have hmean : (s : Int) / (n : Int) = ((s / n : Nat) : Int) := (Int.natCast_ediv s n).symm
    refine ⟨by omega, by omega, by omega, fun p => ?_⟩
    rw [← ha, ← hb]
    exact bin_iff_between hm hv hn0 hs0 hi p

/-! ### The slot a publication takes (R119) -/

/-- The best slot of a list is an oldest one that passes the test, or none passes. -/
def bestOf (p : Pen) (test : Generation → Bool) (is : List (Fin 3)) (best : Option (Fin 3)) : Prop :=
  match best with
  | none => ∀ i ∈ is, slotAge p test i = none
  | some k => ∃ a, slotAge p test k = some a ∧ ∀ i ∈ is, ∀ b, slotAge p test i = some b → b ≤ a

/-- One slot more in the search for the oldest. -/
def olderOf (p : Pen) (test : Generation → Bool) (best : Option (Fin 3)) (i : Fin 3) : Option (Fin 3) :=
  match slotAge p test i, best with
  | none, _ => best
  | some _, none => some i
  | some a, some j => if (slotAge p test j).elim true (fun b => b < a) then some i else best

theorem bestOf_olderOf {p : Pen} {test : Generation → Bool} {is : List (Fin 3)} {best : Option (Fin 3)} (i : Fin 3)
    (h : bestOf p test is best) : bestOf p test (is ++ [i]) (olderOf p test best i) := by
  unfold olderOf
  cases hi : slotAge p test i with
  | none =>
    cases best with
    | none =>
      intro j hj
      rcases List.mem_append.1 hj with hj | hj
      · exact h j hj
      · rw [List.mem_singleton.1 hj]; exact hi
    | some k =>
      obtain ⟨a, hk, hall⟩ := h
      refine ⟨a, hk, fun j hj b hb => ?_⟩
      rcases List.mem_append.1 hj with hj | hj
      · exact hall j hj b hb
      · rw [List.mem_singleton.1 hj, hi] at hb; exact absurd hb (by simp)
  | some c =>
    cases best with
    | none =>
      refine ⟨c, hi, fun j hj b hb => ?_⟩
      rcases List.mem_append.1 hj with hj | hj
      · rw [h j hj] at hb; exact absurd hb (by simp)
      · rw [List.mem_singleton.1 hj, hi] at hb; exact (Option.some.inj hb).symm.le
    | some k =>
      obtain ⟨a, hk, hall⟩ := h
      dsimp only
      rw [hk]
      by_cases hac : a < c
      · rw [if_pos (by simpa using hac)]
        refine ⟨c, hi, fun j hj b hb => ?_⟩
        rcases List.mem_append.1 hj with hj | hj
        · have := hall j hj b hb; omega
        · rw [List.mem_singleton.1 hj, hi] at hb; exact (Option.some.inj hb).symm.le
      · rw [if_neg (by simpa using hac)]
        refine ⟨a, hk, fun j hj b hb => ?_⟩
        rcases List.mem_append.1 hj with hj | hj
        · exact hall j hj b hb
        · rw [List.mem_singleton.1 hj, hi] at hb
          have := Option.some.inj hb
          omega

theorem oldestSlot_best (p : Pen) (test : Generation → Bool) : bestOf p test (List.finRange 3) (oldestSlot p test) := by
  have key : ∀ (is done : List (Fin 3)) (best : Option (Fin 3)), bestOf p test done best →
      bestOf p test (done ++ is) (is.foldl (olderOf p test) best) := by
    intro is
    induction is with
    | nil => intro done best h; simpa using h
    | cons i is ih =>
      intro done best h
      have := ih (done ++ [i]) _ (bestOf_olderOf i h)
      simpa using this
  exact key (List.finRange 3) [] none (by intro i hi; exact absurd hi (by simp))

theorem isPinned_iff (pins : PerPort (Option ScanNo)) (n : ScanNo) : isPinned pins n = true ↔ ∃ q, pins.get q = some n := by
  simp only [isPinned, List.any_eq_true, beq_iff_eq]
  exact ⟨fun ⟨q, _, h⟩ => ⟨q, h⟩, fun ⟨q, h⟩ => ⟨q, mem_allPorts q, h⟩⟩

/-- The oldest slot of those that pass the test, with every slot full. -/
theorem oldestSlot_full {p : Pen} {test : Generation → Bool} {g : Fin 3 → Generation} (hg : ∀ i : Fin 3, p.slots[i] = some (g i)) :
    match oldestSlot p test with
    | none => ∀ i, test (g i) = false
    | some k => test (g k) = true ∧ ∀ i, test (g i) = true →
        (p.counter - (g i).scan).toNat ≤ (p.counter - (g k).scan).toNat := by
  have hage : ∀ i, slotAge p test i = if test (g i) then some (p.counter - (g i).scan).toNat else none := by
    intro i
    simp only [slotAge, hg i, scanAge]
    rfl
  have h := oldestSlot_best p test
  cases e : oldestSlot p test with
  | none =>
    rw [e] at h
    intro i
    have hi := h i (List.mem_finRange i)
    rw [hage] at hi
    cases ht : test (g i) with
    | false => rfl
    | true => rw [ht] at hi; exact absurd hi (by simp)
  | some k =>
    rw [e] at h
    obtain ⟨a, hk, hall⟩ := h
    rw [hage] at hk
    cases ht : test (g k) with
    | false => rw [ht] at hk; exact absurd hk (by simp)
    | true =>
      rw [ht] at hk
      refine ⟨ht, fun i hi => ?_⟩
      have := hall i (List.mem_finRange i) _ ((hage i).trans (if_pos hi))
      have ha : (p.counter - (g k).scan).toNat = a := Option.some.inj hk
      omega

/-- Settles O32: the three rows of the table of R119. -/
theorem publicationTakesTheOldestFreeSlot : Obligations.PublicationTakesTheOldestFreeSlot := by
  intro p
  refine ⟨fun ⟨i, hi⟩ => ?_, fun g hg => ?_⟩
  · cases hf : (List.finRange 3).find? (fun i => (p.slots[i]).isNone) with
    | none =>
      have := List.find?_eq_none.1 hf i (List.mem_finRange i)
      rw [hi] at this
      exact absurd rfl this
    | some k =>
      have hk : takeSlot p = k := by
        unfold takeSlot
        rw [hf]
      have hempty : (p.slots[k]).isNone = true := List.find?_some (p := fun i : Fin 3 => (p.slots[i]).isNone) hf
      have hnone : p.slots[k] = none := Option.isNone_iff_eq_none.1 hempty
      exact hk ▸ hnone
  · intro pinned age
    have hfull : (List.finRange 3).find? (fun i => (p.slots[i]).isNone) = none := by
      rw [List.find?_eq_none]
      intro i _
      rw [hg i]
      exact Bool.false_ne_true
    have hpinned : ∀ i, (!isPinned p.pins (g i).scan) = true ↔ ¬pinned i := by
      intro i
      rw [Bool.not_eq_true', ← Bool.not_eq_true, isPinned_iff]
    have hfree := oldestSlot_full (test := fun g => !isPinned p.pins g.scan) hg
    have hany := oldestSlot_full (test := fun _ => true) hg
    unfold takeSlot
    rw [hfull]
    dsimp only
    refine ⟨fun ⟨i, hi⟩ => ?_, fun hall i => ?_⟩
    · cases hk : oldestSlot p (fun g => !isPinned p.pins g.scan) with
      | none =>
        rw [hk] at hfree
        have := (hpinned i).2 hi
        rw [hfree i] at this
        exact absurd this Bool.false_ne_true
      | some k =>
        rw [hk] at hfree
        exact ⟨(hpinned k).1 hfree.1, fun j hj => hfree.2 j ((hpinned j).2 hj)⟩
    · cases hk : oldestSlot p (fun g => !isPinned p.pins g.scan) with
      | some k =>
        rw [hk] at hfree
        exact absurd (hall k) ((hpinned k).1 hfree.1)
      | none =>
        dsimp only
        cases ha : oldestSlot p (fun _ => true) with
        | none =>
          rw [ha] at hany
          exact absurd (hany i) (by decide)
        | some k =>
          rw [ha] at hany
          exact hany.2 i rfl

end Sys2Proof.Machine
end

section
/-! PROOFS. A generation formed of its window (R111, R112, R124, R125) and the zone outputs of it (R131, R133 … R137). -/

namespace Sys2Proof.Machine

open Safety

/-! ### Finalized bins (R111, R112) -/

theorem finalizeBins_get (m : Nat) (as : List Acc) (cs : List CarryBin) (i : Nat) :
    (finalizeBins m as cs)[i]? = as[i]?.map (fun a => finalizeBin m a cs[i]?) := by
  induction as generalizing cs i with
  | nil => rfl
  | cons a as ih =>
    cases cs with
    | nil =>
      cases i with
      | zero => rfl
      | succ i => simpa [finalizeBins] using ih [] i
    | cons c cs =>
      cases i with
      | zero => rfl
      | succ i => simpa [finalizeBins] using ih cs i

theorem finalizeBin_valid {m : Nat} {a : Acc} (h : m ≤ a.count) (prev : Option CarryBin) :
    finalizeBin m a prev =
      (⟨.valid, some (roundHalfUp a.sum a.count), a.clamp⟩, ⟨some (roundHalfUp a.sum a.count), 0⟩) := if_pos h

theorem finalizeBin_carried {m : Nat} {a : Acc} (h : a.count < m) (v age : Nat) :
    finalizeBin m a (some ⟨some v, age⟩) =
      if age < 3 then (⟨.held, some v, a.clamp⟩, ⟨some v, age + 1⟩) else (⟨.invalid, none, a.clamp⟩, ⟨none, 0⟩) := by
  unfold finalizeBin
  rw [if_neg (Nat.not_le.2 h)]
  by_cases hk : age < 3
  · rw [if_pos hk]
    exact if_pos (by simp; omega)
  · rw [if_neg hk]
    exact if_neg (by simp; omega)

theorem finalizeBin_bare {m : Nat} {a : Acc} (h : a.count < m) {prev : Option CarryBin} (hp : prev.bind CarryBin.value = none) :
    finalizeBin m a prev = (⟨.invalid, none, a.clamp⟩, ⟨none, 0⟩) := by
  unfold finalizeBin
  rw [if_neg (Nat.not_le.2 h), hp]

/-! ### The filter (R124, R125) -/

theorem filterBins_get (w : Nat) (fs : List (Option Nat)) (bs : List BinOut) {i : Nat} {f : Option Nat} {b : BinOut}
    (hf : fs[i]? = some f) (hb : bs[i]? = some b) : (filterBins w fs bs)[i]? = some (filterBin w f b) := by
  induction fs generalizing bs i with
  | nil => exact absurd hf (by simp)
  | cons x fs ih =>
    cases bs with
    | nil => exact absurd hb (by simp)
    | cons y bs =>
      cases i with
      | zero =>
        obtain rfl : x = f := Option.some.inj hf
        obtain rfl : y = b := Option.some.inj hb
        rfl
      | succ i => exact ih bs hf hb

/-- R124: the filter moves a part of the way to the value, and no further. -/
theorem filterBin_moves {w : Nat} (hw : w ≤ 256) (x v : Nat) {b : BinOut} (hs : b.status = .valid) (hv : b.value = some v) :
    ∃ y : Nat, (y : Int) = x + roundHalfAway (((v : Int) - x) * w) 256 ∧ min x v ≤ y ∧ y ≤ max x v ∧
      filterBin w (some x) b = some y := by
  obtain ⟨hlo, hhi⟩ := roundHalfAway_part_between ((v : Int) - x) (n := w) (d := 256) (by decide) (by omega) (by omega)
  refine ⟨((x : Int) + roundHalfAway (((v : Int) - x) * w) 256).toNat, by omega, by omega, by omega, ?_⟩
  unfold filterBin
  rw [if_pos hs, hv]

theorem filterBin_seeds (w v : Nat) {b : BinOut} (hs : b.status = .valid) (hv : b.value = some v) :
    filterBin w none b = some v := by
  unfold filterBin
  rw [if_pos hs, hv]

theorem filterBin_other (w : Nat) (f : Option Nat) {b : BinOut} (hs : b.status ≠ .valid) : filterBin w f b = f := if_neg hs

theorem filterAverage_eq (fs : List (Option Nat)) : filterAverage fs =
    if fs.filterMap id = [] then none else some (roundHalfUp (fs.filterMap id).sum (fs.filterMap id).length) := by
  unfold filterAverage
  simp only [List.length_eq_zero_iff]

/-! ### The generation formed (R112 … R117) -/

/-- The carry values a window's bins are finalized against (R112). -/
def carriedBins (s : State) (w : Window) : PerProp (List CarryBin) :=
  if s.pen.carry.n.isSome && s.pen.carry.n == w.ctx.map.n then s.pen.carry.bins else PerProp.const []

theorem formGeneration_parts (s : State) (w : Window) {n : Nat} {k : BankNo} {bank : GradeBank} (hn : w.ctx.map.n = some n)
    (hk : w.ctx.bank = some k) (hb : s.rbs.banks[k] = some bank) (q : Prop4) :
    let fin := finalizeBins bank.minSamples (w.accs.get q) ((carriedBins s w).get q)
    let g := (formGeneration s w).1
    g.bins.get q = fin.map Prod.fst ∧
    g.stats.get q = { statsOf (some n) (fin.map Prod.fst) with
      frozen := !(s.msm.state == .run && !(statsOf (some n) (fin.map Prod.fst)).poor && w.ctx.map.valid) } ∧
    (formGeneration s w).2.1.bins.get q = (if (g.stats.get q).frozen then s.pen.filter.bins.get q
      else filterBins bank.weight (s.pen.filter.bins.get q) (g.bins.get q)) ∧
    (formGeneration s w).2.2.n = some n ∧ (formGeneration s w).2.2.bins.get q = fin.map Prod.snd ∧
    g.filter = some ((formGeneration s w).2.1.bins.map (fun fs => ⟨filterAverage fs, fs⟩)) := by
  have hbank : (w.ctx.bank.bind (fun k => s.rbs.banks[k])) = some bank := by rw [hk]; exact hb
  simp only [formGeneration, hbank, hn, carriedBins]
  cases q <;> simp [PerProp.map, PerProp.map2, PerProp.get]

theorem carriedBins_of_same {s : State} {w : Window} {n : Nat} (hn : w.ctx.map.n = some n) (hc : s.pen.carry.n = some n) :
    carriedBins s w = s.pen.carry.bins := by
  unfold carriedBins
  rw [hc, hn]
  exact if_pos (by simp)

theorem carriedBins_of_other {s : State} {w : Window} {n : Nat} (hn : w.ctx.map.n = some n) (hc : s.pen.carry.n ≠ some n) :
    carriedBins s w = PerProp.const [] := by
  unfold carriedBins
  rw [hn]
  exact if_neg (by simp [hc])

/-- Settles O29, property by property. -/
theorem binsAreFinalizedAndFiltered : Obligations.BinsAreFinalizedAndFiltered := by
  intro s w n k bank hn hk hb g filter carry
  have hparts := formGeneration_parts s w hn hk hb
  refine ⟨(hparts .bw).2.2.2.1, rfl, fun q => ?_⟩
  obtain ⟨hbins, hstats, hfilter, _, hcarry, hcopies⟩ := hparts q
  let fin := finalizeBins bank.minSamples (w.accs.get q) ((carriedBins s w).get q)
  have hfrozen : (g.stats.get q).frozen = !(s.msm.state == .run && !(g.stats.get q).poor && w.ctx.map.valid) := by
    have hpoor : (g.stats.get q).poor = (statsOf (some n) (fin.map Prod.fst)).poor :=
      (congrArg PropStats.poor hstats).trans rfl
    rw [hpoor]
    exact (congrArg PropStats.frozen hstats).trans rfl
  refine ⟨fun i a ha => ?_, ?_, fun hf => hfilter.trans (if_pos hf), fun hf i b f hgb hpf => ?_, ?_⟩
  · intro before left
    have hleft : ∀ {x}, finalizeBin bank.minSamples a ((carriedBins s w).get q)[i]? = x → left x.1 x.2 := by
      intro x e
      have hget : fin[i]? = some x := by
        rw [finalizeBins_get, ha]
        exact congrArg some e
      refine ⟨?_, ?_⟩
      · rw [hbins, List.getElem?_map, hget]
        rfl
      · rw [hcarry, List.getElem?_map, hget]
        rfl
    refine ⟨fun hc => hleft (finalizeBin_valid hc _), fun hc => ⟨fun v age hsame hbefore => ?_, fun hnone => ?_⟩⟩
    · have hprev : ((carriedBins s w).get q)[i]? = some ⟨some v, age⟩ := by
        rw [carriedBins_of_same hn hsame]
        exact hbefore
      have e := finalizeBin_carried hc v age
      rw [← hprev] at e
      exact ⟨fun h3 => hleft (e.trans (if_pos h3)), fun h3 => hleft (e.trans (if_neg (by omega)))⟩
    · refine hleft (finalizeBin_bare hc ?_)
      by_cases hsame : s.pen.carry.n = some n
      · rw [carriedBins_of_same hn hsame]
        exact hnone.resolve_left (fun h => h hsame)
      · rw [carriedBins_of_other hn hsame, PerProp.get_const]
        rfl
  · rw [hfrozen]
    simp [and_assoc]
  · have hget : (filter.bins.get q)[i]? = some (filterBin bank.weight f b) := by
      rw [show filter.bins.get q = _ from hfilter.trans (if_neg (Bool.eq_false_iff.1 hf))]
      exact filterBins_get bank.weight _ _ hpf hgb
    rw [hget]
    refine ⟨fun hs => congrArg some (filterBin_other _ _ hs), fun v hs hv => ⟨fun hfn => ?_, fun x hfx hw => ?_⟩⟩
    · rw [hfn, filterBin_seeds _ _ hs hv]
    · obtain ⟨y, hy, hlo, hhi, hstep⟩ := filterBin_moves hw x v hs hv
      exact ⟨y, hy, hlo, hhi, by rw [hfx, hstep]⟩
  · refine ⟨_, hcopies, ?_, ?_⟩
    · rw [PerProp.get_map]
    · rw [PerProp.get_map]
      exact filterAverage_eq _

/-! ### The bins of a zone (R131, R134) -/

/-- The spans of an ordered list follow one another. -/
theorem spansOrdered_pairwise (prev : Option Zone) (zs : List Zone) (h : spansOrdered prev zs = true) :
    zs.Pairwise (fun a b => a.b ≤ b.a) ∧ ∀ p, prev = some p → ∀ z ∈ zs, p.b ≤ z.a := by
  induction zs generalizing prev with
  | nil => exact ⟨List.Pairwise.nil, by simp⟩
  | cons z zs ih =>
    simp only [spansOrdered, Bool.and_eq_true, decide_eq_true_eq] at h
    obtain ⟨⟨⟨hspan, _⟩, hprev⟩, hrest⟩ := h
    obtain ⟨hpair, hafter⟩ := ih (some z) hrest
    refine ⟨List.pairwise_cons.2 ⟨hafter z rfl, hpair⟩, fun p hp y hy => ?_⟩
    have hz : p.b ≤ z.a := by simpa [hp] using hprev
    rcases List.mem_cons.1 hy with rfl | hy
    · exact hz
    · have := hafter z rfl y hy
      omega

theorem inZone_iff (n : Nat) (z : Zone) (i : Nat) : inZone n z i = true ↔ z.a ≤ centre n i ∧ centre n i < z.b := by
  simp [inZone]

/-- A centre lies in at most one span of an ordered list. -/
theorem zone_unique {n i : Nat} {zs : List Zone} {j k : Nat} {a b : Zone} (ho : spansOrdered none zs = true)
    (ha : zs[j]? = some a) (hb : zs[k]? = some b) (hia : inZone n a i = true) (hib : inZone n b i = true) : j = k := by
  have hpair := (spansOrdered_pairwise none zs ho).1
  have later : ∀ {j k : Nat} {a b : Zone}, zs[j]? = some a → zs[k]? = some b → inZone n a i = true → inZone n b i = true →
      ¬ j < k := by
    intro j k a b ha hb hia hib hjk
    obtain ⟨hj, rfl⟩ := List.getElem?_eq_some_iff.1 ha
    obtain ⟨hk, rfl⟩ := List.getElem?_eq_some_iff.1 hb
    have := List.pairwise_iff_getElem.1 hpair j k hj hk hjk
    rw [inZone_iff] at hia hib
    omega
  have h1 := later ha hb hia hib
  have h2 := later hb ha hib hia
  omega

/-- R134: a centre is the floored fraction, inside the binned width. -/
theorem centre_bounds {n i : Nat} (hlo : 16 ≤ n) (hhi : n ≤ 600) (hi : i < n) :
    54 ≤ centre n i ∧ centre n i ≤ 65481 ∧ 2 * n * centre n i ≤ (2 * i + 1) * 65536 ∧
    (2 * i + 1) * 65536 < 2 * n * (centre n i + 1) := by
  have hn : 0 < 2 * n := by omega
  refine ⟨?_, ?_, Nat.mul_div_le _ _, ?_⟩
  · unfold centre
    rw [Nat.le_div_iff_mul_le hn]
    omega
  · have : centre n i < 65482 := by
      unfold centre
      rw [Nat.div_lt_iff_lt_mul hn]
      omega
    omega
  · exact Nat.lt_mul_div_succ _ hn

/-! ### Zone outputs (R133, R135 … R137) -/

/-- A list's entries with their indices, as a function of the index. -/
theorem zipIdx_filterMap {α β : Type} (f : α × Nat → Option β) (l : List α) :
    l.zipIdx.filterMap f = (List.range l.length).filterMap (fun i => l[i]?.bind (fun x => f (x, i))) := by
  induction l using List.reverseRecOn with
  | nil => rfl
  | append_singleton l a ih =>
    rw [List.zipIdx_append, List.filterMap_append, ih, List.length_append, List.length_singleton, List.range_succ,
      List.filterMap_append]
    congr 1
    · refine List.filterMap_congr fun i hi => ?_
      rw [List.getElem?_append_left (List.mem_range.1 hi)]
    · cases h : f (a, l.length) <;> simp [h]

/-- R136: the deviations of the SEEDED member bins, bin by bin. -/
theorem memberDeviations_eq (n : Nat) (z : Zone) (avg : Nat) (bins : List (Option Nat)) :
    memberDeviations n z avg bins = (List.range bins.length).filterMap (fun i =>
      if z.a ≤ centre n i ∧ centre n i < z.b then (bins[i]?).join.map (fun f => (f : Int) - avg) else none) := by
  unfold memberDeviations
  rw [zipIdx_filterMap]
  refine List.filterMap_congr fun i _ => ?_
  simp only [inZone_iff]
  cases bins[i]? with
  | none => simp
  | some x => rfl

theorem zoneOutputs_get (n avg : Nat) (bins : List (Option Nat)) (zs : List Zone) (os : List ZoneOut) (k : Nat) :
    (zoneOutputs n avg bins zs os)[k]? = zs[k]?.map (fun z => zoneOutput n avg bins z ((os[k]?).getD .none)) := by
  induction zs generalizing os k with
  | nil => rfl
  | cons z zs ih =>
    cases os with
    | nil =>
      cases k with
      | zero => rfl
      | succ k => simpa [zoneOutputs] using ih [] k
    | cons o os =>
      cases k with
      | zero => rfl
      | succ k => simpa [zoneOutputs] using ih os k

theorem zoneOutputs_length (n avg : Nat) (bins : List (Option Nat)) (zs : List Zone) (os : List ZoneOut) :
    (zoneOutputs n avg bins zs os).length = zs.length := by
  induction zs generalizing os with
  | nil => rfl
  | cons z zs ih => cases os <;> simp [zoneOutputs, ih]

/-- R136: a zone with a SEEDED member is the rounded mean deviation. -/
theorem zoneOutput_valid {n avg : Nat} {bins : List (Option Nat)} {z : Zone} (before : ZoneOut)
    (h : memberDeviations n z avg bins ≠ []) : zoneOutput n avg bins z before =
      .valid (roundHalfAway (memberDeviations n z avg bins).sum (memberDeviations n z avg bins).length) :=
  if_neg (fun e => h (List.length_eq_zero_iff.1 e))

/-- R137: one without keeps its value as HELD, or stays NONE. -/
theorem zoneOutput_kept {n avg : Nat} {bins : List (Option Nat)} {z : Zone} (before : ZoneOut)
    (h : memberDeviations n z avg bins = []) : zoneOutput n avg bins z before = match before with
      | .none => .none
      | .valid v => .held v
      | .held v => .held v := if_pos (by rw [h]; rfl)

/-- R133: the side of a zone map at a publication, before its outputs are computed. -/
theorem activateStaged_fields (z : ZoneSide) : (activateStaged z).staged = none ∧ (activateStaged z).assembly = z.assembly ∧
    (activateStaged z).active = (if z.staged = none then z.active else z.staged) ∧
    (z.staged = none → activateStaged z = z) ∧
    ∀ m, z.staged = some m → (activateStaged z).outs = List.replicate m.zones.length .none ∧ (activateStaged z).lastScan = none := by
  unfold activateStaged
  cases h : z.staged with
  | none => exact ⟨h, rfl, rfl, fun _ => rfl, by simp⟩
  | some m => exact ⟨rfl, rfl, rfl, by simp, fun m' e => by
      obtain rfl := Option.some.inj e
      exact ⟨by simp, rfl⟩⟩

theorem computeZones_keeps (g : Generation) (z : ZoneSide) : (computeZones g z).staged = z.staged ∧
    (computeZones g z).assembly = z.assembly ∧ (computeZones g z).active = z.active := by
  unfold computeZones
  split
  · exact ⟨rfl, rfl, rfl⟩
  · split
    · exact ⟨rfl, rfl, rfl⟩
    · dsimp only
      split <;> exact ⟨rfl, rfl, rfl⟩

/-- R135: the outputs of a map whose property is frozen stand. -/
theorem computeZones_frozen {g : Generation} {z : ZoneSide} {m : ZoneMap} (hm : z.active = some m)
    (hf : (g.stats.get m.prop).frozen = true) : computeZones g z = { z with frozen := true } := by
  unfold computeZones
  rw [hm]
  exact if_pos hf

theorem computeZones_computed {g : Generation} {z : ZoneSide} {m : ZoneMap} {n : Nat} {copies : PerProp FilterCopy}
    (hm : z.active = some m) (hf : (g.stats.get m.prop).frozen = false) (hn : g.map.n = some n) (hc : g.filter = some copies) :
    computeZones g z = { z with
      outs := zoneOutputs n ((copies.get m.prop).avg.getD 0) (copies.get m.prop).bins m.zones z.outs
      lastScan := some g.scan
      frozen := false } := by
  unfold computeZones
  rw [hm]
  dsimp only
  rw [if_neg (by simp [hf]), hc, hn]

/-- Settles O31: the centres, then either side of the AZM. -/
theorem zonesTakeTheirBins : Obligations.ZonesTakeTheirBins := by
  refine ⟨fun n i hlo hhi hi => ?_, fun g azm before after hside => ?_⟩
  · obtain ⟨h1, h2, h3, h4⟩ := centre_bounds hlo hhi hi
    exact ⟨h1, h2, h3, h4, fun z => inZone_iff n z i, fun zs j k a b ho ha hb => zone_unique ho ha hb⟩
  intro outBefore
  have hafter : after = computeZones g (activateStaged before) := by
    rcases hside with ⟨rfl, rfl⟩ | ⟨rfl, rfl⟩ <;> rfl
  let mid := activateStaged before
  obtain ⟨hstaged, hassembly, hactive, hsame, hfresh⟩ := activateStaged_fields before
  obtain ⟨kstaged, kassembly, kactive⟩ := computeZones_keeps g mid
  rw [hafter]
  refine ⟨kstaged.trans hstaged, kassembly.trans hassembly, kactive.trans hactive, fun m hm => ?_⟩
  have hmid : mid.active = some m := kactive.symm.trans hm
  have hmap : ∀ m', before.staged = some m' → m' = m := by
    intro m' e
    have : mid.active = some m' := hactive.trans (by rw [e]; rfl)
    exact Option.some.inj (this.symm.trans hmid)
  refine ⟨fun hf => ?_, fun n avg copies hf hn hc havg => ?_⟩
  · rw [computeZones_frozen hmid hf]
    refine ⟨rfl, fun hs => ?_, fun hs => ?_⟩
    · have e : mid = before := hsame hs
      have houts : mid.outs = before.outs := congrArg ZoneSide.outs e
      have hlast : mid.lastScan = before.lastScan := congrArg ZoneSide.lastScan e
      exact ⟨houts, hlast⟩
    · obtain ⟨m', e⟩ := Option.ne_none_iff_exists'.1 hs
      have h := hfresh m' e
      rw [hmap m' e] at h
      exact h
  · rw [computeZones_computed hmid hf hn hc, havg]
    refine ⟨rfl, rfl, zoneOutputs_length .., fun k z hz => ?_⟩
    intro bins deviations
    have hdev : memberDeviations n z avg bins = deviations := memberDeviations_eq ..
    have hbefore : (mid.outs[k]?).getD .none = outBefore k := by
      show _ = if before.staged = none then (before.outs[k]?).getD .none else .none
      cases hs : before.staged with
      | none =>
        have e : mid = before := hsame hs
        rw [e]
        rfl
      | some m' =>
        have e : mid.outs = List.replicate m'.zones.length .none := (hfresh m' hs).1
        rw [e, if_neg (by simp), List.getElem?_replicate]
        split <;> rfl
    have hget : (zoneOutputs n avg bins m.zones mid.outs)[k]? = some (zoneOutput n avg bins z (outBefore k)) := by
      rw [zoneOutputs_get, hz, hbefore]
      rfl
    refine ⟨fun hd => hget.trans ?_, fun hd => ⟨fun ho => hget.trans ?_, fun v ho => hget.trans ?_⟩⟩
    · rw [zoneOutput_valid _ (by rw [hdev]; exact hd), hdev]
    · rw [zoneOutput_kept _ (hdev.trans hd), ho]
    · rw [zoneOutput_kept _ (hdev.trans hd)]
      rcases ho with ho | ho <;> rw [ho]

end Sys2Proof.Machine
end

section
/-! PROOFS. The bytes of a field read back (R190, R191), and what a receiver makes of characters (R188, R189). -/

namespace Sys2Proof.Machine

open Safety

/-! ### Fields of bytes (R190) -/

theorem beNat_cons (b : Byte) (bs : List Byte) : beNat (b :: bs) = b.toNat * 256 ^ bs.length + beNat bs := by
  have key : ∀ (l : List Byte) (n : Nat),
      l.foldl (fun n b => n * 256 + b.toNat) n = n * 256 ^ l.length + l.foldl (fun n b => n * 256 + b.toNat) 0 := by
    intro l
    induction l with
    | nil => intro n; simp
    | cons c l ih =>
      intro n
      simp only [List.foldl_cons, List.length_cons]
      rw [ih (n * 256 + c.toNat), ih (0 * 256 + c.toNat)]
      ring
  have := key bs (0 * 256 + b.toNat)
  simpa [beNat] using this

@[simp] theorem bytesBE_length (k n : Nat) : (bytesBE k n).length = k := by
  induction k with
  | zero => rfl
  | succ k ih => simp [bytesBE, ih]

/-- A field of `k` bytes reads back modulo its width. -/
theorem beNat_bytesBE (k n : Nat) : beNat (bytesBE k n) = n % 256 ^ k := by
  induction k with
  | zero => simp [bytesBE, beNat, Nat.mod_one]
  | succ k ih =>
    have hsplit : n % (256 ^ k * 256) = n % 256 ^ k + 256 ^ k * (n / 256 ^ k % 256) := Nat.mod_mul
    rw [bytesBE, beNat_cons, ih, bytesBE_length, BitVec.toNat_ofNat, Nat.pow_succ 256 k, hsplit, Nat.mul_comm (256 ^ k)]
    exact Nat.add_comm _ _

theorem beNat_bytesBE_of_lt {k n : Nat} (h : n < 256 ^ k) : beNat (bytesBE k n) = n := by
  rw [beNat_bytesBE, Nat.mod_eq_of_lt h]

/-- A field that stands between two runs of bytes. -/
theorem fieldAt_between (a b c : List Byte) : fieldAt (a ++ b ++ c) a.length b.length = beNat b := by
  unfold fieldAt
  rw [List.append_assoc, List.drop_left, List.take_left]

/-- The same at a known offset and length. -/
theorem fieldAt_of_eq {pl a b c : List Byte} {off len : Nat} (h : pl = a ++ b ++ c) (ha : a.length = off) (hb : b.length = len) :
    fieldAt pl off len = beNat b := by
  subst h ha hb
  exact fieldAt_between a b c

/-! ### One character (R188, R189) -/

theorem majority_get (c : RxChar) (i : Nat) : (majority c).getLsbD i =
    decide (2 ≤ (c.sub7.getLsbD i).toNat + (c.sub8.getLsbD i).toNat + (c.sub9.getLsbD i).toNat) := by
  simp only [majority, BitVec.getLsbD_or, BitVec.getLsbD_and]
  cases c.sub7.getLsbD i <;> cases c.sub8.getLsbD i <;> cases c.sub9.getLsbD i <;> rfl

/-- A port whose receiver stays as it is. -/
theorem setReceiver_same (s : State) (p : Port) : s.updPort p (setReceiver (s.ports.get p).receiver) = s := by
  show { s with ports := s.ports.set p (s.ports.get p) } = s
  rw [PerPort.set_get_same]

theorem characterReceived_nothing {s : State} {p : Port} {c : RxChar} {r : Receiver}
    (h : receiveChar (s.ports.get p).receiver c = (r, .nothing)) : characterReceived p c s = s.updPort p (setReceiver r) := by
  unfold characterReceived
  rw [h]

theorem characterReceived_bad {s : State} {p : Port} {c : RxChar} {r : Receiver}
    (h : receiveChar (s.ports.get p).receiver c = (r, .bad)) : characterReceived p c s = s.updPort p (countBad r) := by
  unfold characterReceived
  rw [h]

theorem receiveChar_idle {r : Receiver} {c : RxChar} (h : startOk c = false) : receiveChar r c = (r, .nothing) := by
  simp [receiveChar, h]

theorem receiveChar_sync {c : RxChar} (h : startOk c = true) (hs : stopOk c = true) (hd : dataOf c = 0xA5#8) :
    receiveChar .hunting c = (.assembling [] 0, .nothing) := by
  simp [receiveChar, h, hs, hd]

theorem receiveChar_hunting {c : RxChar} (h : startOk c = true) (hn : stopOk c = false ∨ dataOf c ≠ 0xA5#8) :
    receiveChar .hunting c = (.hunting, .nothing) := by
  rcases hn with e | e <;> simp [receiveChar, h, e]

theorem receiveChar_broken {c : RxChar} (h : startOk c = true) (hs : stopOk c = false) (bytes : List Byte) (noise : Nat) :
    receiveChar (.assembling bytes noise) c = (.hunting, .bad) := by
  simp [receiveChar, h, hs]

theorem receiveChar_long {c : RxChar} (h : startOk c = true) (hs : stopOk c = true) {bytes : List Byte} (noise : Nat)
    (hl : 250 < ((bytes ++ [dataOf c]).getD 0 0).toNat) : receiveChar (.assembling bytes noise) c = (.hunting, .bad) := by
  simp only [receiveChar, h, hs]
  exact if_pos hl

/-- A character of a message that is not its last. -/
theorem receiveChar_joins {c : RxChar} (h : startOk c = true) (hs : stopOk c = true) {bytes : List Byte} (noise : Nat)
    (hl : ((bytes ++ [dataOf c]).getD 0 0).toNat ≤ 250)
    (hn : bytes.length + 1 ≠ ((bytes ++ [dataOf c]).getD 0 0).toNat + 5) :
    receiveChar (.assembling bytes noise) c = (.assembling (bytes ++ [dataOf c]) (noise + noiseOf c), .nothing) := by
  have hn' : (bytes ++ [dataOf c]).length ≠ ((bytes ++ [dataOf c]).getD 0 0).toNat + 5 := by simpa using hn
  simp only [receiveChar, h, hs]
  exact (if_neg (Nat.not_lt.2 hl)).trans (if_neg hn')

/-- The last character of a message. -/
theorem receiveChar_closes {c : RxChar} (h : startOk c = true) (hs : stopOk c = true) {bytes : List Byte} (noise : Nat)
    (hl : ((bytes ++ [dataOf c]).getD 0 0).toNat ≤ 250)
    (hn : bytes.length + 1 = ((bytes ++ [dataOf c]).getD 0 0).toNat + 5) :
    receiveChar (.assembling bytes noise) c = (.hunting, closeMessage (bytes ++ [dataOf c]) (noise + noiseOf c)) := by
  have hn' : (bytes ++ [dataOf c]).length = ((bytes ++ [dataOf c]).getD 0 0).toNat + 5 := by simpa using hn
  simp only [receiveChar, h, hs]
  exact (if_neg (Nat.not_lt.2 hl)).trans (if_pos hn')

/-- Settles O34, by the receiver's state and the character. -/
theorem receiverTakesCharacters : Obligations.ReceiverTakesCharacters := by
  intro s p c h ps left bad
  have hexec : exec (.characterReceived p c) s = .next (characterReceived p c s) :=
    exec_released (f := characterReceived p c) rfl h
  have hcount : s.updPort p (countBad .hunting) = bad := rfl
  have hkeep : ∀ r, receiveChar ps.receiver c = (r, .nothing) → exec (.characterReceived p c) s = .next (left r) := fun r e => by
    rw [hexec, characterReceived_nothing e]
    rfl
  have hbad : receiveChar ps.receiver c = (.hunting, .bad) → exec (.characterReceived p c) s = .next bad := fun e => by
    rw [hexec, characterReceived_bad e, hcount]
  have hsame : left ps.receiver = s := setReceiver_same s p
  refine ⟨majority_get c, fun hs => ?_, fun hs => ⟨fun hr => ⟨fun ho hd => ?_, fun hn => ?_⟩, fun bytes noise hr => ?_⟩,
    fun bytes noise hr => ?_, fun hr => ?_⟩
  · rw [hkeep ps.receiver (receiveChar_idle hs), hsame]
  · exact hkeep _ (by rw [hr]; exact receiveChar_sync hs ho hd)
  · have e : receiveChar ps.receiver c = (ps.receiver, .nothing) := by
      rw [hr]
      exact receiveChar_hunting hs hn
    rw [hkeep _ e, hsame]
  · rw [hr] at hkeep hbad
    refine ⟨fun ho => ⟨hbad (receiveChar_broken hs ho _ _), ?_⟩, fun ho hb hl => ?_, fun ho hb hl => ?_, fun len rest ho hb hl hn => ?_⟩
    · have e : receiveChars ps.receiver [c] = (.hunting, [.bad]) := by
        rw [receiveChars, hr, receiveChar_broken hs ho]
        rfl
      rw [exec_released (f := badMessage p [c]) rfl h, badMessage, e]
      exact congrArg Host.Outcome.next hcount
    · exact hbad (receiveChar_long hs ho _ (by rw [hb]; exact hl))
    · rw [hb] at hkeep
      exact hkeep _ (receiveChar_joins hs ho _ hl (by simp))
    · rw [hb] at hkeep ⊢
      exact hkeep _ (receiveChar_joins hs ho _ hl (by simp; omega))
  · have e : intercharTimeout p s = s.updPort p (countBad .hunting) := by
      unfold intercharTimeout
      rw [show (s.ports.get p).receiver = _ from hr]
    rw [exec_released (f := intercharTimeout p) rfl h, e, hcount]
  · have e : intercharTimeout p s = s := by
      unfold intercharTimeout
      rw [show (s.ports.get p).receiver = _ from hr]
    rw [exec_released (f := intercharTimeout p) rfl h, e]

/-! ### The characters of a frame (R189, R190) -/

theorem majority_cleanChar (b : Byte) : majority (cleanChar b) = 0x200#10 ||| (b.setWidth 10 <<< 1) := by
  simp [majority, cleanChar]

theorem cleanChar_ok (b : Byte) : startOk (cleanChar b) = true ∧ stopOk (cleanChar b) = true ∧ dataOf (cleanChar b) = b ∧
    noiseOf (cleanChar b) = 0 := by
  refine ⟨?_, ?_, ?_, ?_⟩
  · rw [startOk, majority_cleanChar]
    simp
  · rw [stopOk, majority_cleanChar]
    simp
  · rw [dataOf, majority_cleanChar]
    refine BitVec.eq_of_getLsbD_eq fun i hi => ?_
    interval_cases i <;> simp
  · simp [noiseOf, disagree, cleanChar]

/-- The clean characters of the bytes that complete a message. -/
theorem receiveChars_clean (bs pre : List Byte) (noise : Nat) (hb : bs ≠ [])
    (hl : ((pre ++ bs).getD 0 0).toNat ≤ 250) (hn : (pre ++ bs).length = ((pre ++ bs).getD 0 0).toNat + 5)
    (he : closeMessage (pre ++ bs) noise ≠ .nothing) :
    receiveChars (.assembling pre noise) (bs.map cleanChar) = (.hunting, [closeMessage (pre ++ bs) noise]) := by
  induction bs generalizing pre with
  | nil => exact absurd rfl hb
  | cons b bs ih =>
    obtain ⟨hstart, hstop, hdata, hnoise⟩ := cleanChar_ok b
    have hsplit : pre ++ b :: bs = (pre ++ [b]) ++ bs := by simp
    have hhead : ((pre ++ [b]) ++ bs).getD 0 0 = (pre ++ [b]).getD 0 0 := by
      cases pre <;> rfl
    rw [List.map_cons, receiveChars]
    rw [hsplit] at hl hn he ⊢
    cases bs with
    | nil =>
      rw [List.append_nil] at hl hn he ⊢
      have hn' : pre.length + 1 = ((pre ++ [b]).getD 0 0).toNat + 5 := by simpa using hn
      rw [receiveChar_closes hstart hstop noise (by rw [hdata]; exact hl) (by rw [hdata]; exact hn'), hdata, hnoise, Nat.add_zero]
      simp [receiveChars, he]
    | cons c rest =>
      rw [hhead] at hn
      have hne : pre.length + 1 ≠ ((pre ++ [b]).getD 0 0).toNat + 5 := by
        simp only [List.length_append, List.length_cons, List.length_nil] at hn
        omega
      rw [receiveChar_joins hstart hstop noise (by rw [hdata, ← hhead]; exact hl) (by rw [hdata]; exact hne), hdata, hnoise,
        Nat.add_zero, ih (pre ++ [b]) (by simp) hl (by rw [hhead]; exact hn) he]
      simp

/-- A whole message, its SYNC first. -/
theorem receiveChars_message (body crc : List Byte) (hc : crc.length = 2) (hl : (body.getD 0 0).toNat ≤ 250)
    (hb : body.length = (body.getD 0 0).toNat + 3) (he : closeMessage (body ++ crc) 0 ≠ .nothing) :
    receiveChars .hunting (([0xA5#8] ++ body ++ crc).map cleanChar) = (.hunting, [closeMessage (body ++ crc) 0]) := by
  obtain ⟨hstart, hstop, hdata, _⟩ := cleanChar_ok 0xA5#8
  have hhead : (body ++ crc).getD 0 0 = body.getD 0 0 := by
    cases body with
    | nil => simp at hb
    | cons x xs => rfl
  rw [List.append_assoc, List.singleton_append, List.map_cons, receiveChars, receiveChar_sync hstart hstop hdata]
  have := receiveChars_clean (body ++ crc) [] 0 (by intro e; simp [List.append_eq_nil_iff] at e; simp [e.2] at hc)
    (by rw [List.nil_append, hhead]; exact hl)
    (by rw [List.nil_append, hhead, List.length_append, hc]; omega) (by rw [List.nil_append]; exact he)
  rw [this]
  simp

/-- R190: the check of a message that carries its CRC. -/
theorem closeMessage_eq (l k t : Byte) (pl crc : List Byte) (hc : crc.length = 2) (noise : Nat) :
    closeMessage ([l, k, t] ++ pl ++ crc) noise =
      if crc16 ([l, k, t] ++ pl) = (beNat crc : BitVec 16) then .valid ⟨k, t, pl⟩ noise else .bad := by
  have hlen : ([l, k, t] ++ pl ++ crc).length - 2 = ([l, k, t] ++ pl).length := by
    rw [List.length_append, hc, Nat.add_sub_cancel]
  unfold closeMessage
  rw [hlen]
  dsimp only
  rw [List.take_left, List.drop_left]
  rfl

/-- A frame on the line: the bytes between SYNC and the CRC, and the CRC of them. -/
theorem frame_bytes (kind tag : Byte) (pl : List Byte) :
    frame ⟨.reply, kind, tag, pl⟩ = [0xA5#8] ++ ([BitVec.ofNat 8 pl.length, kind, tag] ++ pl) ++
      bytesBE 2 (crc16 ([BitVec.ofNat 8 pl.length, kind, tag] ++ pl)).toNat := by
  simp [frame, bytesBE]

/-- R190: the receiver's answer to the bytes of a message followed by two bytes of CRC. -/
theorem receiveChars_frame (kind tag : Byte) {pl : List Byte} (hpl : pl.length ≤ 250) {crc : List Byte} (hc : crc.length = 2) :
    let body := [BitVec.ofNat 8 pl.length, kind, tag] ++ pl
    receiveChars .hunting (([0xA5#8] ++ body ++ crc).map cleanChar) =
      (.hunting, [if crc16 body = (beNat crc : BitVec 16) then .valid ⟨kind, tag, pl⟩ 0 else .bad]) := by
  intro body
  have hhead : (body.getD 0 0).toNat = pl.length := by
    show (BitVec.ofNat 8 pl.length).toNat = _
    rw [BitVec.toNat_ofNat, Nat.mod_eq_of_lt (by omega)]
  have hclose := closeMessage_eq (BitVec.ofNat 8 pl.length) kind tag pl crc hc 0
  rw [← hclose]
  refine receiveChars_message body crc hc (by rw [hhead]; exact hpl) (by rw [hhead]; simp [body]) ?_
  rw [hclose]
  split <;> simp

/-- The CRC's own two bytes spell it. -/
theorem beNat_crc (c : BitVec 16) : (beNat (bytesBE 2 c.toNat) : BitVec 16) = c := by
  rw [beNat_bytesBE_of_lt (by have := c.isLt; simpa using this)]
  exact BitVec.ofNat_toNat 16 c |>.trans (BitVec.setWidth_eq c)

/-- R194: what a valid message makes of its port. -/
theorem offer_validPort {x : PortState} (m : InMsg) (hr : x.receiver = .hunting) (hn : x.noise ≤ 65535) :
    offerInbound m (validPort .hunting 0 x) = { x with
      silent := false
      silentTimer := 0
      inbound := if x.inbound.length < 4 then x.inbound ++ [m] else x.inbound
      overruns := if x.inbound.length < 4 then x.overruns else min 65535 (x.overruns + 1) } := by
  have hnoise : addCount x.noise 0 = x.noise := Nat.min_eq_right hn
  unfold offerInbound
  split
  · next h =>
    have h' : x.inbound.length < 4 := h
    simp [validPort, hnoise, ← hr, h']
  · next h =>
    have h' : ¬ x.inbound.length < 4 := h
    simp [validPort, hnoise, ← hr, h', satInc]

/-- R194: the fields of a port that a message put before it leaves, and the buffer. -/
theorem offerInbound_buffers (m : InMsg) (x : PortState) : (offerInbound m x).silent = x.silent ∧
    (offerInbound m x).silentTimer = x.silentTimer ∧ (offerInbound m x).descriptors = x.descriptors ∧
    (offerInbound m x).inbound = if x.inbound.length < 4 then x.inbound ++ [m] else x.inbound := by
  unfold offerInbound
  split <;> exact ⟨rfl, rfl, rfl, rfl⟩

/-- Settles O33: the receiver's run over the frame, then the inbound buffer. -/
theorem framesAreReceived : Obligations.FramesAreReceived := by
  intro s p kind tag pl hpl hheld hr hn ps body clean
  have hrun : receiveChars ps.receiver clean = (.hunting, [.valid ⟨kind, tag, pl⟩ 0]) := by
    have := receiveChars_frame kind tag hpl (crc := bytesBE 2 (crc16 body).toNat) (bytesBE_length _ _)
    rw [show ps.receiver = .hunting from hr, show clean = _ from congrArg (List.map cleanChar) (frame_bytes kind tag pl), this,
      if_pos (beNat_crc _).symm]
  have hexec : exec (.messageReceived p clean) s = .next (acceptMessage p .hunting ⟨kind, tag, pl⟩ 0 s) := by
    rw [exec_released (f := messageReceived p clean) rfl hheld, messageReceived, hrun]
  refine ⟨fun hs => ?_, fun hs => ?_, fun c1 c0 hne => ?_⟩
  · have : acceptMessage p .hunting ⟨kind, tag, pl⟩ 0 s =
        s.updPort p fun x => offerInbound ⟨kind, tag, pl⟩ (validPort .hunting 0 x) := by
      rw [acceptMessage, show (s.ports.get p).silent = false from hs]
      exact s.updPort_updPort p _ _
    rw [hexec, this, State.updPort_eq, offer_validPort _ hr hn, ← hs]
  · refine ⟨_, hexec, ?_⟩
    rw [acceptMessage, show (s.ports.get p).silent = true from hs]
    generalize hu : s.updPort p (validPort .hunting 0) = u
    have hport : u.ports.get p = validPort .hunting 0 ps := by rw [← hu, State.updPort_get_same]
    have hnoticed : Noticed (validPort .hunting 0 ps) ((u.returnAlarm (ptPortSilent p)).ports.get p) :=
      hport ▸ (aside_returnAlarm u (ptPortSilent p)).ports p
    have hstep : (u.returnAlarm (ptPortSilent p)).updPort p (offerInbound ⟨kind, tag, pl⟩) =
      (if true = true then u.returnAlarm (ptPortSilent p) else u).updPort p (offerInbound ⟨kind, tag, pl⟩) := rfl
    rw [← hstep, State.updPort_get_same]
    obtain ⟨hsilent, htimer, hdesc, hin⟩ := offerInbound_buffers ⟨kind, tag, pl⟩ ((u.returnAlarm (ptPortSilent p)).ports.get p)
    refine ⟨hsilent.trans hnoticed.silent, htimer.trans (hnoticed.field (by simp)), hdesc.trans hnoticed.descriptors, ?_,
      State.returnAlarm_over u _, ?_, ?_⟩
    · rw [hin, hnoticed.inbound]
      rfl
    · exact (congrArg State.cta hu).symm
    · exact (congrArg State.pen hu).symm
  · have hbeq : beNat [c1, c0] = c1.toNat * 256 + c0.toNat := by simp [beNat]
    have hwrong : crc16 body ≠ (beNat [c1, c0] : BitVec 16) := fun e => hne (by
      rw [e, hbeq]
      have h1 := c1.isLt
      have h0 := c0.isLt
      refine (Nat.mod_eq_of_lt ?_).symm
      omega)
    have hbad := receiveChars_frame kind tag hpl (crc := [c1, c0]) rfl
    have hbad := hbad.trans (congrArg (fun e => (Receiver.hunting, [e])) (if_neg hwrong))
    rw [exec_released (f := badMessage p _) rfl hheld, badMessage, show (s.ports.get p).receiver = .hunting from hr, hbad]
    rfl

end Sys2Proof.Machine
end

section
/-! PROOFS. A port that goes SILENT (R179, R197), the token's requests (R176, R177) and STANDARDIZE (R46). -/

namespace Sys2Proof.Machine

open Safety

/-! ### Silence -/

/-- R179: what a SILENT port's leaving makes of the token, the carriage's owed hold and the other blocks. -/
theorem silenceToken_of_holder {p : Port} {s : State} (h : s.cta.holder = some p) :
    silenceToken p s = leaveToken p true s := if_pos h

theorem silenceToken_of_not {p : Port} {s : State} (h : s.cta.holder ≠ some p) :
    silenceToken p s = s.withCta { s.cta with waiting := s.cta.waiting.erase p } := if_neg h

theorem leaveToken_blocks (old : Port) (silent : Bool) (s : State) : (leaveToken old silent s).hbc = s.hbc ∧
    (leaveToken old silent s).osq = s.osq ∧ (leaveToken old silent s).azm = s.azm := by
  rw [leaveToken_eq]
  split <;> exact ⟨rfl, rfl, rfl⟩

theorem silenceToken_blocks (p : Port) (s : State) : (silenceToken p s).pen = s.pen ∧ (silenceToken p s).drive = s.drive ∧
    (silenceToken p s).msm = s.msm ∧ (silenceToken p s).hbc = s.hbc ∧ (silenceToken p s).osq = s.osq ∧
    (silenceToken p s).azm = s.azm ∧ ∀ q, Noticed (s.ports.get q) ((silenceToken p s).ports.get q) := by
  by_cases h : s.cta.holder = some p
  · rw [silenceToken_of_holder h]
    obtain ⟨_, _, hpen, hdrive, hmsm, _, _, hports⟩ := leaveToken_fields p true s
    obtain ⟨hhbc, hosq, hazm⟩ := leaveToken_blocks p true s
    exact ⟨hpen, hdrive, hmsm, hhbc, hosq, hazm, hports⟩
  · rw [silenceToken_of_not h]
    exact ⟨rfl, rfl, rfl, rfl, rfl, rfl, fun q => Noticed.refl _⟩

/-- R197: a port's silence drops its assemblies and touches no other block. -/
theorem silenceAzm_eq (p : Port) (s : State) :
    silenceAzm p s = s.withAzm (if p = .actuator then dropAssemblies s.azm else s.azm) := by
  cases p <;> rfl

theorem silencedPort_azm (p : Port) (s : State) : (silencedPort p s).azm = s.azm := rfl

/-- R179, R197: everything a port's silence leaves. -/
theorem becomeSilent_fields (p : Port) (s : State) :
    let t := becomeSilent p s
    t.ports.get p = silencePort (s.ports.get p) ∧ t.pen = { s.pen with pins := s.pen.pins.set p none } ∧
    alarmActive t (ptPortSilent p) ∧ t.cta = (silenceToken p (silencedPort p s)).cta ∧
    t.cmu = (silenceToken p (silencedPort p s)).cmu ∧
    t.azm = (if p = .actuator then dropAssemblies s.azm else s.azm) ∧ t.hbc = s.hbc ∧ t.osq = s.osq ∧ t.msm = s.msm ∧
    t.drive = s.drive := by
  intro t
  obtain ⟨hpen, hdrive, hmsm, hhbc, hosq, hazm, hports⟩ := silenceToken_blocks p (silencedPort p s)
  have ht : t = ((silenceToken p (silencedPort p s)).activate (ptPortSilent p)).withAzm
      (if p = .actuator then dropAssemblies (silenceToken p (silencedPort p s)).azm else (silenceToken p (silencedPort p s)).azm) :=
    (becomeSilent_eq p s).trans (silenceAzm_eq p _)
  have hport : (silencedPort p s).ports.get p = silencePort (s.ports.get p) := by rw [silencedPort_get, if_pos rfl]
  rw [ht]
  simp only [State.withAzm_ports, State.withAzm_pen, State.withAzm_cta, State.withAzm_cmu, State.withAzm_azm,
    State.withAzm_hbc, State.withAzm_osq, State.withAzm_msm, State.withAzm_drive, State.activate_pen, State.activate_cta,
    State.activate_cmu, State.activate_hbc, State.activate_osq, State.activate_msm, State.activate_drive]
  refine ⟨?_, hpen, State.activate_active (silenceToken p (silencedPort p s)) (ptPortSilent p), trivial, trivial, ?_, hhbc,
    hosq, hmsm, hdrive⟩
  · have hn := (hports p).trans (activate_ports (silenceToken p (silencedPort p s)) (ptPortSilent p) p)
    exact (hn.of_silent (by rw [hport]; rfl)).trans hport
  · rw [hazm, silencedPort_azm]

theorem clearOwedHold_owed {c : Cmu} {k : HoldKind} (h : c.hold = .owed k) : clearOwedHold c = { c with hold := .none } := by
  unfold clearOwedHold
  rw [h]

theorem clearOwedHold_other {c : Cmu} (h : ∀ k, c.hold ≠ .owed k) : clearOwedHold c = c := by
  unfold clearOwedHold
  split
  · next k e => exact absurd e (h k)
  · rfl

/-- Settles O35: the silence of the port, then what the token makes of its going. -/
theorem portGoesSilent : Obligations.PortGoesSilent := by
  intro s p h ps
  have hexec : exec (.portSilent p) s = .next (portSilent p s) := exec_released (f := portSilent p) rfl h
  refine ⟨fun hno => ?_, fun hs ht => ⟨becomeSilent p s, ?_, ?_⟩⟩
  · have : ¬ ((!(s.ports.get p).silent) = true ∧ s.rbs.common.silentTime ≠ 0) := by
      rintro ⟨h1, h2⟩
      rcases hno with e | e
      · simp [show (s.ports.get p).silent = true from e] at h1
      · exact h2 e
    rw [hexec, portSilent, if_neg this]
  · rw [hexec, portSilent, if_pos ⟨by simp [show (s.ports.get p).silent = false from hs], ht⟩]
  · obtain ⟨hport, hpen, halarm, hcta, hcmu, hazm, hhbc, hosq, hmsm, hdrive⟩ := becomeSilent_fields p s
    refine ⟨hport, hpen, halarm, fun hh => ?_, fun hh => ?_, fun hp => ?_, fun hp => ?_, hhbc, hosq, hmsm, hdrive⟩
    · have e := silenceToken_of_holder (s := silencedPort p s) (p := p) hh
      obtain ⟨hc, hm, _⟩ := leaveToken_fields p true (silencedPort p s)
      rw [e] at hcta hcmu
      exact ⟨hcta.trans hc, fun k hk => (hcmu.trans hm).trans (clearOwedHold_owed hk),
        fun hk => (hcmu.trans hm).trans (clearOwedHold_other hk)⟩
    · have e := silenceToken_of_not (s := silencedPort p s) (p := p) hh
      rw [e] at hcta hcmu
      exact ⟨hcta, hcmu⟩
    · rw [hazm, if_pos hp]
      rfl
    · rw [hazm, if_neg hp]

/-! ### CLAIM and RELEASE -/

theorem clearOwedHold_eq (c : Cmu) :
    clearOwedHold c = { c with hold := match c.hold with | .owed _ => .none | h => h } := by
  unfold clearOwedHold
  cases h : c.hold <;> simp [← h]

theorem leaveToken_nil (old : Port) (silent : Bool) {s : State} (h : s.cta.waiting = []) :
    leaveToken old silent s = (s.withCmu (clearOwedHold s.cmu)).withCta ⟨none, [], none⟩ := by
  rw [leaveToken_eq, h]
  rfl

theorem leaveToken_cons (old : Port) (silent : Bool) {s : State} {q : Port} {rest : List Port} (h : s.cta.waiting = q :: rest) :
    leaveToken old silent s = ((s.withCmu (clearOwedHold s.cmu)).withCta ⟨some q, rest, none⟩).notify q kToken
      (tokenPayload q old silent rest) := by
  rw [leaveToken_eq, h]
  rfl

/-- Settles O45: the rows of CLAIM and RELEASE by holder and waiting list. -/
theorem theTokenIsClaimedAndReleased : Obligations.TheTokenIsClaimedAndReleased := by
  intro s p m hw hp w unowed
  refine ⟨fun hk => ?_, fun hk => ?_⟩
  · have row : Row s p m 1 (ofKind 13) := Row.of_kind hw hk (by rw [hp]; rfl) (by cases p <;> rfl)
    refine ⟨fun hh => ?_, fun hh => ?_, fun q hh hq => ?_⟩
    · refine row.exec_changed (owner := ownClaim) (t := s.withCta { s.cta with holder := some p }) rfl ?_
      rw [ownClaim, show (s.updPort p (takenPort m)).cta.holder = none from hh]
      rfl
    · refine row.exec_answered (owner := ownClaim) rfl ?_
      rw [ownClaim, show (s.updPort p (takenPort m)).cta.holder = some p from hh]
      exact if_pos rfl
    · refine row.exec_changed (owner := ownClaim) (t := s.withCta { s.cta with waiting := joinWaiting p s.cta.waiting }) rfl ?_
      rw [ownClaim, show (s.updPort p (takenPort m)).cta.holder = some q from hh]
      exact if_neg hq
  · have row : Row s p m 1 (ofKind 14) := Row.of_kind hw hk (by rw [hp]; rfl) (by cases p <;> rfl)
    have hown : s.cta.holder = some p → ownRelease p m (s.updPort p (takenPort m)) =
        code rcOk (leaveToken p false (s.updPort p (takenPort m))) := fun hh => if_pos hh
    refine ⟨fun hh hn => ?_, fun n rest hh hn hne => ?_, fun hh hm => ?_, fun hh hm => ?_⟩
    · refine row.exec_changed (owner := ownRelease)
        (t := (s.withCmu unowed).withCta ⟨none, [], none⟩) rfl ?_
      rw [hown hh, leaveToken_nil p false (s := s.updPort p (takenPort m)) hn, clearOwedHold_eq]
      rfl
    · obtain ⟨hexec, hreply⟩ := row.exec_replied (owner := ownRelease) (c := .release p .whole) rfl (hown hh)
      have hpass := leaveToken_cons p false (s := s.updPort p (takenPort m)) hn
      refine ⟨_, hexec, hreply, ?_, ?_, fun hs hroom => ?_⟩
      · rw [State.updPort_cta, hpass]
        rfl
      · rw [State.updPort_cmu, hpass]
        exact clearOwedHold_eq s.cmu
      · rw [State.updPort_get_ne _ _ hne, hpass]
        have e : (s.updPort p (takenPort m)).ports.get n = s.ports.get n := State.updPort_get_ne _ _ hne
        refine (congrArg PortState.outbound (State.notify_get_same _ _ _ n)).trans ?_
        have e' : (((s.updPort p (takenPort m)).withCmu (clearOwedHold (s.updPort p (takenPort m)).cmu)).withCta
            ⟨some n, rest, none⟩).ports.get n = s.ports.get n := e
        rw [e', PortState.notice_of_room _ _ _ hs hroom]
        simp [kToken, tokenPayload, bytesBE, flagByte, List.map_eq_flatMap]
    · refine row.exec_changed (owner := ownRelease) (t := s.withCta { s.cta with waiting := s.cta.waiting.erase p }) rfl ?_
      exact (if_neg hh).trans (if_pos hm)
    · exact row.exec_answered (owner := ownRelease) rfl ((if_neg hh).trans (if_neg hm))

/-! ### STANDARDIZE (R46, R47) -/

/-- R47: the abort and the opening of a standardization leave the carriage where it is. -/
theorem openStd_abortTraverse_cmu (s : State) :
    (openStd (abortTraverse s)).cmu.position = s.cmu.position ∧
    (openStd (abortTraverse s)).rbs = s.rbs ∧ (openStd (abortTraverse s)).osq.due = s.osq.due ∧
    (openStd (abortTraverse s)).osq.requested = s.osq.requested := by
  have hp : (dropArmed (abortTraverse s).cmu).position = s.cmu.position := by
    rw [(motion_abortTraverse s).position.symm]
    unfold dropArmed
    split <;> rfl
  have hosq := (abortTraverse_fields s).2.1
  refine ⟨hp, ?_, ?_, ?_⟩
  · show (abortTraverse s).rbs = s.rbs
    unfold abortTraverse
    split <;> rfl
  · show (abortTraverse s).osq.due = _
    rw [hosq]
  · show (abortTraverse s).osq.requested = _
    rw [hosq]

/-- R47, R48: where the taking of a standardization sends the carriage. -/
theorem takeStd_goes (s : State) :
    (takeStd s).osq.due = s.osq.due ∧ (takeStd s).osq.requested = s.osq.requested ∧
    (s.cmu.position ≠ s.rbs.common.stdPos → (takeStd s).osq.step = .travel ∧ (takeStd s).cmu.state = .toStd ∧
      (takeStd s).cmu.travelTarget = s.rbs.common.stdPos) ∧
    (s.cmu.position = s.rbs.common.stdPos → (takeStd s).osq.step = .settle ∧ (takeStd s).cmu.state = .atStd ∧
      (takeStd s).osq.settle = some 0) := by
  obtain ⟨hp, hrbs, hdue, hreq⟩ := openStd_abortTraverse_cmu s
  have e : takeStd s = goStd (openStd (abortTraverse s)) := rfl
  rw [e, goStd, ← hp, ← hrbs, ← hdue, ← hreq, travel_position]
  split
  · next h => exact ⟨rfl, rfl, fun k => absurd h k, fun _ => ⟨rfl, rfl, rfl⟩⟩
  · next h => exact ⟨rfl, rfl, fun _ => ⟨rfl, rfl, rfl⟩, fun k => absurd k h⟩

/-- R44, R46: an idle OSQ's record of a request. -/
def askedOsq (o : Osq) : Osq := { o with requested := true, due := true, dueAge := if o.due then o.dueAge else 0 }

theorem recordRequest_idle {s : State} (hr : s.osq.requested = false) (hi : s.osq.step = .idle) :
    recordRequest s = (osqOccasion (s.withOsq (askedOsq s.osq))).settleDrive := by
  have hdue : (setDue s).withOsq { (setDue s).osq with requested := true } = s.withOsq (askedOsq s.osq) := by
    unfold setDue askedOsq
    by_cases h : s.osq.due = true
    · rw [if_pos h, if_pos h, ← h]
    · rw [if_neg h, if_neg h]
      rfl
  rw [recordRequest, if_neg (by rw [hr]; decide), hi]
  exact congrArg (fun u => (osqOccasion u).settleDrive) hdue

/-- R47: an asked standardization is taken exactly by a carriage that stands. -/
theorem osqOccasion_asked {s : State} (hi : s.osq.step = .idle) : osqOccasion (s.withOsq (askedOsq s.osq)) =
    if s.cmu.state ∈ [CarriageState.parked, .held, .fixed] then takeStd (s.withOsq (askedOsq s.osq))
    else s.withOsq (askedOsq s.osq) := by
  have htakes : osqTakes (s.withOsq (askedOsq s.osq)) = true := by simp [osqTakes, askedOsq, hi]
  unfold osqOccasion
  rw [htakes]
  simp [or_assoc]

/-- Settles O48: the recording of the request by the step of the OSQ. -/
theorem standardizeIsAcceptedByStep : Obligations.StandardizeIsAcceptedByStep := by
  intro s p m hw hk hp hh hd hov deferred stands
  have row : Row s p m 1 (ofKind 19) := Row.of_kind hw hk (by rw [hp]; rfl) (by cases p <;> rfl)
  have hown : withToken ownStandardize p m (s.updPort p (takenPort m)) =
      code rcDeferred (recordRequest (s.updPort p (takenPort m))) := by
    rw [withToken_taken m hh, ownStandardize, flushOverride_of_taken (s := s.updPort p (takenPort m)) hov]
  generalize hu : s.updPort p (takenPort m) = u at hown
  have hset : ∀ x : Osq, recordRequest u = u.withOsq x → exec (.standardize p .whole) s =
      .next { deferred with osq := x } := fun x hx => by
    refine row.exec_changed (owner := withToken ownStandardize) (t := s.withOsq x) rfl ?_
    rw [hu, hown, hx, ← hu]
    rfl
  have hosq : u.osq = s.osq := by rw [← hu]; rfl
  have hcmu : u.cmu = s.cmu := by rw [← hu]; rfl
  refine ⟨fun hr => ?_, fun hr => ⟨fun hs => ?_, fun hs => ?_, fun hs hn => ?_, fun hs hn => ?_⟩⟩
  · refine hset s.osq ?_
    rw [recordRequest, hosq, if_pos hr, ← hosq]
    rfl
  · have hidle : u.osq.requested ≠ true := by rw [hosq, hr]; decide
    refine hset _ ?_
    rw [recordRequest, if_neg hidle, ← hosq]
    rcases List.mem_pair.1 hs with e | e <;> rw [hosq, e]
  · have hidle : u.osq.requested ≠ true := by rw [hosq, hr]; decide
    refine hset _ ?_
    rw [recordRequest, if_neg hidle, ← hosq]
    simp only [List.mem_cons, List.not_mem_nil, or_false] at hs
    rcases hs with e | e | e <;> rw [hosq, e]
  · refine hset (askedOsq s.osq) ?_
    rw [recordRequest_idle (by rw [hosq, hr]) (by rw [hosq, hs]), osqOccasion_asked (by rw [hosq, hs]), hcmu, if_neg hn, hosq]
    exact State.settleDrive_of_settled (by rw [← hu]; exact hd)
  · rw [recordRequest_idle (by rw [hosq, hr]) (by rw [hosq, hs]), osqOccasion_asked (by rw [hosq, hs]), hcmu, if_pos hn] at hown
    obtain ⟨hexec, hreply⟩ := row.exec_replied (owner := withToken ownStandardize) (c := .standardize p .whole) rfl
      ((congrArg _ hu).trans hown)
    obtain ⟨hdue, hreq, haway, hthere⟩ := takeStd_goes (u.withOsq (askedOsq u.osq))
    have hpos : u.cmu.position = s.cmu.position := by rw [hcmu]
    have hstd : u.rbs.common.stdPos = s.rbs.common.stdPos := by rw [← hu]; rfl
    refine ⟨_, hexec, hreply, hdue, hreq, fun hp => ?_, fun hp => ?_⟩
    · obtain ⟨h1, h2, h3⟩ := haway (by rw [State.withOsq_cmu, State.withOsq_rbs, hpos, hstd]; exact hp)
      exact ⟨h1, h2, h3.trans (by rw [State.withOsq_rbs, hstd])⟩
    · exact hthere (by rw [State.withOsq_cmu, State.withOsq_rbs, hpos, hstd]; exact hp)

end Sys2Proof.Machine
end

section
/-! PROOFS. The fields of a payload read back (R190, R191), READ PROFILE (R200) and the parts of a zone map (R132). -/

namespace Sys2Proof.Machine

open Safety

/-! ### Fields of a payload -/

theorem fieldAt_skip (x : Byte) (l : List Byte) (off len : Nat) : fieldAt (x :: l) (off + 1) len = fieldAt l off len := rfl

@[simp] theorem fieldAt_byte (x : Byte) (l : List Byte) : fieldAt (x :: l) 0 1 = x.toNat := by
  simp [fieldAt, beNat]

/-- A field past a run of bytes. -/
theorem fieldAt_past (a l : List Byte) (off len : Nat) : fieldAt (a ++ l) (a.length + off) len = fieldAt l off len := by
  unfold fieldAt
  rw [← List.drop_drop, List.drop_left]

/-- A number in `k` bytes reads back. -/
theorem fieldAt_bytesBE {k n : Nat} (h : n < 256 ^ k) (l : List Byte) : fieldAt (bytesBE k n ++ l) 0 k = n := by
  have := fieldAt_of_eq (pl := bytesBE k n ++ l) (a := []) (b := bytesBE k n) (c := l) (off := 0) (len := k) rfl rfl (bytesBE_length k n)
  rw [this, beNat_bytesBE_of_lt h]

theorem fieldAt_bytesBE_past {k : Nat} (n : Nat) (l : List Byte) (off len : Nat) :
    fieldAt (bytesBE k n ++ l) (k + off) len = fieldAt l off len := by
  have := fieldAt_past (bytesBE k n) l off len
  rwa [bytesBE_length] at this

/-! ### The codes of R190 and R191 -/

theorem propOfCode_propCode (q : Prop4) : propOfCode (BitVec.ofNat 8 (propCode q)).toNat = some q := by cases q <;> rfl
theorem formOfCode_formCode (f : Form) : formOfCode (BitVec.ofNat 8 (formCode f)).toNat = some f := by cases f <;> rfl
theorem encOfCode_encCode (e : Encoding) : encOfCode (BitVec.ofNat 8 (encCode e)).toNat = some e := by cases e <;> rfl

theorem propOfCode_none {n : Nat} (h : 3 < n) : propOfCode n = none := by
  obtain ⟨k, rfl⟩ := Nat.exists_eq_add_of_le' h
  rfl
theorem formOfCode_none {n : Nat} (h : 4 < n) : formOfCode n = none := by
  obtain ⟨k, rfl⟩ := Nat.exists_eq_add_of_le' h
  rfl
theorem encOfCode_none {n : Nat} (h : 2 < n) : encOfCode n = none := by
  obtain ⟨k, rfl⟩ := Nat.exists_eq_add_of_le' h
  rfl

/-- A byte of a small number. -/
theorem byte_toNat {n : Nat} (h : n < 256) : (BitVec.ofNat 8 n).toNat = n := by
  rw [BitVec.toNat_ofNat]
  exact Nat.mod_eq_of_lt h

/-- A 32-bit number spelt in four bytes. -/
theorem word_ofNat (x : BitVec 32) : ((x.toNat : Nat) : BitVec 32) = x :=
  (BitVec.ofNat_toNat 32 x).trans (BitVec.setWidth_eq x)

/-! ### A row whose owner changes its port -/

/-- The command of a row whose owner changes its port by a function of the port. -/
theorem Row.exec_port {s : State} {p : Port} {m : InMsg} {need : Nat} {accepts : InMsg → Bool} {owner : Owner} {c : Instr}
    (h : Row s p m need accepts) (hc : Machine.exec c s = whenReleased s (request .whole p accepts owner))
    {parts : List (List Byte)} {t : State} (f : PortState → PortState)
    (ho : owner p m (s.updPort p (takenPort m)) = ((t.withPorts (s.updPort p (takenPort m)).ports).updPort p f, parts))
    (hl : parts.length ≤ need := by decide) :
    Machine.exec c s = .next (t.withPorts (s.ports.set p { f (takenPort m (s.ports.get p)) with
      handling := none
      outbound := (f (takenPort m (s.ports.get p))).outbound ++ parts.map (replyTo m) })) := by
  rw [h.exec hc, ho]
  simp [State.updPort_eq, queueReply_eq _ h.kind hl]
  rfl

/-! ### The store by scan number (R120) -/

/-- The one generation of a scan number is the one a reader finds. -/
theorem heldScan_of_inSlot {p : Pen} {g : Generation} (h : inSlot p g) : heldScan p g.scan = some g := by
  obtain ⟨i, hi, hone⟩ := h
  have hsome : (heldScan p g.scan).isSome = true := by
    unfold heldScan
    rw [List.findSome?_isSome_iff]
    exact ⟨i, List.mem_finRange i, by simp [hi]⟩
  obtain ⟨x, hx⟩ := Option.isSome_iff_exists.1 hsome
  obtain ⟨hscan, j, hj⟩ := heldScan_some hx
  obtain rfl := hone j x hj hscan
  rw [hx, ← hj, hi]

theorem heldScan_none {p : Pen} {n : ScanNo} (h : ∀ (i : Fin 3) (g : Generation), p.slots[i] = some g → g.scan ≠ n) :
    heldScan p n = none := by
  cases e : heldScan p n with
  | none => rfl
  | some g =>
    obtain ⟨hscan, i, hi⟩ := heldScan_some e
    exact absurd hscan (h i g hi)

/-! ### READ PROFILE (R200) -/

theorem cutRange_some {n first last : Nat} (h1 : first < n) (h2 : first ≤ last) :
    cutRange (some n) first last = some (first, min last (n - 1)) := if_pos ⟨h1, h2⟩

theorem cutRange_none {n : Option Nat} {first last : Nat} (h : ∀ k, n = some k → k ≤ first ∨ last < first) :
    cutRange n first last = none := by
  cases n with
  | none => rfl
  | some k =>
    refine if_neg fun hc => ?_
    have := h k rfl
    omega

/-- R200.1: the codes of a READ PROFILE, and its selector, in their bytes. -/
theorem profileFields_eq (q f e sh se : Byte) (rest : List Byte) : profileFields ([q, f, e, sh, se] ++ rest) =
    (propOfCode q.toNat).bind fun prop => (formOfCode f.toNat).bind fun form => (encOfCode e.toNat).bind fun enc =>
      (genSelect ([q, f, e, sh, se] ++ rest) 4).bind fun sel => if sh.toNat ≤ 7 then some (prop, form, enc, sel) else none := by
  have hq : fieldAt ([q, f, e, sh, se] ++ rest) 0 1 = q.toNat := fieldAt_byte q _
  have hf : fieldAt ([q, f, e, sh, se] ++ rest) 1 1 = f.toNat := fieldAt_byte f _
  have he : fieldAt ([q, f, e, sh, se] ++ rest) 2 1 = e.toNat := fieldAt_byte e _
  have hsh : fieldAt ([q, f, e, sh, se] ++ rest) 3 1 = sh.toNat := fieldAt_byte sh _
  unfold profileFields
  rw [hq, hf, he, hsh]
  rfl

theorem genSelect_none {pl : List Byte} {off : Nat} (h : 1 < fieldAt pl off 1) : genSelect pl off = none := by
  unfold genSelect
  obtain ⟨k, hk⟩ := Nat.exists_eq_add_of_le' h
  rw [hk]
  rfl

/-- R200.1: a code out of its range. -/
theorem profileFields_none {q f e sh se : Byte} (rest : List Byte)
    (h : 3 < q.toNat ∨ 4 < f.toNat ∨ 2 < e.toNat ∨ 7 < sh.toNat ∨ 1 < se.toNat) :
    profileFields ([q, f, e, sh, se] ++ rest) = none := by
  rw [profileFields_eq]
  rcases h with h | h | h | h | h
  · simp [propOfCode_none h]
  · simp [formOfCode_none h]
  · simp [encOfCode_none h]
  · simp [Nat.not_le.2 h]
  · have hsel : genSelect ([q, f, e, sh, se] ++ rest) 4 = none :=
      genSelect_none (lt_of_lt_of_eq h (fieldAt_byte se rest).symm)
    simp [show genSelect (q :: f :: e :: sh :: se :: rest) 4 = none from hsel]

/-- The selector of a READ PROFILE and of a READ SUMMARY. -/
def selected (latest : Bool) (scan : ScanNo) : GenSelect := if latest then .latest else .byNumber scan

theorem genSelect_selected (latest : Bool) (scan : ScanNo) (rest : List Byte) :
    genSelect ((if latest then 0 else 1) :: (bytesBE 4 scan.toNat ++ rest)) 0 = some (selected latest scan) := by
  have hlt : scan.toNat < 256 ^ 4 := scan.isLt
  cases latest
  · have e1 : fieldAt ((if false then 0 else 1 : Byte) :: (bytesBE 4 scan.toNat ++ rest)) 0 1 = 1 := fieldAt_byte _ _
    have e2 : fieldAt ((if false then 0 else 1 : Byte) :: (bytesBE 4 scan.toNat ++ rest)) (0 + 1) 4 = scan.toNat :=
      fieldAt_bytesBE hlt rest
    unfold genSelect
    rw [e1, e2]
    exact congrArg (fun x => some (GenSelect.byNumber x)) (word_ofNat scan)
  · have e1 : fieldAt ((if true then 0 else 1 : Byte) :: (bytesBE 4 scan.toNat ++ rest)) 0 1 = 0 := fieldAt_byte _ _
    unfold genSelect
    rw [e1]
    rfl

/-- R120: what the store gives for a selector. -/
theorem resolve_selected_none {p : Pen} {latest : Bool} {scan : ScanNo}
    (h : if latest then p.lastScan = none else ∀ (i : Fin 3) (g : Generation), p.slots[i] = some g → g.scan ≠ scan) :
    resolve p (selected latest scan) = none := by
  cases latest
  · exact heldScan_none h
  · show p.lastScan.bind _ = none
    rw [show p.lastScan = none from h]
    rfl

theorem resolve_selected {p : Pen} {latest : Bool} {scan : ScanNo} {g : Generation} (hg : inSlot p g)
    (h : if latest then p.lastScan = some g.scan else g.scan = scan) : resolve p (selected latest scan) = some g := by
  cases latest
  · rw [← show g.scan = scan from h]
    exact heldScan_of_inSlot hg
  · show p.lastScan.bind _ = _
    rw [show p.lastScan = some g.scan from h]
    exact heldScan_of_inSlot hg

/-- Settles O40: the codes, the stream in progress, the store and the range, in this order. -/
theorem readProfileStartsAStream : Obligations.ReadProfileStartsAStream := by
  intro s p m hw hk ps
  have row : lenOk 3 m.payload = true → Row s p m 1 (ofKind 3) := fun hl => Row.of_kind hw hk hl (by cases p <;> rfl)
  refine ⟨fun q f e sh se rest hp hr hbad => ?_, fun q f e shift first last latest scan hshift hfirst hlast hp => ?_⟩
  · refine (row (by rw [hp]; simp [lenOk, hr])).exec_answered (owner := ownReadProfile) rfl ?_
    rw [ownReadProfile, hp, profileFields_none rest hbad]
    rfl
  · have row := row (by rw [hp]; simp [lenOk])
    have hfields : profileFields m.payload = some (q, f, e, selected latest scan) := by
      have hsel := genSelect_selected latest scan (bytesBE 2 first ++ bytesBE 2 last)
      have hp' : m.payload = [BitVec.ofNat 8 (propCode q), BitVec.ofNat 8 (formCode f), BitVec.ofNat 8 (encCode e),
        BitVec.ofNat 8 shift, if latest then 0 else 1] ++ (bytesBE 4 scan.toNat ++ (bytesBE 2 first ++ bytesBE 2 last)) := by
        rw [hp]
        simp only [List.append_assoc]
      rw [hp', profileFields_eq, propOfCode_propCode, formOfCode_formCode, encOfCode_encCode, byte_toNat (by omega)]
      simp only [Option.bind_some, if_pos hshift]
      rw [show genSelect _ 4 = _ from hsel]
      rfl
    have hf1 : fieldAt m.payload 9 2 = first := (fieldAt_of_eq hp (by simp) (bytesBE_length 2 first)).trans
      (beNat_bytesBE_of_lt hfirst)
    have hl1 : fieldAt m.payload 11 2 = last := (fieldAt_of_eq (hp.trans (List.append_nil _).symm) (by simp)
      (bytesBE_length 2 last)).trans (beNat_bytesBE_of_lt hlast)
    have hs1 : fieldAt m.payload 3 1 = shift := by
      rw [hp]
      exact (fieldAt_byte _ _).trans (byte_toNat (by omega))
    have hown : ∀ u, ownReadProfile p m u = openStream p m q f e (selected latest scan) u := fun u => by
      rw [ownReadProfile, hfields]
    have htaken : ((s.updPort p (takenPort m)).ports.get p).stream = ps.stream := by rw [State.updPort_get_same]; rfl
    refine ⟨fun hbusy => ?_, fun hidle => ?_⟩
    · refine row.exec_answered (owner := ownReadProfile) rfl ?_
      rw [hown, openStream, htaken, if_pos hbusy]
      rfl
    have hopen : ∀ o, resolve s.pen (selected latest scan) = o → ownReadProfile p m (s.updPort p (takenPort m)) =
        match o with
        | none => code rcNoSuch (s.updPort p (takenPort m))
        | some g => match cutRange g.map.n first last with
          | none => code rcBadField (s.updPort p (takenPort m))
          | some (a, b) =>
            (startStream p ⟨m.tag, g.scan, q, f, e, shift, a, b⟩ (s.updPort p (takenPort m)),
              [[rcOk] ++ bytesBE 4 g.scan.toNat ++ bytesBE 2 a ++ bytesBE 2 b ++
                bytesBE 1 (chunksToFollow ⟨m.tag, g.scan, q, f, e, shift, a, b⟩)]) := fun o ho => by
      rw [hown, openStream, htaken, if_neg (by rw [hidle]; exact fun h => h rfl), hf1, hl1, hs1,
        show resolve (s.updPort p (takenPort m)).pen (selected latest scan) = o from ho] <;> cases o <;> rfl
    refine ⟨fun hnone => ?_, fun g hg hsel => ⟨fun hrange => ?_, fun n hn h1 h2 => ?_⟩⟩
    · exact row.exec_answered (owner := ownReadProfile) rfl (hopen none (resolve_selected_none hnone))
    · refine row.exec_answered (owner := ownReadProfile) rfl ((hopen _ (resolve_selected hg hsel)).trans ?_)
      simp only [cutRange_none hrange]
      rfl
    · intro stop perChunk chunks
      have hstart := (hopen _ (resolve_selected hg hsel))
      simp only [hn, cutRange_some h1 h2] at hstart
      have hper : binsPerChunk f e = perChunk := by cases f <;> cases e <;> rfl
      have hchunks : chunksToFollow ⟨m.tag, g.scan, q, f, e, shift, first, stop⟩ = chunks := by
        unfold chunksToFollow
        rw [show binsPerChunk _ _ = _ from hper]
        rfl
      rw [row.exec_port (owner := ownReadProfile) (t := s.withPen { s.pen with pins := s.pen.pins.set p (some g.scan) }) rfl
        (fun x => { x with stream := .running ⟨m.tag, g.scan, q, f, e, shift, first, stop⟩ }) hstart (Nat.le_refl 1)]
      have hfree : (none : Option Handling) = ps.handling := hw.2.2.1.symm
      rw [hchunks]
      simp only [takenPort, hfree, List.drop_one]
      rfl

/-! ### The parts of a zone map (R132) -/

/-- R191: a span in four bytes. -/
def spanBytes (z : Zone) : List Byte := bytesBE 2 z.a ++ bytesBE 2 (z.b - 1)

theorem spanBytes_length (z : Zone) : (spanBytes z).length = 4 := by simp [spanBytes]

theorem flatMap_spanBytes_length (zs : List Zone) : (zs.flatMap spanBytes).length = 4 * zs.length := by
  induction zs with
  | nil => rfl
  | cons z zs ih =>
    rw [List.flatMap_cons, List.length_append, spanBytes_length, ih, List.length_cons]
    omega

/-- The spans of a part read back. -/
theorem spansOf_spanBytes (zs : List Zone) (h : ∀ z ∈ zs, z.a < 65536 ∧ 1 ≤ z.b ∧ z.b ≤ 65536) (pre : List Byte) :
    spansOf (pre ++ zs.flatMap spanBytes) pre.length zs.length = zs := by
  induction zs generalizing pre with
  | nil => rfl
  | cons z zs ih =>
    obtain ⟨ha, hb1, hb2⟩ := h z List.mem_cons_self
    have hrest : pre ++ (z :: zs).flatMap spanBytes = (pre ++ spanBytes z) ++ zs.flatMap spanBytes := by simp
    have h1 : fieldAt (pre ++ (z :: zs).flatMap spanBytes) pre.length 2 = z.a := by
      have e : pre ++ (z :: zs).flatMap spanBytes = pre ++ bytesBE 2 z.a ++ (bytesBE 2 (z.b - 1) ++ zs.flatMap spanBytes) := by
        simp [spanBytes]
      exact (fieldAt_of_eq e rfl (bytesBE_length _ _)).trans (beNat_bytesBE_of_lt ha)
    have h2 : fieldAt (pre ++ (z :: zs).flatMap spanBytes) (pre.length + 2) 2 = z.b - 1 := by
      have e : pre ++ (z :: zs).flatMap spanBytes = (pre ++ bytesBE 2 z.a) ++ bytesBE 2 (z.b - 1) ++ zs.flatMap spanBytes := by
        simp [spanBytes]
      have hlt : z.b - 1 < 256 ^ 2 := by omega
      exact (fieldAt_of_eq e (by simp) (bytesBE_length _ _)).trans (beNat_bytesBE_of_lt hlt)
    have h3 := ih (fun y hy => h y (List.mem_cons_of_mem _ hy)) (pre ++ spanBytes z)
    rw [List.length_append, spanBytes_length, ← hrest] at h3
    rw [List.length_cons, spansOf, h1, h2, h3, Nat.sub_add_cancel hb1]

/-- R132.4: the assembly a part of the next spans joins. -/
theorem joinAssembly_next {z : ZoneSide} {q : Prop4} {count : Nat} {before : List Zone}
    (h : before = [] ∨ z.assembly = some ⟨q, count, before⟩) : joinAssembly z q count before.length = some ⟨q, count, before⟩ := by
  unfold joinAssembly
  split
  · next h0 => rw [List.length_eq_zero_iff.1 h0]
  · next h0 =>
    rcases h with e | e
    · exact absurd (by rw [e]; rfl) h0
    · rw [e]
      simp

/-- R132: what a part in its bytes makes of its map's side. -/
theorem takePart_bytes {side : ZoneSide} {nm : Byte} {q : Prop4} {count : Nat} {before zs : List Zone}
    (hz : ∀ z ∈ zs, z.a < 65536 ∧ 1 ≤ z.b ∧ z.b ≤ 65536) (hc : 1 ≤ count) (hc' : count ≤ 96) (hb : before.length < 96)
    (h : before = [] ∨ side.assembly = some ⟨q, count, before⟩) :
    takePart side ([nm, BitVec.ofNat 8 (propCode q), BitVec.ofNat 8 count, BitVec.ofNat 8 before.length] ++ zs.flatMap spanBytes) =
      if before.length + zs.length ≤ count ∧ spansOrdered before.getLast? zs = true then
        if before.length + zs.length = count then ({ side with assembly := none, staged := some ⟨q, before ++ zs⟩ }, rcDeferred)
        else ({ side with assembly := some ⟨q, count, before ++ zs⟩ }, rcOk)
      else ({ side with assembly := none }, rcBadField) := by
  generalize hpl : [nm, BitVec.ofNat 8 (propCode q), BitVec.ofNat 8 count, BitVec.ofNat 8 before.length] ++ zs.flatMap spanBytes = pl
  have hlen : (pl.length - 4) / 4 = zs.length := by
    rw [← hpl, List.length_append, flatMap_spanBytes_length]
    simp
  have hspans : spansOf pl 4 zs.length = zs := by rw [← hpl]; exact spansOf_spanBytes zs hz _
  have h1 : fieldAt pl 1 1 = (BitVec.ofNat 8 (propCode q)).toNat := by rw [← hpl]; exact fieldAt_byte _ _
  have h2 : fieldAt pl 2 1 = count := by rw [← hpl]; exact (fieldAt_byte _ _).trans (byte_toNat (by omega))
  have h3 : fieldAt pl 3 1 = before.length := by rw [← hpl]; exact (fieldAt_byte _ _).trans (byte_toNat (by omega))
  have hpart : partAssembly side pl =
      if before.length + zs.length ≤ count ∧ spansOrdered before.getLast? zs = true then some ⟨q, count, before ++ zs⟩ else none := by
    unfold partAssembly
    rw [h1, h2, h3, hlen, hspans, propOfCode_propCode]
    simp [joinAssembly_next h, hc, hc']
  unfold takePart
  rw [hpart]
  split
  · next hn => rw [if_neg (by simpa using hn)]
  · next a hs =>
    by_cases hif : before.length + zs.length ≤ count ∧ spansOrdered before.getLast? zs = true
    · rw [if_pos hif] at hs ⊢
      obtain rfl := Option.some.inj hs
      simp
    · rw [if_neg hif] at hs
      exact absurd hs (by simp)

/-- Settles O42: a part is read back, then joins the assembly of its map. -/
theorem zoneMapPartsAreAssembled : Obligations.ZoneMapPartsAreAssembled := by
  intro s m name q count before zs p side left hw hk hz1 hz2 hc hc' hb hz hp hjoin
  obtain ⟨nm, hpl, hnm⟩ : ∃ nm : Byte, m.payload = [nm, BitVec.ofNat 8 (propCode q), BitVec.ofNat 8 count,
      BitVec.ofNat 8 before.length] ++ zs.flatMap spanBytes ∧ mapOfCode nm.toNat = some name := by
    cases name
    · exact ⟨0, hp, rfl⟩
    · exact ⟨1, hp, rfl⟩
  have hlen : lenOk 12 m.payload = true := by
    simp only [lenOk, hpl, List.length_append, flatMap_spanBytes_length]
    simp
    omega
  have row : Row s p m 1 (ofKind 12) := Row.of_kind hw hk hlen
  have hname : mapOfCode (fieldAt m.payload 0 1) = some name := by
    rw [hpl, ← hnm]
    exact congrArg mapOfCode (fieldAt_byte _ _)
  have htake : ∀ r : ZoneSide × Byte, takePart side m.payload = r → exec (.writeZoneMap p .whole) s = .next (left r.1 r.2) :=
      fun r hr => by
    cases name with
    | a =>
      refine row.exec_changed (owner := ownWriteZoneMap) (parts := [[r.2]]) (t := s.withAzm { s.azm with a := r.1 }) rfl ?_ (Nat.le_refl 1)
      rw [ownWriteZoneMap, hname, ← hr]
      rfl
    | b =>
      refine row.exec_changed (owner := ownWriteZoneMap) (parts := [[r.2]]) (t := s.withAzm { s.azm with b := r.1 }) rfl ?_ (Nat.le_refl 1)
      rw [ownWriteZoneMap, hname, ← hr]
      rfl
  have hpart := takePart_bytes (side := side) (nm := nm) hz hc hc' hb hjoin
  rw [← hpl] at hpart
  refine ⟨fun ho => ⟨fun hn => ?_, fun hn => ?_⟩, fun hbad => ?_⟩
  · refine htake (_, _) (hpart.trans ?_)
    rw [if_pos ⟨by omega, ho⟩, if_neg (by omega)]
    rfl
  · refine htake (_, _) (hpart.trans ?_)
    rw [if_pos ⟨by omega, ho⟩, if_pos hn]
    rfl
  · refine htake (_, _) (hpart.trans ?_)
    rw [if_neg ?_]
    · rfl
    · rintro ⟨h1, h2⟩
      rcases hbad with e | e
      · rw [h2] at e
        exact absurd e (by decide)
      · omega

end Sys2Proof.Machine
end

section
/-! PROOFS. The record that a WRITE BANK or a SET DESCRIPTOR carries (R81, R82, R204). -/

namespace Sys2Proof.Machine

open Safety

/-- A field behind a number of bytes. -/
theorem fieldAt_behind {k off : Nat} (h : k ≤ off) (n len : Nat) (l : List Byte) :
    fieldAt (bytesBE k n ++ l) off len = fieldAt l (off - k) len := by
  obtain ⟨d, rfl⟩ := Nat.exists_eq_add_of_le h
  rw [fieldAt_bytesBE_past, Nat.add_sub_cancel_left]

/-- A number in `k` bytes reads back modulo its width. -/
theorem fieldAt_bytesBE_mod (k n : Nat) (l : List Byte) : fieldAt (bytesBE k n ++ l) 0 k = n % 256 ^ k := by
  have := fieldAt_of_eq (pl := bytesBE k n ++ l) (a := []) (b := bytesBE k n) (c := l) (off := 0) (len := k) rfl rfl (bytesBE_length k n)
  rw [this, beNat_bytesBE]

/-- A signed number of 16 bits reads back. -/
theorem signedOf_intBE {x : Int} (h1 : -32768 ≤ x) (h2 : x ≤ 32767) : signedOf 16 ((x % 256 ^ 2).toNat % 256 ^ 2) = x := by
  unfold signedOf
  norm_num
  split <;> omega

/-! ### The bytes of a grade bank (R81, R191) -/

/-- A breakpoint in four bytes. -/
def pointBytes (e : Breakpoint) : List Byte := bytesBE 2 e.x ++ bytesBE 2 e.y

theorem pointBytes_length (e : Breakpoint) : (pointBytes e).length = 4 := by simp [pointBytes]

theorem flatMap_pointBytes_length (t : List Breakpoint) : (t.flatMap pointBytes).length = 4 * t.length := by
  induction t with
  | nil => rfl
  | cons e t ih =>
    rw [List.flatMap_cons, List.length_append, pointBytes_length, ih, List.length_cons]
    omega

/-- A table reads back wherever it stands. -/
theorem breakpointsOf_bytes (t : List Breakpoint) (h : ∀ e ∈ t, e.x ≤ 65535 ∧ e.y ≤ 65535) (pre tail : List Byte) :
    breakpointsOf (pre ++ t.flatMap pointBytes ++ tail) pre.length t.length = t := by
  induction t generalizing pre with
  | nil => rfl
  | cons e t ih =>
    obtain ⟨hx, hy⟩ := h e List.mem_cons_self
    have hrest : pre ++ (e :: t).flatMap pointBytes ++ tail = (pre ++ pointBytes e) ++ t.flatMap pointBytes ++ tail := by simp
    have h1 : fieldAt (pre ++ (e :: t).flatMap pointBytes ++ tail) pre.length 2 = e.x := by
      have eq : pre ++ (e :: t).flatMap pointBytes ++ tail =
          pre ++ bytesBE 2 e.x ++ (bytesBE 2 e.y ++ t.flatMap pointBytes ++ tail) := by simp [pointBytes]
      have hlt : e.x < 256 ^ 2 := by omega
      exact (fieldAt_of_eq eq rfl (bytesBE_length _ _)).trans (beNat_bytesBE_of_lt hlt)
    have h2 : fieldAt (pre ++ (e :: t).flatMap pointBytes ++ tail) (pre.length + 2) 2 = e.y := by
      have eq : pre ++ (e :: t).flatMap pointBytes ++ tail =
          (pre ++ bytesBE 2 e.x) ++ bytesBE 2 e.y ++ (t.flatMap pointBytes ++ tail) := by simp [pointBytes]
      have hlt : e.y < 256 ^ 2 := by omega
      exact (fieldAt_of_eq eq (by simp) (bytesBE_length _ _)).trans (beNat_bytesBE_of_lt hlt)
    have h3 := ih (fun y hy => h y (List.mem_cons_of_mem _ hy)) (pre ++ pointBytes e)
    rw [List.length_append, pointBytes_length, ← hrest] at h3
    rw [List.length_cons, breakpointsOf, h1, h2, h3]

/-- The fields of a grade bank before its tables. -/
def bankHead (k : BankNo) (b : GradeBank) : List Byte :=
  bytesBE 1 (k.val + 1) ++ (bytesBE 4 b.width ++ (bytesBE 2 b.n ++ (bytesBE 2 b.guard ++ (bytesBE 2 b.tolerance ++
  (bytesBE 1 b.minSamples ++ bytesBE 2 b.weight)))))

/-- A table with its length. -/
def tableBytes (t : List Breakpoint) : List Byte := bytesBE 1 t.length ++ t.flatMap pointBytes

/-- The fields of a grade bank behind its tables. -/
def bankTail (b : GradeBank) : List Byte :=
  bytesBE 2 b.gain ++ (intBE 2 b.kT ++ (intBE 2 b.tRef ++
  (bytesBE 2 b.limits.bw.high ++ (bytesBE 2 b.limits.bw.low ++ (bytesBE 2 b.limits.moi.high ++ (bytesBE 2 b.limits.moi.low ++
  (bytesBE 2 b.limits.cal.high ++ (bytesBE 2 b.limits.cal.low ++ (bytesBE 2 b.limits.dry.high ++ (bytesBE 2 b.limits.dry.low ++
  (bytesBE 2 b.limits.bw.spread ++ (bytesBE 2 b.limits.moi.spread ++ (bytesBE 2 b.limits.cal.spread ++
  (bytesBE 2 b.limits.dry.spread ++ bytesBE 1 b.settle))))))))))))))

theorem bankBytes_eq (k : BankNo) (b : GradeBank) :
    bankBytes k b = bankHead k b ++ (tableBytes b.betaTable ++ (tableBytes b.irwTable ++ bankTail b)) := by
  have hpoint : pointBytes = fun e => bytesBE 2 e.x ++ bytesBE 2 e.y := rfl
  unfold bankBytes bankHead tableBytes bankTail
  rw [hpoint]
  generalize bytesBE = f
  generalize intBE = g
  simp only [List.append_assoc]

theorem bankHead_length (k : BankNo) (b : GradeBank) : (bankHead k b).length = 14 := by simp [bankHead]

theorem tableBytes_length (t : List Breakpoint) : (tableBytes t).length = 1 + 4 * t.length := by
  rw [tableBytes, List.length_append, bytesBE_length, flatMap_pointBytes_length]

/-- The fields before the tables. -/
theorem bankHead_fields (k : BankNo) (b : GradeBank) (rest : List Byte) :
    fieldAt (bankHead k b ++ rest) 0 1 = k.val + 1 ∧ fieldAt (bankHead k b ++ rest) 1 4 = b.width % 256 ^ 4 ∧
    fieldAt (bankHead k b ++ rest) 5 2 = b.n % 256 ^ 2 ∧ fieldAt (bankHead k b ++ rest) 7 2 = b.guard % 256 ^ 2 ∧
    fieldAt (bankHead k b ++ rest) 9 2 = b.tolerance % 256 ^ 2 ∧
    fieldAt (bankHead k b ++ rest) 11 1 = b.minSamples % 256 ^ 1 ∧ fieldAt (bankHead k b ++ rest) 12 2 = b.weight % 256 ^ 2 := by
  have hk : (k.val + 1) % 256 ^ 1 = k.val + 1 := Nat.mod_eq_of_lt (by omega)
  simp only [bankHead, List.append_assoc]
  refine ⟨?_, ?_, ?_, ?_, ?_, ?_, ?_⟩
  · rw [fieldAt_bytesBE_mod, hk]
  all_goals simp [fieldAt_behind, fieldAt_bytesBE_mod]

/-- A number of `k` bytes that ends a payload. -/
theorem fieldAt_last (k n : Nat) : fieldAt (bytesBE k n) 0 k = n % 256 ^ k := by
  have := fieldAt_bytesBE_mod k n []
  rwa [List.append_nil] at this

/-- The fields behind the tables. -/
theorem bankTail_fields (b : GradeBank) :
    fieldAt (bankTail b) 0 2 = b.gain % 256 ^ 2 ∧ fieldAt (bankTail b) 2 2 = (b.kT % 256 ^ 2).toNat % 256 ^ 2 ∧
    fieldAt (bankTail b) 4 2 = (b.tRef % 256 ^ 2).toNat % 256 ^ 2 ∧ fieldAt (bankTail b) 30 1 = b.settle % 256 ^ 1 := by
  simp only [bankTail, intBE]
  refine ⟨?_, ?_, ?_, ?_⟩
  · rw [fieldAt_bytesBE_mod]
  all_goals simp [fieldAt_behind, fieldAt_bytesBE_mod, fieldAt_last]

/-- The limits behind the tables, property by property. -/
theorem bankTail_limits (b : GradeBank) (h : ∀ q, (b.limits.get q).high < 65536 ∧ (b.limits.get q).low < 65536 ∧
    (b.limits.get q).spread < 65536) :
    limitsAt (bankTail b) 6 0 = b.limits.bw ∧ limitsAt (bankTail b) 6 1 = b.limits.moi ∧
    limitsAt (bankTail b) 6 2 = b.limits.cal ∧ limitsAt (bankTail b) 6 3 = b.limits.dry := by
  obtain ⟨b1, b2, b3⟩ := h .bw
  obtain ⟨m1, m2, m3⟩ := h .moi
  obtain ⟨c1, c2, c3⟩ := h .cal
  obtain ⟨d1, d2, d3⟩ := h .dry
  simp only [PerProp.get] at *
  simp only [bankTail, intBE, limitsAt]
  refine ⟨?_, ?_, ?_, ?_⟩ <;>
    simp [fieldAt_behind, fieldAt_bytesBE_mod, Nat.mod_eq_of_lt, *]

/-- What stands before the fields behind the tables. -/
def bankFront (k : BankNo) (b : GradeBank) : List Byte := bankHead k b ++ (tableBytes b.betaTable ++ tableBytes b.irwTable)

theorem bankFront_length (k : BankNo) (b : GradeBank) :
    (bankFront k b).length = 15 + 4 * b.betaTable.length + 1 + 4 * b.irwTable.length := by
  simp only [bankFront, List.length_append, bankHead_length, tableBytes_length]
  omega

/-- R191: the two tables of a WRITE BANK's payload, and where its last fields begin. -/
theorem bankBytes_tables (k : BankNo) {b : GradeBank} (h1 : b.betaTable.length ≤ 16) (h2 : b.irwTable.length ≤ 16) :
    let pl := bankBytes k b
    fieldAt pl 14 1 = b.betaTable.length ∧ fieldAt pl (15 + 4 * b.betaTable.length) 1 = b.irwTable.length ∧
    pl = bankFront k b ++ bankTail b := by
  intro pl
  have hpl : pl = bankHead k b ++ (tableBytes b.betaTable ++ (tableBytes b.irwTable ++ bankTail b)) := bankBytes_eq k b
  refine ⟨?_, ?_, ?_⟩
  · have e : pl = bankHead k b ++ bytesBE 1 b.betaTable.length ++
        (b.betaTable.flatMap pointBytes ++ (tableBytes b.irwTable ++ bankTail b)) := by
      rw [hpl, tableBytes]
      simp only [List.append_assoc]
    have hlt : b.betaTable.length < 256 ^ 1 := by omega
    exact (fieldAt_of_eq e (bankHead_length k b) (bytesBE_length _ _)).trans (beNat_bytesBE_of_lt hlt)
  · have e : pl = (bankHead k b ++ tableBytes b.betaTable) ++ bytesBE 1 b.irwTable.length ++
        (b.irwTable.flatMap pointBytes ++ bankTail b) := by
      rw [hpl, tableBytes, tableBytes]
      simp only [List.append_assoc]
    have hlt : b.irwTable.length < 256 ^ 1 := by omega
    refine (fieldAt_of_eq e ?_ (bytesBE_length _ _)).trans (beNat_bytesBE_of_lt hlt)
    rw [List.length_append, bankHead_length, tableBytes_length]
    omega
  · rw [hpl, bankFront]
    simp only [List.append_assoc]

theorem bankBytes_points (k : BankNo) {b : GradeBank} (h : ∀ e ∈ b.betaTable ++ b.irwTable, e.x ≤ 65535 ∧ e.y ≤ 65535) :
    breakpointsOf (bankBytes k b) 15 b.betaTable.length = b.betaTable ∧
    breakpointsOf (bankBytes k b) (15 + 4 * b.betaTable.length + 1) b.irwTable.length = b.irwTable := by
  have hpl := bankBytes_eq k b
  constructor
  · have e : bankBytes k b = (bankHead k b ++ bytesBE 1 b.betaTable.length) ++ b.betaTable.flatMap pointBytes ++
        (tableBytes b.irwTable ++ bankTail b) := by
      rw [hpl, tableBytes]
      simp only [List.append_assoc]
    have hlen : (bankHead k b ++ bytesBE 1 b.betaTable.length).length = 15 := by
      rw [List.length_append, bankHead_length, bytesBE_length]
    have := breakpointsOf_bytes b.betaTable (fun e he => h e (List.mem_append_left _ he))
      (bankHead k b ++ bytesBE 1 b.betaTable.length) (tableBytes b.irwTable ++ bankTail b)
    rwa [← e, hlen] at this
  · have e : bankBytes k b = (bankHead k b ++ (tableBytes b.betaTable ++ bytesBE 1 b.irwTable.length)) ++
        b.irwTable.flatMap pointBytes ++ bankTail b := by
      rw [hpl, tableBytes, tableBytes]
      simp only [List.append_assoc]
    have hlen : (bankHead k b ++ (tableBytes b.betaTable ++ bytesBE 1 b.irwTable.length)).length =
        15 + 4 * b.betaTable.length + 1 := by
      rw [List.length_append, List.length_append, bankHead_length, tableBytes_length, bytesBE_length]
      omega
    have := breakpointsOf_bytes b.irwTable (fun e he => h e (List.mem_append_right _ he))
      (bankHead k b ++ (tableBytes b.betaTable ++ bytesBE 1 b.irwTable.length)) (bankTail b)
    rwa [← e, hlen] at this

/-- The fields of the payload that stand before the tables. -/
theorem bankFieldsOf_head (k : BankNo) (b : GradeBank) : (bankFieldsOf (bankBytes k b)).width = b.width % 256 ^ 4 ∧
    (bankFieldsOf (bankBytes k b)).n = b.n % 256 ^ 2 ∧ (bankFieldsOf (bankBytes k b)).guard = b.guard % 256 ^ 2 ∧
    (bankFieldsOf (bankBytes k b)).tolerance = b.tolerance % 256 ^ 2 ∧
    (bankFieldsOf (bankBytes k b)).minSamples = b.minSamples % 256 ^ 1 ∧
    (bankFieldsOf (bankBytes k b)).weight = b.weight % 256 ^ 2 := by
  rw [bankBytes_eq]
  obtain ⟨_, h⟩ := bankHead_fields k b (tableBytes b.betaTable ++ (tableBytes b.irwTable ++ bankTail b))
  exact h

theorem propMax_le (q : Prop4) : propMax q ≤ 65535 := by cases q <;> decide

theorem limitsOk_bounds {l : Limits} {q : Prop4} (h : limitsOk l q = true) : l.high < 65536 ∧ l.low < 65536 := by
  simp only [limitsOk, Bool.and_eq_true, decide_eq_true_eq] at h
  have := propMax_le q
  omega

/-- R81: a bank in its ranges has fields that fit their bytes. -/
theorem bankOk_bounds {b : GradeBank} (h : bankOk b = true) : b.width < 256 ^ 4 ∧ b.n < 256 ^ 2 ∧ b.guard < 256 ^ 2 ∧
    b.tolerance < 256 ^ 2 ∧ b.minSamples < 256 ^ 1 ∧ b.weight < 256 ^ 2 ∧ b.gain < 256 ^ 2 ∧ -32768 ≤ b.tRef ∧
    b.tRef ≤ 32767 ∧ b.settle < 256 ^ 1 ∧ ∀ q, (b.limits.get q).high < 65536 ∧ (b.limits.get q).low < 65536 := by
  simp only [bankOk, Bool.and_eq_true, decide_eq_true_eq] at h
  obtain ⟨⟨⟨⟨⟨_, hbw⟩, hmoi⟩, hcal⟩, hdry⟩, _⟩ := h
  refine ⟨by omega, by omega, by omega, by omega, by omega, by omega, by omega, by omega, by omega, by omega, fun q => ?_⟩
  cases q
  · exact limitsOk_bounds hbw
  · exact limitsOk_bounds hmoi
  · exact limitsOk_bounds hcal
  · exact limitsOk_bounds hdry

theorem gradeBank_ext {g b : GradeBank} (h1 : g.width = b.width) (h2 : g.n = b.n) (h3 : g.guard = b.guard)
    (h4 : g.tolerance = b.tolerance) (h5 : g.minSamples = b.minSamples) (h6 : g.weight = b.weight)
    (h7 : g.betaTable = b.betaTable) (h8 : g.irwTable = b.irwTable) (h9 : g.gain = b.gain) (h10 : g.kT = b.kT)
    (h11 : g.tRef = b.tRef) (h12 : g.limits = b.limits) (h13 : g.settle = b.settle) : g = b := by
  cases g
  cases b
  simp_all

/-- R191: the fields of a WRITE BANK by the lengths of its tables. -/
theorem bankFieldsOf_tables {pl : List Byte} {nB nI : Nat} (h1 : fieldAt pl 14 1 = nB) (h2 : fieldAt pl (15 + 4 * nB) 1 = nI) :
    bankFieldsOf pl =
      let off := 15 + 4 * nB + 1 + 4 * nI
      { width := fieldAt pl 1 4
        n := fieldAt pl 5 2
        guard := fieldAt pl 7 2
        tolerance := fieldAt pl 9 2
        minSamples := fieldAt pl 11 1
        weight := fieldAt pl 12 2
        betaTable := breakpointsOf pl 15 nB
        irwTable := breakpointsOf pl (15 + 4 * nB + 1) nI
        gain := fieldAt pl off 2
        kT := signedOf 16 (fieldAt pl (off + 2) 2)
        tRef := signedOf 16 (fieldAt pl (off + 4) 2)
        limits := ⟨limitsAt pl (off + 6) 0, limitsAt pl (off + 6) 1, limitsAt pl (off + 6) 2, limitsAt pl (off + 6) 3⟩
        settle := fieldAt pl (off + 30) 1 } := by
  subst h1 h2
  rfl

/-- R191: a bank in its ranges is the one its payload carries. -/
theorem bankFieldsOf_bankBytes (k : BankNo) {b : GradeBank} (h1 : b.betaTable.length ≤ 16) (h2 : b.irwTable.length ≤ 16)
    (hok : bankOk b = true) (hfit : bankFits b) : bankFieldsOf (bankBytes k b) = b := by
  obtain ⟨hpts, hk1, hk2, hspread⟩ := hfit
  obtain ⟨wf, nf, gf, tf, mf, wtf, gaf, t1, t2, sf, hlim⟩ := bankOk_bounds hok
  obtain ⟨ew, en, eg, et, em, ewt⟩ := bankFieldsOf_head k b
  obtain ⟨hnB, hnI, hsplit⟩ := bankBytes_tables k h1 h2
  obtain ⟨hp1, hp2⟩ := bankBytes_points k hpts
  obtain ⟨tg, tk, tr, ts⟩ := bankTail_fields b
  obtain ⟨lb, lm, lc, ld⟩ := bankTail_limits b fun q => ⟨(hlim q).1, (hlim q).2, by have := hspread q; omega⟩
  have hback : ∀ j len, fieldAt (bankBytes k b) (15 + 4 * b.betaTable.length + 1 + 4 * b.irwTable.length + j) len =
      fieldAt (bankTail b) j len := fun j len => by
    rw [hsplit, ← bankFront_length k b, fieldAt_past]
  generalize bankBytes k b = pl at *
  have hlimits : ∀ i, limitsAt pl (15 + 4 * b.betaTable.length + 1 + 4 * b.irwTable.length + 6) i =
      limitsAt (bankTail b) 6 i := fun i => by
    simp only [limitsAt, ← hback, Nat.add_assoc]
  have hfields := bankFieldsOf_tables hnB hnI
  rw [hfields] at ew en eg et em ewt ⊢
  refine gradeBank_ext (ew.trans (Nat.mod_eq_of_lt wf)) (en.trans (Nat.mod_eq_of_lt nf)) (eg.trans (Nat.mod_eq_of_lt gf))
    (et.trans (Nat.mod_eq_of_lt tf)) (em.trans (Nat.mod_eq_of_lt mf)) (ewt.trans (Nat.mod_eq_of_lt wtf)) hp1 hp2
    ((hback 0 2).trans (tg.trans (Nat.mod_eq_of_lt gaf))) ?_ ?_ ?_ ?_
  · show signedOf 16 (fieldAt pl _ 2) = _
    rw [hback, tk, signedOf_intBE hk1 hk2]
  · show signedOf 16 (fieldAt pl _ 2) = _
    rw [hback, tr, signedOf_intBE t1 t2]
  · show (⟨limitsAt pl _ 0, limitsAt pl _ 1, limitsAt pl _ 2, limitsAt pl _ 3⟩ : PerProp Limits) = _
    rw [hlimits, hlimits, hlimits, hlimits, lb, lm, lc, ld]
  · show fieldAt pl _ 1 = _
    rw [hback, ts, Nat.mod_eq_of_lt sf]

/-- R191: the length the port asks of a WRITE BANK. -/
theorem lenOk_bankBytes (k : BankNo) {b : GradeBank} (h1 : b.betaTable.length ≤ 16) (h2 : b.irwTable.length ≤ 16) :
    lenOk 9 (bankBytes k b) = true := by
  obtain ⟨hnB, hnI, hsplit⟩ := bankBytes_tables k h1 h2
  have hlen : (bankBytes k b).length = 47 + 4 * (b.betaTable.length + b.irwTable.length) := by
    rw [hsplit, List.length_append, bankFront_length]
    simp [bankTail, intBE]
    omega
  simp only [lenOk, hnB, hnI, hlen, beq_self_eq_true]

/-- R82.2: what a bank in use is. -/
theorem bankInUse_iff {r : Rbs} {k : BankNo} : bankInUse r k = true ↔ r.active = some k ∨ ∃ q, r.pending = some (k, q) := by
  simp only [bankInUse, Bool.or_eq_true, beq_iff_eq, Option.map_eq_some_iff, Prod.exists]
  exact or_congr_right ⟨fun ⟨_, q, h, e⟩ => ⟨q, e ▸ h⟩, fun ⟨q, h⟩ => ⟨k, q, h, rfl⟩⟩

theorem bankOfCode_val (k : BankNo) : bankOfCode (k.val + 1) = some k := by
  have : 1 ≤ k.val + 1 ∧ k.val + 1 ≤ 7 := by omega
  simp [bankOfCode, this]

/-- R81: a width, a bin count or a tolerance out of its range. -/
theorem bankOk_false {b : GradeBank} (h : b.width < 1000 ∨ 120000 < b.width ∨ b.n < 16 ∨ 600 < b.n ∨ b.tolerance < 10 ∨
    5000 < b.tolerance) : bankOk b = false := by
  rw [← Bool.not_eq_true]
  simp only [bankOk, Bool.and_eq_true, decide_eq_true_eq]
  omega

/-- R82: WRITE BANK on the payload of a bank. -/
theorem writeBank_bytes (s : State) {p : Port} {m : InMsg} (hw : waits s p m 1) {k : BankNo} {b : GradeBank} (hp : p = .quality)
    (hk : m.kind = 9) (hpl : m.payload = bankBytes k b) (h1 : b.betaTable.length ≤ 16) (h2 : b.irwTable.length ≤ 16) :
    let inUse := s.rbs.active = some k ∨ ∃ q, s.rbs.pending = some (k, q)
    (inUse → exec (.writeBank p .whole) s = .next (answered s p m [[0x13]])) ∧
    (¬inUse → bankOk b = true → bankFits b → exec (.writeBank p .whole) s = .next { answered s p m [[0x00]] with
      rbs := { s.rbs with banks := s.rbs.banks.set k (some b) } }) ∧
    (¬inUse → bankFits b → b.tolerance < 65536 → b.n < 65536 → b.width < 2 ^ 32 →
      (b.width < 1000 ∨ 120000 < b.width ∨ b.n < 16 ∨ 600 < b.n ∨ b.tolerance < 10 ∨ 5000 < b.tolerance) →
      exec (.writeBank p .whole) s = .next (answered s p m [[0x12]])) := by
  intro inUse
  have row : Row s p m 1 (ofKind 9) := Row.of_kind hw hk (by rw [hpl]; exact lenOk_bankBytes k h1 h2) (by rw [hp]; rfl)
  have hno : bankOfCode (fieldAt m.payload 0 1) = some k := by
    obtain ⟨h, _⟩ := bankHead_fields k b (tableBytes b.betaTable ++ (tableBytes b.irwTable ++ bankTail b))
    rw [hpl, bankBytes_eq, h, bankOfCode_val]
  have hown : ∀ u : State, u.rbs = s.rbs → ownWriteBank p m u = if bankInUse s.rbs k then code rcBankInUse u
      else if !bankOk (bankFieldsOf (bankBytes k b)) then code rcBadField u
      else code rcOk (u.withRbs { s.rbs with banks := s.rbs.banks.set k (some (bankFieldsOf (bankBytes k b))) }) := fun u hu => by
    rw [ownWriteBank, hno, ← hpl, ← hu]
  refine ⟨fun hin => ?_, fun hin hok hfit => ?_, fun hin hfit ht hn hwd hbad => ?_⟩
  · exact row.exec_answered (owner := ownWriteBank) rfl ((hown (s.updPort p (takenPort m)) rfl).trans (if_pos (bankInUse_iff.2 hin)))
  · refine row.exec_changed (owner := ownWriteBank)
      (t := s.withRbs { s.rbs with banks := s.rbs.banks.set k (some b) }) rfl ((hown (s.updPort p (takenPort m)) rfl).trans ?_)
    rw [if_neg (fun h => hin (bankInUse_iff.1 h)), bankFieldsOf_bankBytes k h1 h2 hok hfit, hok]
    rfl
  · refine row.exec_answered (owner := ownWriteBank) rfl ((hown (s.updPort p (takenPort m)) rfl).trans ?_)
    obtain ⟨ew, en, _, et, _⟩ := bankFieldsOf_head k b
    have hw' : (bankFieldsOf (bankBytes k b)).width = b.width := ew.trans (Nat.mod_eq_of_lt hwd)
    have hn' : (bankFieldsOf (bankBytes k b)).n = b.n := en.trans (Nat.mod_eq_of_lt hn)
    have ht' : (bankFieldsOf (bankBytes k b)).tolerance = b.tolerance := et.trans (Nat.mod_eq_of_lt ht)
    rw [if_neg (fun h => hin (bankInUse_iff.1 h)), bankOk_false (by rw [hw', hn', ht']; exact hbad)]
    rfl

/-! ### SET DESCRIPTOR (R204) -/

/-- R191: the code of a descriptor's form. -/
def descFormCode : DescForm → Byte
  | .summary => 0
  | .zoneA => 1
  | .zoneB => 2
  | .profile => 3

theorem descFormOfCode_code (f : DescForm) : descFormOfCode (descFormCode f).toNat = some f := by cases f <;> rfl

theorem flagOfCode_flag (b : Bool) : flagOfCode ((if b then 1 else 0 : Byte)).toNat = some b := by cases b <;> rfl

/-- R204: a descriptor whose index, flag and form are known. -/
theorem descriptorOf_head (i : Fin 4) (active : Bool) (form : DescForm) (rest : List Byte) :
    let pl := [BitVec.ofNat 8 i.val, if active then 1 else 0, descFormCode form] ++ rest
    descriptorOf pl = match form with
      | .profile => (do
        let prop ← propOfCode (fieldAt pl 3 1)
        let pform ← formOfCode (fieldAt pl 4 1)
        let enc ← encOfCode (fieldAt pl 5 1)
        let shift := fieldAt pl 6 1
        let first := fieldAt pl 7 2
        let last := fieldAt pl 9 2
        if shift ≤ 7 ∧ first ≤ last ∧ last - first + 1 ≤ pushBins pform enc
        then some (i, ⟨active, .profile, prop, pform, enc, shift, first, last, fieldAt pl 11 1, 0⟩) else none)
      | f => some (i, ⟨active, f, .bw, .raw, .wide, 0, 0, 0, fieldAt pl 11 1, 0⟩) := by
  intro pl
  have h0 : fieldAt pl 0 1 = i.val := (fieldAt_byte _ _).trans (byte_toNat (by omega))
  have h1 : flagOfCode (fieldAt pl 1 1) = some active := (congrArg flagOfCode (fieldAt_byte _ _)).trans (flagOfCode_flag active)
  have h2 : descFormOfCode (fieldAt pl 2 1) = some form :=
    (congrArg descFormOfCode (fieldAt_byte _ _)).trans (descFormOfCode_code form)
  unfold descriptorOf
  rw [h1, h2]
  simp only [Option.bind_eq_bind, Option.bind_some, h0, i.isLt, dif_pos] <;> cases form <;> rfl

theorem descriptorOf_index {c : Byte} {rest : List Byte} (h : 4 ≤ c.toNat) : descriptorOf (c :: rest) = none := by
  have h0 : ¬ fieldAt (c :: rest) 0 1 < 4 := by rw [fieldAt_byte]; omega
  unfold descriptorOf
  simp only [dif_neg h0]
  cases flagOfCode (fieldAt (c :: rest) 1 1) with
  | none => rfl
  | some b => cases descFormOfCode (fieldAt (c :: rest) 2 1) <;> rfl

/-- R204: a descriptor stored, or refused. -/
theorem setDescriptor_bytes {s : State} {p : Port} {m : InMsg} (hw : waits s p m 1) (hk : m.kind = 25)
    (hl : m.payload.length = 12) :
    (∀ (i : Fin 4) (d : Descriptor), descriptorOf m.payload = some (i, d) → exec (.setDescriptor p .whole) s = .next { s with
      ports := s.ports.set p { s.ports.get p with
        inbound := (s.ports.get p).inbound.tail
        outbound := (s.ports.get p).outbound ++ [replyTo m [0x00]]
        descriptors := (s.ports.get p).descriptors.set i d } }) ∧
    (descriptorOf m.payload = none → exec (.setDescriptor p .whole) s = .next (answered s p m [[0x12]])) := by
  have row : Row s p m 1 (ofKind 25) := Row.of_kind hw hk (by simp [lenOk, hl]) (by cases p <;> rfl)
  refine ⟨fun i d hd => ?_, fun hd => ?_⟩
  · have hown : ∀ u, ownSetDescriptor p m u =
        code rcOk (u.updPort p (fun x => { x with descriptors := x.descriptors.set i d })) := fun u => by
      rw [ownSetDescriptor, hd]
    rw [row.exec_port (owner := ownSetDescriptor) (c := .setDescriptor p .whole) (t := s) rfl
      (fun x => { x with descriptors := x.descriptors.set i d }) (hown (s.updPort p (takenPort m))) (Nat.le_refl 1)]
    have hfree : (none : Option Handling) = (s.ports.get p).handling := hw.2.2.1.symm
    simp only [takenPort, hfree, List.drop_one]
    rfl
  · refine row.exec_answered (owner := ownSetDescriptor) rfl ?_
    rw [ownSetDescriptor, hd]
    rfl

/-- Settles O41: what the payload carries, then the store. -/
theorem banksAndDescriptorsAreStored : Obligations.BanksAndDescriptorsAreStored := by
  intro s p m hw ps
  refine ⟨fun k b hp hk hpl h1 h2 => writeBank_bytes s hw hp hk hpl h1 h2, fun hk i active remaining hr => ?_,
    fun hk c rest hpl hlen hc => ?_⟩
  · intro head store
    refine ⟨fun form unused hform hun hpl => ?_, fun q f e shift first last hs hf hl hpl => ?_⟩
    · have hpl' : m.payload = [BitVec.ofNat 8 i.val, if active then 1 else 0, descFormCode form] ++
          (unused ++ [BitVec.ofNat 8 remaining]) := by
        rw [hpl, List.append_assoc]
        cases form <;> rfl
      have h11 : fieldAt m.payload 11 1 = remaining := by
        have := fieldAt_past ([BitVec.ofNat 8 i.val, if active then 1 else 0, descFormCode form] ++ unused)
          [BitVec.ofNat 8 remaining] 0 1
        rw [List.append_assoc, ← hpl', List.length_append, hun] at this
        exact this.trans ((fieldAt_byte _ _).trans (byte_toNat hr))
      have hd : descriptorOf m.payload = some (i, ⟨active, form, .bw, .raw, .wide, 0, 0, 0, remaining, 0⟩) := by
        rw [hpl', descriptorOf_head i active form, ← hpl', h11]
        cases form with
        | profile => exact absurd rfl hform
        | summary => rfl
        | zoneA => rfl
        | zoneB => rfl
      exact (setDescriptor_bytes hw hk (by rw [hpl']; simp [hun])).1 i _ hd
    · intro most
      have hpl' : m.payload = [BitVec.ofNat 8 i.val, if active then 1 else 0, descFormCode .profile] ++
          ([BitVec.ofNat 8 (propCode q), BitVec.ofNat 8 (formCode f), BitVec.ofNat 8 (encCode e), BitVec.ofNat 8 shift] ++
            bytesBE 2 first ++ bytesBE 2 last ++ [BitVec.ofNat 8 remaining]) := by
        rw [hpl]
        simp only [head, descFormCode, List.append_assoc]
      have h3 : propOfCode (fieldAt m.payload 3 1) = some q := by
        rw [hpl']
        exact (congrArg propOfCode (fieldAt_byte _ _)).trans (propOfCode_propCode q)
      have h4 : formOfCode (fieldAt m.payload 4 1) = some f := by
        rw [hpl']
        exact (congrArg formOfCode (fieldAt_byte _ _)).trans (formOfCode_formCode f)
      have h5 : encOfCode (fieldAt m.payload 5 1) = some e := by
        rw [hpl']
        exact (congrArg encOfCode (fieldAt_byte _ _)).trans (encOfCode_encCode e)
      have h6 : fieldAt m.payload 6 1 = shift := by
        rw [hpl']
        exact (fieldAt_byte _ _).trans (byte_toNat (by omega))
      have hrest : m.payload = head 3 ++ [BitVec.ofNat 8 (propCode q), BitVec.ofNat 8 (formCode f), BitVec.ofNat 8 (encCode e),
          BitVec.ofNat 8 shift] ++ bytesBE 2 first ++ (bytesBE 2 last ++ [BitVec.ofNat 8 remaining]) := by
        rw [hpl, List.append_assoc]
      have h7 : fieldAt m.payload 7 2 = first :=
        (fieldAt_of_eq hrest (by simp [head]) (bytesBE_length 2 first)).trans (beNat_bytesBE_of_lt hf)
      have h9 : fieldAt m.payload 9 2 = last :=
        (fieldAt_of_eq hpl (by simp [head]) (bytesBE_length 2 last)).trans (beNat_bytesBE_of_lt hl)
      have h11 : fieldAt m.payload 11 1 = remaining :=
        (fieldAt_of_eq (hpl.trans (List.append_nil _).symm) (by simp [head]) rfl).trans
          ((by simp [beNat] : beNat [BitVec.ofNat 8 remaining] = (BitVec.ofNat 8 remaining).toNat).trans (byte_toNat hr))
      have hmost : most = pushBins f e := by cases f <;> cases e <;> rfl
      have hd : descriptorOf m.payload = if shift ≤ 7 ∧ first ≤ last ∧ last - first + 1 ≤ most then
          some (i, ⟨active, .profile, q, f, e, shift, first, last, remaining, 0⟩) else none := by
        have := descriptorOf_head i active .profile ([BitVec.ofNat 8 (propCode q), BitVec.ofNat 8 (formCode f),
          BitVec.ofNat 8 (encCode e), BitVec.ofNat 8 shift] ++ bytesBE 2 first ++ bytesBE 2 last ++ [BitVec.ofNat 8 remaining])
        rw [← hpl'] at this
        dsimp only at this
        rw [h3, h4, h5, h6, h7, h9, h11] at this
        rw [hmost]
        exact this
      have hlen : m.payload.length = 12 := by rw [hpl']; simp
      refine ⟨fun h1 h2 => ?_, fun hbad => ?_⟩
      · exact (setDescriptor_bytes hw hk hlen).1 i _ (hd.trans (if_pos ⟨hs, h1, by omega⟩))
      · exact (setDescriptor_bytes hw hk hlen).2 (hd.trans (if_neg (by omega)))
  · exact (setDescriptor_bytes hw hk (by rw [hpl]; simp [hlen])).2 (by rw [hpl]; exact descriptorOf_index hc)

end Sys2Proof.Machine
end

section
/-! PROOFS. SELECT GRADE (R84 … R87), the acknowledgement of an alarm (R158, R170, R171) and the machine's requests (R144 … R153). -/

namespace Sys2Proof.Machine

open Safety

/-! ### SELECT GRADE -/

theorem returnAlarms_over (is : List PointNo) {i : PointNo} (s : State)
    (h : i ∈ is ∨ (s.alt.points[i]).state ∈ [PointState.normal, .returnUnack]) :
    ((s.returnAlarms is).alt.points[i]).state ∈ [PointState.normal, .returnUnack] := by
  unfold State.returnAlarms
  induction is generalizing s with
  | nil =>
    rcases h with h | h
    · exact absurd h (by simp)
    · exact h
  | cons j js ih =>
    refine ih (s.returnAlarm j) ?_
    by_cases e : i = j
    · subst e
      exact .inr (State.returnAlarm_over s i)
    · rcases h with h | h
      · rcases List.mem_cons.1 h with k | k
        · exact absurd k e
        · exact .inl k
      · exact .inr (by rw [State.returnAlarm_other s e]; exact h)

theorem mem_limitPoints (i : PointNo) (h1 : 9 ≤ i.val) (h2 : i.val ≤ 20) : i ∈ limitPoints := by
  obtain ⟨n, hn⟩ := i
  simp only [limitPoints, List.mem_cons, Fin.ext_iff, List.not_mem_nil, or_false]
  simp only at h1 h2
  show n = 9 ∨ n = 10 ∨ n = 11 ∨ n = 12 ∨ n = 13 ∨ n = 14 ∨ n = 15 ∨ n = 16 ∨ n = 17 ∨ n = 18 ∨ n = 19 ∨ n = 20
  omega

/-- R87: what a grade applied leaves. -/
theorem applyGrade_fields {k : BankNo} {s : State} {b : GradeBank} (h : s.rbs.banks[k] = some b) :
    let t := applyGrade k s
    t.rbs = { s.rbs with active := some k, settle := b.settle } ∧
    (∀ old, s.rbs.activeBank = some old → old.n = b.n → t.pen.filter = s.pen.filter) ∧
    ((∀ old, s.rbs.activeBank = some old → old.n ≠ b.n) →
      t.pen.filter = ⟨some b.n, PerProp.const (List.replicate b.n none)⟩) ∧
    (∀ i : PointNo, 9 ≤ i.val → i.val ≤ 20 → (t.alt.points[i]).state ∈ [PointState.normal, .returnUnack]) ∧
    t.cmu = s.cmu := by
  intro t
  have hfilter : t.pen.filter =
      if s.rbs.activeBank.elim false (fun old => old.n == b.n) then s.pen.filter else filterEmpty b.n := by
    simp only [t, applyGrade, h, State.returnAlarms_pen]
    rfl
  refine ⟨by simp only [t, applyGrade, h, State.returnAlarms_rbs]; rfl, fun old ho hn => ?_, fun hn => ?_, fun i h1 h2 => ?_, ?_⟩
  · rw [hfilter, ho]
    simp [hn]
  · rw [hfilter]
    cases ho : s.rbs.activeBank with
    | none => rfl
    | some old => simp [hn old ho, filterEmpty]
  · simp only [t, applyGrade, h]
    exact returnAlarms_over limitPoints _ (.inl (mem_limitPoints i h1 h2))
  · simp only [t, applyGrade, h, State.returnAlarms_cmu]
    rfl

/-- R85, R196: the requester of a replaced grade is told, or loses the notice. -/
theorem gradeNotice_told (k : BankNo) (p : Port) {j : BankNo} {q : Port} (u : State) :
    let t := gradeNotice k p (some (j, q)) u
    let occupied := (u.ports.get q).outbound.length + (u.ports.get q).reserved
    ((u.ports.get q).silent = false → occupied < 32 → (t.ports.get q).outbound = (u.ports.get q).outbound ++
      [⟨.notice, 0x44, 0, [BitVec.ofNat 8 (k.val + 1), BitVec.ofNat 8 (portCode p)]⟩]) ∧
    ((u.ports.get q).silent = false → 32 ≤ occupied →
      t.ports.get q = { u.ports.get q with lost := min 65535 ((u.ports.get q).lost + 1) }) ∧
    ((u.ports.get q).silent = true → t.ports.get q = u.ports.get q) := by
  intro t occupied
  have ht : t.ports.get q = (u.ports.get q).notice kGrade (gradePayload k p) := State.notify_get_same u _ _ q
  rw [ht]
  obtain ⟨hs, e⟩ | ⟨hs, hr, e⟩ | ⟨hs, hr, e⟩ := (u.ports.get q).notice_cases kGrade (gradePayload k p)
  all_goals rw [e]
  · exact ⟨fun h => by simp [hs] at h, fun h => by simp [hs] at h, fun _ => rfl⟩
  · refine ⟨fun _ _ => ?_, fun _ h => absurd hr (Nat.not_lt.2 h), fun h => by simp [hs] at h⟩
    simp [gradePayload, bytesBE, kGrade]
  · exact ⟨fun _ h => absurd h (Nat.not_lt.2 hr), fun _ _ => rfl, fun h => by simp [hs] at h⟩

theorem gradeAtOnce_iff (c : Cmu) : gradeAtOnce c = true ↔
    c.state ∈ [CarriageState.parked, .fixed, .unhomed, .fault] ∨ (c.state = .held ∧ c.turnOwed = true) := by
  unfold gradeAtOnce
  cases c.state <;> simp

theorem bankOfCode_byte (k : BankNo) : bankOfCode (BitVec.ofNat 8 (k.val + 1)).toNat = some k := by
  rw [byte_toNat (by omega), bankOfCode_val]

theorem bankOfCode_none {c : Byte} (h : c = 0 ∨ 8 ≤ c.toNat) : bankOfCode c.toNat = none := by
  unfold bankOfCode
  refine dif_neg ?_
  rcases h with e | e
  · simp [e]
  · omega

/-- Settles O44: the branches of SELECT GRADE. -/
theorem gradesAreSelected : Obligations.GradesAreSelected := by
  intro s p m hw hk hp
  have row : m.payload.length = 1 → Row s p m 1 (ofKind 11) := fun hl =>
    Row.of_kind hw hk (by simp [lenOk, hl]) (by cases p; rfl; rfl; exact absurd rfl hp)
  refine ⟨fun c hpl hc => ?_, fun k hpl => ?_⟩
  · refine (row (by rw [hpl]; rfl)).exec_answered (owner := ownSelectGrade) rfl ?_
    rw [ownSelectGrade, hpl, fieldAt_byte, bankOfCode_none hc]
    rfl
  · intro stands told
    have row := row (by rw [hpl]; rfl)
    generalize hu : s.updPort p (takenPort m) = u
    have hrbs : u.rbs = s.rbs := by rw [← hu]; rfl
    have hcmu : u.cmu = s.cmu := by rw [← hu]; rfl
    have hno : bankOfCode (fieldAt m.payload 0 1) = some k := by rw [hpl, fieldAt_byte, bankOfCode_byte]
    have hown : ownSelectGrade p m u = if (s.rbs.banks[k]).isNone then code rcNoSuch u
        else if s.rbs.active = some k then code rcOk (gradeNotice k p s.rbs.pending (u.withRbs { s.rbs with pending := none }))
        else if s.rbs.active.isNone || gradeAtOnce s.cmu then code rcOk (applyGrade k u) else code rcDeferred (pendGrade k p u) := by
      rw [ownSelectGrade, hno, ← hrbs, ← hcmu]
    have htold : ∀ (q : Port) (j : BankNo) (x : Rbs), q ≠ p →
        told ((gradeNotice k p (some (j, q)) (u.withRbs x)).updPort p (queueReply m [[rcOk]] 1)) q ∧
        told ((gradeNotice k p (some (j, q)) (u.withRbs x)).updPort p (queueReply m [[rcDeferred]] 1)) q := fun q j x hq => by
      have hport : (u.withRbs x).ports.get q = s.ports.get q := by
        rw [← hu]
        exact State.updPort_get_ne _ _ hq
      have h := gradeNotice_told k p (j := j) (q := q) (u.withRbs x)
      rw [hport] at h
      simp only [told, State.updPort_get_ne _ _ hq]
      exact ⟨h, h⟩
    refine ⟨fun hb => ?_, fun b hb => ?_⟩
    · refine row.exec_answered (owner := ownSelectGrade) rfl ?_
      rw [hu, hown, hb]
      rfl
    have hbank : ¬ (s.rbs.banks[k]).isNone = true := by rw [hb]; simp
    rw [if_neg hbank] at hown
    have hlater : ∀ old, s.rbs.active = some old → old ≠ k → ¬stands → (if s.rbs.active = some k then
          code rcOk (gradeNotice k p s.rbs.pending (u.withRbs { s.rbs with pending := none }))
        else if s.rbs.active.isNone || gradeAtOnce s.cmu then code rcOk (applyGrade k u) else code rcDeferred (pendGrade k p u)) =
        code rcDeferred (pendGrade k p u) := fun old ha hne hst => by
      have h1 : s.rbs.active ≠ some k := by rw [ha]; exact fun e => hne (Option.some.inj e)
      have h2 : ¬ (s.rbs.active.isNone || gradeAtOnce s.cmu) = true := by
        rw [Bool.or_eq_true, gradeAtOnce_iff, ha]
        rintro (h | h)
        · simp at h
        · exact hst h
      rw [if_neg h1, if_neg h2]
    refine ⟨fun ha hpend => ?_, fun j q ha hpend hq => ?_, fun ha hst => ?_, fun old ha hne hst => ⟨fun hpend => ?_, fun j q hpend hq => ?_⟩⟩
    · refine row.exec_answered (owner := ownSelectGrade) rfl ?_
      rw [hu, hown, if_pos ha, hpend]
      have : u.withRbs { s.rbs with pending := none } = u := by rw [← hpend, ← hrbs]; rfl
      rw [this]
      rfl
    · rw [if_pos ha, hpend] at hown
      obtain ⟨hexec, hreply⟩ := row.exec_replied (owner := ownSelectGrade) (c := .selectGrade p .whole) rfl ((congrArg _ hu).trans hown)
      exact ⟨_, hexec, hreply, rfl, (htold q j _ hq).1⟩
    · have honce : (s.rbs.active.isNone || gradeAtOnce s.cmu) = true := by
        rw [Bool.or_eq_true, Option.isNone_iff_eq_none, gradeAtOnce_iff]
        exact hst
      rw [if_neg ha, if_pos honce] at hown
      obtain ⟨hexec, hreply⟩ := row.exec_replied (owner := ownSelectGrade) (c := .selectGrade p .whole) rfl ((congrArg _ hu).trans hown)
      obtain ⟨h1, h2, h3, h4, h5⟩ := applyGrade_fields (k := k) (s := u) (b := b) (by rw [hrbs]; exact hb)
      have haside := aside_applyGrade k u
      have hpen : u.pen = s.pen := by rw [← hu]; rfl
      have hhbc : u.hbc = s.hbc := by rw [← hu]; rfl
      rw [hrbs] at h1 h2 h3
      rw [hpen] at h2
      exact ⟨_, hexec, hreply, h1, h2, h3, h4, haside.carry.trans (by rw [hpen]), haside.slots.trans (by rw [hpen]),
        h5.trans hcmu, haside.hbc.trans hhbc⟩
    · refine row.exec_changed (owner := ownSelectGrade) (t := s.withRbs { s.rbs with pending := some (k, p) }) rfl ?_
      rw [hu, (hown.trans (hlater old ha hne hst)), pendGrade, hrbs]
      rcases hpend with hn | hs
      · rw [hn, if_neg (by simp), ← hu]
        rfl
      · rw [if_pos hs, ← hs, ← hu]
        rfl
    · have hother : s.rbs.pending ≠ some (k, p) := by
        rw [hpend]
        exact fun e => hq (congrArg Prod.snd (Option.some.inj e))
      have hnow : ownSelectGrade p m u = code rcDeferred (gradeNotice k p (some (j, q)) (u.withRbs { s.rbs with pending := some (k, p) })) := by
        rw [hown.trans (hlater old ha hne hst), pendGrade, hrbs, if_neg hother, hpend]
      obtain ⟨hexec, hreply⟩ := row.exec_replied (owner := ownSelectGrade) (c := .selectGrade p .whole) rfl ((congrArg _ hu).trans hnow)
      exact ⟨_, hexec, hreply, rfl, (htold q j _ hq).2⟩

/-! ### ACK ALARM (R158, R170, R171) -/

/-- R170: a point that waits for no acknowledgement. -/
theorem ackPoint_none {x : AlarmCtx} {i : PointNo} {ap : AltPorts} (h : (ap.1.points[i]).state ∈ [PointState.normal, .activeAck]) :
    ackPoint x i ap = none := by
  unfold ackPoint
  rcases List.mem_pair.1 h with e | e <;> dsimp only <;> rw [e]

/-- R170: the acknowledgement of a point that waits for one. -/
theorem ackPoint_waits {x : AlarmCtx} {i : PointNo} {ap : AltPorts}
    (h : (ap.1.points[i]).state ∈ [PointState.activeUnack, .returnUnack]) :
    ∃ b, ackPoint x i ap = some (settleAlarms x (b, ap.2)) ∧ b.points = (ap.1.setPoint i { ap.1.points[i] with
      state := if (ap.1.points[i]).state = .activeUnack then .activeAck else .normal, suppressed := false }).points := by
  unfold ackPoint
  dsimp only
  rcases List.mem_pair.1 h with e | e
  · exact ⟨(ap.1.setPoint i { ap.1.points[i] with state := .activeAck, suppressed := false }).dropOrder i, by rw [e],
      by rw [if_pos e]; rfl⟩
  · exact ⟨ap.1.setPoint i { ap.1.points[i] with state := .normal, suppressed := false }, by rw [e],
      by rw [if_neg (by rw [e]; decide)]⟩

/-- R171: the notices of an acknowledgement reach the other ports and change nothing else. -/
theorem ackedNotices_get (p q : Port) (pl : List Byte) (s : State) :
    (ackedNotices p pl s).ports.get q = if q = p then s.ports.get q else (s.ports.get q).notice kAcked pl := by
  cases p <;> cases q <;> rfl

theorem ackedNotices_eq (p : Port) (pl : List Byte) (s : State) :
    ackedNotices p pl s = s.withPorts (ackedNotices p pl s).ports := by
  cases p <;> rfl

/-- R158: an acknowledgement of BREAK marks the newest record's first acknowledgement. -/
theorem ackBreak_log {p : Port} {s : State} {newest : BreakRecord} {older : List BreakRecord} (h : s.msm.log = newest :: older) :
    (ackBreak ptBreak p s).msm.log = { newest with ackedBy := some (newest.ackedBy.getD p) } :: older := by
  have hmark : markAcked p newest = { newest with ackedBy := some (newest.ackedBy.getD p) } := by
    unfold markAcked
    cases e : newest.ackedBy with
    | none => rfl
    | some x =>
      rw [if_neg (by simp)]
      cases newest
      simp_all
  rw [ackBreak, if_pos rfl]
  show (updNewest (markAcked p) s.msm).log = _
  rw [updNewest_log, h]
  simp [hmark]

theorem ackBreak_keeps (i : PointNo) (p : Port) (s : State) : (ackBreak i p s).alt = s.alt ∧ (ackBreak i p s).ports = s.ports ∧
    (ackBreak i p s).cmu = s.cmu ∧ (ackBreak i p s).rbs = s.rbs ∧ (ackBreak i p s).hbc = s.hbc := by
  unfold ackBreak
  split <;> exact ⟨rfl, rfl, rfl, rfl, rfl⟩

/-- The notice to a port that is not SILENT is its last message, or found no room. -/
theorem notice_last_or_full (kind : Byte) (pl : List Byte) {x : PortState} (h : x.silent = false) :
    (x.notice kind pl).outbound.getLast? = some ⟨.notice, kind, 0, pl⟩ ∨
    32 ≤ (x.notice kind pl).outbound.length + (x.notice kind pl).reserved := by
  obtain ⟨hs, _⟩ | ⟨_, _, e⟩ | ⟨_, hr, e⟩ := x.notice_cases kind pl
  · simp [hs] at h
  · rw [e]
    exact .inl (by simp)
  · rw [e]
    exact .inr hr

/-- Settles O52: the point moves, the record is marked, and the notices go out last. -/
theorem alarmsAreAcknowledged : Obligations.AlarmsAreAcknowledged := by
  intro s p m hw hk
  have row : m.payload.length = 1 → Row s p m 1 (ofKind 24) := fun hl =>
    Row.of_kind hw hk (by simp [lenOk, hl]) (by cases p <;> rfl)
  refine ⟨fun c hpl hc => ?_, fun i hpl => ?_⟩
  · refine (row (by rw [hpl]; rfl)).exec_answered (owner := ownAckAlarm) rfl ?_
    rw [ownAckAlarm]
    exact dif_neg (by rw [hpl, fieldAt_byte]; omega)
  · have row := row (by rw [hpl]; rfl)
    generalize hu : s.updPort p (takenPort m) = u
    have halt : u.alarms.1 = s.alt := by rw [← hu]; rfl
    have hfield : fieldAt m.payload 0 1 = i.val := by rw [hpl, fieldAt_byte, byte_toNat (by omega)]
    have hown : ownAckAlarm p m u = match ackPoint u.alarmCtx i u.alarms with
        | none => code rcNotUnacked u
        | some ap => code rcOk (acceptAck p i ap u) := by
      rw [ownAckAlarm, dif_pos (by rw [hfield]; exact i.isLt)]
      simp only [hfield] <;> rfl
    refine ⟨fun hst => ?_, fun hst => ?_⟩
    · refine row.exec_answered (owner := ownAckAlarm) rfl ?_
      rw [hu, hown, ackPoint_none (by rw [halt]; exact hst)]
      rfl
    · intro now
      obtain ⟨b, hack, hb⟩ := ackPoint_waits (x := u.alarmCtx) (i := i) (ap := u.alarms) (by rw [halt]; exact hst)
      rw [hack] at hown
      obtain ⟨hexec, hreply⟩ := row.exec_replied (owner := ownAckAlarm) (c := .ackAlarm p .whole) rfl ((congrArg _ hu).trans hown)
      have hpass := settleAlarms_passed u.alarmCtx (b, u.alarms.2)
      generalize hap : settleAlarms u.alarmCtx (b, u.alarms.2) = ap at *
      have hpoint : ∀ j : PointNo, b.points[j] = if j = i then { s.alt.points[i] with state := now, suppressed := false } else s.alt.points[j] :=
        fun j => by
          have : b.points[j] = (u.alarms.1.setPoint i { u.alarms.1.points[i] with
            state := if (u.alarms.1.points[i]).state = .activeUnack then .activeAck else .normal, suppressed := false }).points[j] :=
            congrArg (fun v => v[j]) hb
          rw [this, Alt.setPoint_get, halt]
      have hself := hpoint i
      rw [if_pos rfl] at hself
      obtain ⟨hvalt, hvports, hvrest⟩ := ackBreak_keeps i p (u.withAlarms ap)
      have hstate : (ap.1.points[i]).state = now := (hpass.state i).trans (by rw [hself])
      have ht : acceptAck p i ap u = ackedNotices p (ackedPayload i now p ap.1.floor) (ackBreak i p (u.withAlarms ap)) := by
        rw [acceptAck, hvalt]
        simp only [State.withAlarms, State.withPorts_alt, State.withAlt_alt, hstate]
      rw [ht, ackedNotices_eq] at hexec hreply
      have hports : ∀ q, q ≠ p → (ackedNotices p (ackedPayload i now p ap.1.floor) (ackBreak i p (u.withAlarms ap))).ports.get q =
          (ap.2.get q).notice kAcked (ackedPayload i now p ap.1.floor) := fun q hq => by
        rw [ackedNotices_get, if_neg hq, hvports]
        rfl
      have hnoticed : ∀ q, q ≠ p → Noticed (s.ports.get q) (ap.2.get q) := fun q hq => by
        have h1 : u.alarms.2.get q = s.ports.get q := by
          rw [← hu]
          exact State.updPort_get_ne _ _ hq
        exact h1 ▸ hpass.ports q
      refine ⟨_, hexec, hreply, ?_, ?_, ?_, fun j hj => ?_, fun hi => ?_, fun newest older hi hlog => ?_, fun q hq hs => ?_,
        fun q hq hs => ?_, ?_, ?_, ?_⟩
      · exact (congrArg (fun a : Alt => (a.points[i]).state) hvalt).trans hstate
      · exact (congrArg (fun a : Alt => (a.points[i]).suppressed) hvalt).trans ((hpass.suppressed i).trans (by rw [hself]))
      · exact (congrArg (fun a : Alt => (a.points[i]).count) hvalt).trans ((hpass.count i).trans (by rw [hself]))
      · have hother := hpoint j
        rw [if_neg hj] at hother
        exact (congrArg (fun a : Alt => (a.points[j]).state) hvalt).trans ((hpass.state j).trans (by rw [hother]))
      · show (ackBreak i p (u.withAlarms ap)).msm = s.msm
        rw [ackBreak, if_neg hi, ← hu]
        rfl
      · subst hi
        exact ackBreak_log (by rw [← hlog, ← hu]; rfl)
      · rw [State.updPort_get_ne _ _ hq, State.withPorts_ports, hports q hq]
        have hsame := (hnoticed q hq).of_silent hs
        rw [hsame, PortState.notice_of_silent _ _ _ hs]
      · rw [State.updPort_get_ne _ _ hq, State.withPorts_ports, hports q hq]
        have hlast := notice_last_or_full kAcked (ackedPayload i now p ap.1.floor) ((hnoticed q hq).silent.trans hs)
        rw [State.updPort_alt, State.withPorts_alt, hvalt]
        refine hlast.imp (fun h => h.trans ?_) id
        simp [ackedPayload, bytesBE, kAcked]
        rfl
      · exact hvrest.1.trans (by rw [← hu]; rfl)
      · exact hvrest.2.1.trans (by rw [← hu]; rfl)
      · exact hvrest.2.2.trans (by rw [← hu]; rfl)

end Sys2Proof.Machine
end

section
/-! PROOFS. SPEED, DECLARE and PARK (R20, R21, R144, R145). -/

namespace Sys2Proof.Machine

open Safety

/-! ### The comparison with the crawl speed (R144) -/

theorem compareSpeed_stays {s : State} (cause : StateCause) (o : OverrideOrder)
    (h : s.msm.state = .down ↔ s.msm.speed < s.rbs.common.crawl) : compareSpeed cause o s = s := by
  unfold compareSpeed
  by_cases hd : s.msm.state = .down
  · rw [if_pos hd]
    exact if_pos (h.1 hd)
  · rw [if_neg hd]
    exact if_neg (fun k => hd (h.2 k))

theorem compareSpeed_slow {s : State} (cause : StateCause) (o : OverrideOrder) (hd : s.msm.state ≠ .down)
    (h : s.msm.speed < s.rbs.common.crawl) : compareSpeed cause o s = changeState .down cause o s :=
  (if_neg hd).trans (if_pos h)

theorem compareSpeed_runs {s : State} (cause : StateCause) (o : OverrideOrder) (hd : s.msm.state = .down)
    (h : s.rbs.common.crawl ≤ s.msm.speed) : compareSpeed cause o s = testLines (changeState .brk cause o s) :=
  (if_pos hd).trans (if_neg (Nat.not_lt.2 h))

/-- A change of the machine state to BREAK writes no common bank. -/
theorem changeState_brk_common (cause : StateCause) (o : OverrideOrder) (s : State) :
    (changeState .brk cause o s).rbs.common = s.rbs.common :=
  (congrArg (fun u : State => u.rbs.common) (changeState_brk cause o s)).trans (aside_raiseOverride o _).common

/-- R150: the condition reads the lines alone. -/
theorem lineCondition_congr (b : CommonBank) {m n : Msm} (h : m.lines = n.lines) : lineCondition b m = lineCondition b n := by
  simp only [lineCondition, lineReading, h]

/-- R144, R150: from DOWN at crawl speed or above. -/
theorem compareSpeed_wakes {s : State} (cause : StateCause) (o : OverrideOrder) (hd : s.msm.state = .down)
    (h : s.rbs.common.crawl ≤ s.msm.speed) :
    let t := compareSpeed cause o s
    (lineCondition s.rbs.common s.msm = false → t.msm = { s.msm with state := .brk, widthPasses := 0, source := true } ∧
      (t.alt.points[ptBreak]).state = .activeUnack ∧ t.hbc = s.hbc) ∧
    (lineCondition s.rbs.common s.msm = true → t.msm.state = .thread ∧ t.msm.source = false ∧
      t.msm.nextBreak = s.msm.nextBreak ∧ t.msm.speed = s.msm.speed ∧ t.hbc = s.hbc) := by
  intro t
  obtain ⟨hmsm, hstate, _, _, hhbc⟩ := changeState_brk_left cause o s
  have hcond : lineCondition (changeState .brk cause o s).rbs.common (changeState .brk cause o s).msm =
      lineCondition s.rbs.common s.msm := by
    rw [changeState_brk_common]
    exact lineCondition_congr _ (congrArg Msm.lines hmsm :)
  have ht : t = testLines (changeState .brk cause o s) := compareSpeed_runs cause o hd h
  rw [ht]
  refine ⟨fun hc => ?_, fun hc => ?_⟩
  · have : testLines (changeState .brk cause o s) = changeState .brk cause o s := if_neg (by rw [hcond, hc]; decide)
    rw [this]
    exact ⟨hmsm, hstate, hhbc⟩
  · obtain ⟨h1, h2, _, h4, h5, h6⟩ := testLines_left (hcond.trans hc)
    exact ⟨h1, h2, h4.trans (congrArg Msm.nextBreak hmsm :), h5.trans (congrArg Msm.speed hmsm :), h6.trans hhbc⟩

/-! ### What the requests leave of the monitor -/

theorem enteredMsm_run_fields (s : State) : (enteredMsm .run s).state = .run ∧ (enteredMsm .run s).nextBreak = s.msm.nextBreak ∧
    ∀ newest older, s.msm.log = newest :: older → newest.isOpen = true →
      (enteredMsm .run s).log = { newest with runAt := some s.pen.counter, isOpen := false } :: older := by
  refine ⟨enteredMsm_state .run s, ?_, fun newest older hl ho => ?_⟩
  · simp only [enteredMsm, updNewest]
    split <;> rfl
  · simp only [enteredMsm, updNewest_log]
    simp [hl, markRun, ho]

/-- R156: a cause in BREAK with the newest record closed. -/
theorem appendCause_closed {m : Msm} (c : LaterCause) {r : BreakRecord} {older : List BreakRecord} (hl : m.log = r :: older)
    (ho : r.isOpen = false) : appendCause c m = m := by
  unfold appendCause updNewest
  rw [hl]
  simp [ho, ← hl]

/-- Settles O50: the comparison of the speed, and DECLARE by its name and the machine state. -/
theorem speedAndDeclareChangeTheMachine : Obligations.SpeedAndDeclareChangeTheMachine := by
  intro s m o hw p st accepted left breakOver
  generalize hu : s.updPort p (takenPort m) = u
  have hmsm : u.msm = s.msm := by rw [← hu]; rfl
  have hrbs : u.rbs = s.rbs := by rw [← hu]; rfl
  have hhbc : u.hbc = s.hbc := by rw [← hu]; rfl
  refine ⟨fun v hk hv hpl => ?_, fun hk => ?_⟩
  · have row : Row s p m 1 (ofKind 21) := Row.of_kind hw hk (by rw [hpl]; rfl)
    have hfield : fieldAt m.payload 0 2 = v := by
      rw [hpl, fieldAt_last]
      exact Nat.mod_eq_of_lt hv
    refine ⟨fun h => ?_, fun h => ?_⟩
    · refine row.exec_answered (owner := ownSpeed o) rfl ?_
      simp only [ownSpeed, hfield, if_pos h]
      rfl
    · have hown : ownSpeed o p m u = code rcOk (compareSpeed .speed o (u.withMsm { s.msm with speed := v })).settleDrive := by
        simp only [ownSpeed, hfield, if_neg (Nat.not_lt.2 h), hmsm]
      obtain ⟨hexec, hreply⟩ := row.exec_replied (owner := ownSpeed o) (c := .speed p .whole o) rfl ((congrArg _ hu).trans hown)
      have hcommon : (u.withMsm { s.msm with speed := v }).rbs.common = s.rbs.common := congrArg Rbs.common hrbs
      refine ⟨fun hd hiff => ?_, fun hst hlow => ⟨_, hexec, ?_⟩, fun hst hhigh => ?_⟩
      · refine row.exec_changed (owner := ownSpeed o) (t := s.withMsm { s.msm with speed := v }) rfl ?_
        rw [hu, hown, compareSpeed_stays (s := u.withMsm { s.msm with speed := v }) _ _ (by rw [hcommon]; exact hiff),
          State.settleDrive_of_settled (s := u.withMsm { s.msm with speed := v }) (by rw [← hu]; exact hd), ← hu]
        rfl
      · rw [compareSpeed_slow (s := u.withMsm { s.msm with speed := v }) _ _ hst (by rw [hcommon]; exact hlow)] at hreply ⊢
        obtain ⟨h1, h2, h3⟩ := changeState_down_left .speed o (u.withMsm { s.msm with speed := v })
        refine ⟨⟨hreply, (congrArg Msm.state h1 :), (congrArg Msm.source h1 :), (congrArg Msm.nextBreak h1 :), h3.trans hhbc⟩,
          (congrArg Msm.speed h1 :), (congrArg Msm.log h1 :), h2⟩
      · obtain ⟨hbrk, hthread⟩ := compareSpeed_wakes (s := u.withMsm { s.msm with speed := v }) .speed o hst (by rw [hcommon]; exact hhigh)
        rw [hcommon] at hbrk hthread
        refine ⟨fun hc => ⟨_, hexec, ?_⟩, fun hc => ⟨_, hexec, ?_⟩⟩
        · obtain ⟨h1, h2, h3⟩ := hbrk hc
          exact ⟨⟨hreply, (congrArg Msm.state h1 :), (congrArg Msm.source h1 :), (congrArg Msm.nextBreak h1 :), h3.trans hhbc⟩,
            (congrArg Msm.speed h1 :), (congrArg Msm.log h1 :), h2⟩
        · obtain ⟨h1, h2, h3, h4, h5⟩ := hthread hc
          exact ⟨⟨hreply, h1, h2, h3, h5.trans hhbc⟩, h4⟩
  · have hpermit : permitted p 22 = true := rfl
    have row : ∀ (c : Byte) (k : Nat), m.payload = [c] → c.toNat = k ∨ 4 ≤ c.toNat → Row s p m 1 (ofCode 22 k 4) := fun c k hpl hc =>
      Row.of_code hw hk (by rw [hpl]; rfl) (by rw [hpl, fieldAt_byte]; exact hc)
    have hown : ∀ (c : Byte) (w : OverrideOrder), m.payload = [c] → ownDeclare w p m u = match c.toNat with
        | 0 => declareDown w u
        | 1 => declareThreading u
        | 2 => declareSheetOn u
        | 3 => declareBreak w u
        | _ => code rcBadField u := fun c w hpl => by
      rw [ownDeclare, hpl, fieldAt_byte] <;> rfl
    have hchanged : ∀ {v : State}, repliedWith (v.settleDrive.updPort p (queueReply m [[rcOk]] 1)) p m rcOk →
        ∀ new, v.msm.state = new → v.msm.source = decide (new = .down ∨ new = .brk) → v.msm.nextBreak = s.msm.nextBreak →
        v.hbc = u.hbc → left (v.settleDrive.updPort p (queueReply m [[rcOk]] 1)) new := fun hreply new h1 h2 h3 h4 =>
      ⟨hreply, h1, h2, h3, h4.trans hhbc⟩
    refine ⟨fun hpl => ?_, fun hpl => ?_, fun hpl => ?_, fun hpl => ?_, fun c hpl hc cmd hcmd => ?_⟩
    · have row := row 0 0 hpl (.inl rfl)
      have hown : ownDeclare o p m u = declareDown o u := hown 0 o hpl
      refine ⟨fun hst => ?_, fun hst => ?_⟩
      · refine row.exec_answered (owner := ownDeclare o) rfl ?_
        rw [hu, hown, declareDown, hmsm, show s.msm.state = _ from hst]
        rfl
      · have hnow : declareDown o u = code rcOk (changeState .down .declare o u).settleDrive := by
          unfold declareDown
          rw [hmsm]
          cases e : s.msm.state
          case down => exact absurd e hst
          all_goals rfl
        obtain ⟨hexec, hreply⟩ := row.exec_replied (owner := ownDeclare o) (c := .declareDown p .whole o) rfl
          ((congrArg _ hu).trans (hown.trans hnow))
        obtain ⟨h1, h2, h3⟩ := changeState_down_left .declare o u
        rw [hmsm] at h1
        exact ⟨_, hexec, hchanged hreply .down (congrArg Msm.state h1 :) (congrArg Msm.source h1 :) (congrArg Msm.nextBreak h1 :) h3,
          (congrArg Msm.log h1 :), (congrArg Msm.speed h1 :), h2⟩
    · have row := row 1 1 hpl (.inl rfl)
      have hown : ownDeclare .overrideFirst p m u = declareThreading u := hown 1 .overrideFirst hpl
      refine ⟨fun hst => ?_, fun hst => ?_, fun hst => ?_⟩
      · have hnow : declareThreading u = code rcOk (changeState .thread .declare .overrideFirst u).settleDrive := by
          unfold declareThreading
          rw [hmsm, show s.msm.state = _ from hst]
        obtain ⟨hexec, hreply⟩ := row.exec_replied (owner := ownDeclare .overrideFirst) (c := .declareThreading p .whole) rfl
          ((congrArg _ hu).trans (hown.trans hnow))
        obtain ⟨h1, h2⟩ := changeState_thread_left .declare .overrideFirst u
        obtain ⟨_, h4, _, h6⟩ := enteredMsm_thread_fields u
        exact ⟨_, hexec, hchanged hreply .thread ((congrArg Msm.state h1 :).trans h6) (congrArg Msm.source h1 :)
          ((congrArg Msm.nextBreak h1 :).trans (h4.trans (by rw [hmsm]))) h2⟩
      · refine row.exec_answered (owner := ownDeclare .overrideFirst) rfl ?_
        rw [hu, hown, declareThreading, hmsm, show s.msm.state = _ from hst]
        rfl
      · refine row.exec_answered (owner := ownDeclare .overrideFirst) rfl ?_
        rw [hu, hown, declareThreading, hmsm]
        rcases List.mem_pair.1 hst with e | e
        · rw [show s.msm.state = _ from e]
          rfl
        · rw [show s.msm.state = _ from e]
          rfl
    · have row := row 2 2 hpl (.inl rfl)
      have hown : ownDeclare .overrideFirst p m u = declareSheetOn u := hown 2 .overrideFirst hpl
      refine ⟨fun hst => ?_, fun hst => ?_, fun hst => ?_⟩
      · have hnow : declareSheetOn u = code rcOk (changeState .run .declare .overrideFirst u).settleDrive := by
          unfold declareSheetOn
          rw [hmsm]
          rcases List.mem_pair.1 hst with e | e
          · rw [show s.msm.state = _ from e]
          · rw [show s.msm.state = _ from e]
        obtain ⟨hexec, hreply⟩ := row.exec_replied (owner := ownDeclare .overrideFirst) (c := .declareSheetOn p .whole) rfl
          ((congrArg _ hu).trans (hown.trans hnow))
        obtain ⟨h1, h2, h3, h4⟩ := changeState_run_left .declare .overrideFirst u
        obtain ⟨h5, h6, h7⟩ := enteredMsm_run_fields u
        rw [hmsm] at h6 h7
        refine ⟨_, hexec, hchanged hreply .run ((congrArg Msm.state h1 :).trans h5) (congrArg Msm.source h1 :)
          ((congrArg Msm.nextBreak h1 :).trans h6) h4, h2, h3, fun newest older hl ho => ?_⟩
        have hcounter : u.pen.counter = s.pen.counter := by rw [← hu]; rfl
        rw [← hcounter]
        exact (congrArg Msm.log h1 :).trans (h7 newest older hl ho)
      · refine row.exec_answered (owner := ownDeclare .overrideFirst) rfl ?_
        rw [hu, hown, declareSheetOn, hmsm, show s.msm.state = _ from hst]
        rfl
      · refine row.exec_answered (owner := ownDeclare .overrideFirst) rfl ?_
        rw [hu, hown, declareSheetOn, hmsm, show s.msm.state = _ from hst]
        rfl
    · have row := row 3 3 hpl (.inl rfl)
      have hown : ownDeclare o p m u = declareBreak o u := hown 3 o hpl
      have hnow : st ≠ .down → declareBreak o u =
          code rcOk (takeCause .declare u.cmu.position u.hbc.cycle .declare o u).settleDrive := fun hst => by
        unfold declareBreak
        rw [hmsm]
        cases e : s.msm.state
        case down => exact absurd e hst
        all_goals rfl
      refine ⟨fun hst => ?_, fun newest older hd hst hl ho => ?_, fun hst => ?_⟩
      · have hst' : s.msm.state = .run ∨ s.msm.state = .thread := List.mem_pair.1 hst
        obtain ⟨hexec, hreply⟩ := row.exec_replied (owner := ownDeclare o) (c := .declareBreak p .whole o) rfl
          ((congrArg _ hu).trans (hown.trans (hnow (by rcases hst' with e | e <;> (show s.msm.state ≠ _; rw [e]; decide)))))
        have h1 := (takeCause_enters (s := u) .declare u.cmu.position u.hbc.cycle .declare o (by rw [hmsm]; exact hst')).1
        refine ⟨_, hexec, hreply, ?_⟩
        rw [← hu] at h1 ⊢
        exact h1
      · refine row.exec_answered (owner := ownDeclare o) rfl ?_
        have hsame : takeCause .declare u.cmu.position u.hbc.cycle .declare o u = u := by
          rw [takeCause_brk _ _ _ _ _ (by rw [hmsm]; exact hst), appendCause_closed _ (by rw [hmsm]; exact hl) ho]
          rfl
        rw [hu, hown, hnow (by rw [hst]; decide), hsame,
          State.settleDrive_of_settled (s := u) (by rw [← hu]; exact hd)]
        rfl
      · refine row.exec_answered (owner := ownDeclare o) rfl ?_
        rw [hu, hown, declareBreak, hmsm, show s.msm.state = _ from hst]
        rfl
    · have hbad : ∀ w, ownDeclare w p m (s.updPort p (takenPort m)) = (s.updPort p (takenPort m), [[rcBadField]]) := fun w => by
        rw [hu, hown c w hpl]
        obtain ⟨k, hk⟩ := Nat.exists_eq_add_of_le' hc
        rw [hk]
        rfl
      simp only [List.mem_cons, List.not_mem_nil, or_false] at hcmd
      rcases hcmd with e | e | e | e <;> subst e
      · exact (row c 0 hpl (.inr hc)).exec_answered (owner := ownDeclare o) rfl (hbad o)
      · exact (row c 1 hpl (.inr hc)).exec_answered (owner := ownDeclare .overrideFirst) rfl (hbad _)
      · exact (row c 2 hpl (.inr hc)).exec_answered (owner := ownDeclare .overrideFirst) rfl (hbad _)
      · exact (row c 3 hpl (.inr hc)).exec_answered (owner := ownDeclare o) rfl (hbad o)

end Sys2Proof.Machine
end

section
/-! PROOFS. What every move of the carriage keeps, stated once for a property of the state, and PARK (R20, R21). -/

namespace Sys2Proof.Machine

open Safety

/-! ### A property kept by the moves (R12 … R15, R47, R86, R183) -/

/-- A property that each part of a move keeps. -/
structure KeptByMoves (P : State → Prop) : Prop where
  travel : ∀ {s} st x d a v, P s → P (travel st x d a v s)
  turn : ∀ {s} d, P s → P (enterTurning d s)
  limits : ∀ {s}, P s → P (computeLimits s)
  rest : ∀ {s} st, P s → P (comeToRest st s)
  atStd : ∀ {s}, P s → P (arriveStd s)
  openStd : ∀ {s}, P s → P (openStd s)
  abort : ∀ {s}, P s → P (abortTraverse s)
  grade : ∀ {s}, P s → P (applyPendingGrade s)
  plan : ∀ {s}, P s → P (applyPendingPlan s)

section
variable {P : State → Prop} (h : KeptByMoves P) {s : State}
include h

theorem KeptByMoves.goStd (hs : P s) : P (goStd s) := by
  unfold Machine.goStd
  dsimp only
  split
  · exact h.atStd (h.travel _ _ _ _ _ hs)
  · exact h.travel _ _ _ _ _ hs

theorem KeptByMoves.takeStd (hs : P s) : P (takeStd s) := h.goStd (h.openStd (h.abort hs))

theorem KeptByMoves.goLimit (hs : P s) : P (goLimit s) := by
  have hl := h.limits hs
  simp only [Machine.goLimit]
  split
  · exact h.travel _ _ _ _ _ hl
  split
  · exact h.travel _ _ _ _ _ hl
  split
  · exact h.turn _ hl
  split
  · exact h.turn _ hl
  split
  · exact h.travel _ _ _ _ _ hl
  · exact h.travel _ _ _ _ _ hl

theorem KeptByMoves.goPark {next : State → State} (hn : ∀ {u}, P u → P (next u)) (hs : P s) : P (goPark next s) := by
  unfold Machine.goPark
  split
  · exact hs
  · dsimp only
    split
    · exact hn (h.plan (h.grade (h.rest _ (h.travel _ _ _ _ _ hs))))
    · exact h.travel _ _ _ _ _ hs

theorem KeptByMoves.goFixed {next : State → State} (hn : ∀ {u}, P u → P (next u)) (hs : P s) : P (goFixed next s) := by
  have hr : ∀ {u : State}, P u → P (arriveFixed next u) := fun hu => by
    have hp := h.plan (h.grade (h.rest .fixed hu))
    unfold arriveFixed
    dsimp only
    split
    · exact h.takeStd hp
    split
    · exact hp
    · exact hn hp
  unfold Machine.goFixed
  dsimp only
  split
  · exact hr (h.travel _ _ _ _ _ hs)
  · exact h.travel _ _ _ _ _ hs

theorem KeptByMoves.nextMotion (n : Nat) (hs : P s) : P (nextMotion n s) := by
  induction n generalizing s with
  | zero => exact hs
  | succ n ih =>
    unfold Machine.nextMotion
    split
    · exact h.takeStd hs
    split
    · exact h.goPark ih hs
    split
    · exact h.goPark ih hs
    · exact h.goFixed ih hs
    · exact h.goLimit hs

theorem KeptByMoves.nextMove (hs : P s) : P (nextMove s) := h.nextMotion _ hs

end

/-- The making active of a plan changes the carriage's plan, the token's pending plan and the due flag. -/
theorem applyPendingPlan_blocks (s : State) : (applyPendingPlan s).pen = s.pen ∧ (applyPendingPlan s).ebm = s.ebm ∧
    (applyPendingPlan s).rbs = s.rbs ∧ (applyPendingPlan s).cmu = { s.cmu with plan := s.cta.pending.getD s.cmu.plan } := by
  unfold applyPendingPlan
  split
  · next h => exact ⟨rfl, rfl, rfl, by rw [h]; rfl⟩
  · next p h =>
    rw [h]
    refine ⟨?_, ?_, ?_, applyPlan_cmu p s⟩
    all_goals
      unfold applyPlan intervalCheck setDue
      split
      · split <;> rfl
      · rfl

theorem abortTraverse_cases (s : State) : (s.cmu.inTraverse = false ∧ abortTraverse s = s) ∨
    (s.cmu.inTraverse = true ∧ (abortTraverse s).cmu = { s.cmu with retraverseOwed := true } ∧
      (abortTraverse s).pen = { s.pen with window := none } ∧
      (abortTraverse s).ebm = { s.ebm with watch := { watchClosed with dir := s.ebm.watch.dir } }) := by
  unfold abortTraverse
  by_cases h : s.cmu.inTraverse = true
  · rw [if_pos h]
    exact .inr ⟨h, rfl, rfl, rfl⟩
  · rw [if_neg h]
    exact .inl ⟨by simpa using h, rfl⟩

/-- No traverse in progress is opened by a move. -/
theorem keptByMoves_window : KeptByMoves fun s => s.pen.window = none where
  travel _ _ _ _ _ h := h
  turn _ h := h
  limits h := h
  rest _ h := h
  atStd h := h
  openStd h := h
  abort {s} h := by
    obtain ⟨_, e⟩ | ⟨_, _, e, _⟩ := abortTraverse_cases s
    · rw [e]; exact h
    · rw [e]
  grade {s} h := (applyPendingGrade_keeps s).2.2.2.2.2.trans h
  plan {s} h := (congrArg Pen.window (applyPendingPlan_blocks s).1).trans h

/-- A property of the carriage's own record that a move's parts keep is kept by the moves. -/
theorem keptByMoves_cmu {Q : Cmu → Prop} (hstate : ∀ {c} st, Q c → Q { c with state := st })
    (htravel : ∀ {c} x d a, Q c → Q { c with travelTarget := x, travelDir := d, approach := a })
    (hturn : ∀ {c} d, Q c → Q { c with travelDir := d }) (hlimits : ∀ {c} f b, Q c → Q { c with limF := f, limB := b })
    (hskip : ∀ {c}, Q c → Q { c with skipCount := 0 })
    (hopen : ∀ {c}, Q c → Q { dropArmed c with turnOwed := false, overrideWait := 0 })
    (hretraverse : ∀ {c}, Q c → Q { c with retraverseOwed := true }) (hplan : ∀ {c} p, Q c → Q { c with plan := p }) :
    KeptByMoves fun s => Q s.cmu where
  travel st x d a _ h := htravel x d a (hstate st h)
  turn d h := hturn d (hstate .turning h)
  limits h := hlimits _ _ h
  rest st h := hskip (hstate st h)
  atStd h := hskip (hstate .atStd h)
  openStd h := hopen h
  abort {s} h := by
    obtain ⟨_, e⟩ | ⟨_, e, _⟩ := abortTraverse_cases s
    · rw [e]; exact h
    · rw [e]; exact hretraverse h
  grade {s} h := by rw [(applyPendingGrade_keeps s).1]; exact h
  plan {s} h := by rw [(applyPendingPlan_blocks s).2.2.2]; exact hplan _ h

theorem keptByMoves_noHold : KeptByMoves fun s => s.cmu.hold = .none :=
  keptByMoves_cmu (Q := fun c => c.hold = .none) (fun _ h => h) (fun _ _ _ h => h) (fun _ h => h) (fun _ _ h => h) (fun h => h)
    (fun {c} h => by show (dropArmed c).hold = .none; unfold dropArmed; rw [h]; exact h) (fun h => h) (fun _ h => h)

theorem keptByMoves_retraverse : KeptByMoves fun s => s.cmu.retraverseOwed = true :=
  keptByMoves_cmu (Q := fun c => c.retraverseOwed = true) (fun _ h => h) (fun _ _ _ h => h) (fun _ h => h) (fun _ _ h => h) (fun h => h)
    (fun {c} h => by show (dropArmed c).retraverseOwed = true; unfold dropArmed; split <;> exact h) (fun _ => rfl) (fun _ h => h)

/-! ### PARK (R20, R21) -/

/-- R13, R20: where a carriage goes that a park override sends off the sheet. -/
def offSheetStates : List CarriageState := [.toPark, .parked, .toStd, .atStd]

theorem nextMotion_parked {n : Nat} {s : State} (hp : s.cmu.state = .parked) (ho : s.override = true)
    (hw : s.cmu.overrideWait = 0) : (nextMotion n s).cmu.state ∈ offSheetStates := by
  cases n with
  | zero =>
    show s.cmu.state ∈ _
    rw [hp]
    decide
  | succ n =>
    have ht : s.overrideTaken = true := by simp [State.overrideTaken, ho, Cmu.overrideUntaken, hw]
    unfold nextMotion
    split
    · obtain ⟨h, _⟩ | ⟨h, _⟩ := takeStd_state s <;> rw [h] <;> decide
    · rw [goPark, if_pos hp, hp]
      decide

theorem goPark_overridden {n : Nat} {s : State} (ho : s.override = true) (hw : s.cmu.overrideWait = 0) :
    (goPark (nextMotion n) s).cmu.state ∈ offSheetStates := by
  unfold goPark
  split
  · next hp => rw [hp]; decide
  · dsimp only
    split
    · let u := comeToRest .parked (travel .toPark s.rbs.common.parkPos (toward s.cmu.position s.rbs.common.parkPos) .outside
        s.rbs.common.maxSpeed s)
      have hm : Motion s (applyPendingPlan (applyPendingGrade u)) :=
        (((motion_travel ..).trans (motion_comeToRest ..)).trans (motion_applyPendingGrade _)).trans (motion_applyPendingPlan _)
      refine nextMotion_parked (s := applyPendingPlan (applyPendingGrade u)) ?_ (hm.override.trans ho)
        (Nat.eq_zero_of_le_zero (hw ▸ hm.wait))
      rw [(applyPendingPlan_blocks _).2.2.2, (applyPendingGrade_keeps u).1]
      rfl
    · show CarriageState.toPark ∈ _
      decide

theorem overrideMoves_iff (st : CarriageState) :
    overrideMoves st = true ↔ st ∈ [CarriageState.traverse, .turning, .toLimit, .toFixed, .fixed, .held] := by
  cases st <;> simp [overrideMoves]

/-- R20: a set source sends a carriage that scans, stands FIXED or is held off the sheet. -/
theorem takeOverride_moves {s : State} (ho : s.override = true) (hm : overrideMoves s.cmu.state = true) :
    let t := takeOverride s
    t.cmu.hold = .none ∧ t.cmu.state ∈ offSheetStates ∧
    (s.cmu.inTraverse = true → t.pen.window = none ∧ t.cmu.retraverseOwed = true) := by
  intro t
  let u := s.withCmu { s.cmu with overrideWait := 0 }
  let w := (abortTraverse u).withCmu { (abortTraverse u).cmu with hold := .none, turnOwed := false }
  have ht : t = goPark nextMove w := by
    show (if u.override && overrideMoves u.cmu.state then goPark nextMove w else u) = _
    exact if_pos (by rw [show u.override = true from ho, show overrideMoves u.cmu.state = true from hm]; rfl)
  have hmotion : Motion u w := (motion_abortTraverse u).trans (motion_withCmu _ _)
  rw [ht]
  refine ⟨keptByMoves_noHold.goPark keptByMoves_noHold.nextMove rfl,
    goPark_overridden (hmotion.override.trans ho) (Nat.eq_zero_of_le_zero hmotion.wait), fun hin => ?_⟩
  obtain ⟨e, _⟩ | ⟨_, hcmu, hpen, _⟩ := abortTraverse_cases u
  · rw [show u.cmu.inTraverse = s.cmu.inTraverse from rfl, hin] at e
    exact absurd e (by decide)
  · exact ⟨keptByMoves_window.goPark keptByMoves_window.nextMove (congrArg Pen.window hpen :),
      keptByMoves_retraverse.goPark keptByMoves_retraverse.nextMove (congrArg Cmu.retraverseOwed hcmu :)⟩

theorem takeOverride_stays {s : State} (hm : overrideMoves s.cmu.state = false) :
    takeOverride s = s.withCmu { s.cmu with overrideWait := 0 } := by
  let u := s.withCmu { s.cmu with overrideWait := 0 }
  show (if u.override && overrideMoves u.cmu.state then _ else u) = u
  exact if_neg (by rw [show overrideMoves u.cmu.state = false from hm]; simp)

/-- R21: the plan a freed carriage goes by. -/
def freedPlan (p : ScanPlan) : ScanPlan := { p with mode := if p.resume then p.mode else .park }

theorem parkUnlessResume_freed (s : State) : parkUnlessResume s = s.withCmu { s.cmu with plan := freedPlan s.cmu.plan } := by
  rw [parkUnlessResume_eq]
  unfold freedPlan
  by_cases h : s.cmu.plan.resume = true
  · rw [if_pos h, if_pos h]
  · rw [if_neg h, if_neg h]

theorem goLimit_plan (s : State) : (goLimit s).cmu.plan = s.cmu.plan ∧ (goLimit s).cmu.parkSource = s.cmu.parkSource := by
  simp only [goLimit]
  split
  · exact ⟨rfl, rfl⟩
  split
  · exact ⟨rfl, rfl⟩
  split
  · exact ⟨rfl, rfl⟩
  split
  · exact ⟨rfl, rfl⟩
  split <;> exact ⟨rfl, rfl⟩

/-- R13: the next motion of a carriage PARKED with no override and nothing to standardize. -/
theorem nextMove_parked {s : State} (hp : s.cmu.state = .parked) (ho : s.override = false)
    (hstd : s.osq.due = false ∨ s.osq.step ≠ .idle) :
    (s.cmu.plan.mode = .park → nextMove s = s) ∧ (s.cmu.plan.mode = .scan → nextMove s = goLimit s) := by
  have htakes : ¬ osqTakes s = true := by
    unfold osqTakes
    rcases hstd with e | e <;> simp [e]
  have htaken : ¬ s.overrideTaken = true := by simp [State.overrideTaken, ho]
  have e : nextMove s = match s.cmu.plan.mode with
      | .park => goPark (nextMotion 5) s
      | .fixed => goFixed (nextMotion 5) s
      | .scan => goLimit s := (if_neg htakes).trans (if_neg htaken)
  refine ⟨fun hm => ?_, fun hm => ?_⟩
  · rw [e, hm]
    exact if_pos hp
  · rw [e, hm]

/-- R20, R21: what the clearing of the PARK source leaves. -/
theorem clearParkSource_eq {s : State} (hw : s.cmu.overrideUntaken = false) :
    let u := s.withCmu { s.cmu with parkSource := false }
    let freed := u.withCmu { s.cmu with parkSource := false, plan := freedPlan s.cmu.plan }
    ((s.msm.source || s.cmu.motionFault) = true ∨ s.cmu.parkSource = false → clearParkSource s = u.settleDrive) ∧
    ((s.msm.source || s.cmu.motionFault) = false → s.cmu.parkSource = true →
      clearParkSource s = (if s.cmu.state = .parked then nextMove freed else freed).settleDrive) := by
  intro u freed
  have he : clearParkSource s = (overrideCleared s.override u).settleDrive := by
    unfold clearParkSource
    rw [flushOverride_of_taken hw]
  have hover : u.override = (s.msm.source || s.cmu.motionFault) := by simp [u, State.override]
  refine ⟨fun h => ?_, fun ho hp => ?_⟩
  · have : (s.override && !u.override) = false := by
      rw [hover]
      rcases h with h | h
      · simp [h]
      · simp only [State.override, h]
        cases s.msm.source <;> cases s.cmu.motionFault <;> rfl
    rw [he, overrideCleared_eq, this]
    rfl
  · have : (s.override && !u.override) = true := by
      rw [hover, ho]
      simp [State.override, hp]
    rw [he, overrideCleared_eq, this, if_pos rfl, parkUnlessResume_freed]
    rfl

/-- Settles O51: the set source with the override it raises, and the cleared one. -/
theorem parkMovesAndFreesTheCarriage : Obligations.ParkMovesAndFreesTheCarriage := by
  intro s m hw hk p accepted others
  have row : ∀ (c : Byte) (k : Nat), m.payload = [c] → c.toNat = k ∨ 2 ≤ c.toNat → Row s p m 1 (ofCode 23 k 2) := fun c k hpl hc =>
    Row.of_code hw hk (by rw [hpl]; rfl) (by rw [hpl, fieldAt_byte]; exact hc)
  generalize hu : s.updPort p (takenPort m) = u
  have hcmu : u.cmu = s.cmu := by rw [← hu]; rfl
  have hmsm : u.msm = s.msm := by rw [← hu]; rfl
  have hsettled : driveSettled s → driveSettled u := fun hd => by rw [← hu]; exact hd
  have hown : ∀ c : Byte, m.payload = [c] → ownPark p m u = match c.toNat with
      | 0 => code rcOk (clearParkSource u)
      | 1 => code rcOk (setParkSource u)
      | _ => code rcBadField u := fun c hpl => by
    rw [ownPark, hpl, fieldAt_byte] <;> rfl
  refine ⟨fun hpl => ?_, fun hpl hwait hd => ?_, fun c hpl hc cmd hcmd => ?_⟩
  · have row := row 1 1 hpl (.inl rfl)
    have hown : ownPark p m u = code rcOk (setParkSource u) := hown 1 hpl
    let v := u.withCmu { u.cmu with parkSource := true }
    refine ⟨fun hst => ?_, fun hst hd => ?_⟩
    · obtain ⟨hexec, hreply⟩ := row.exec_replied (owner := ownPark) (c := .parkSet p .whole) rfl ((congrArg _ hu).trans hown)
      have hm : overrideMoves v.cmu.state = true := (overrideMoves_iff _).2 (by
        show u.cmu.state ∈ _
        rw [hcmu]
        exact hst)
      have hmotion := motion_takeOverride v
      obtain ⟨h1, h2, h3⟩ := takeOverride_moves (s := v) (by simp [v, State.override]) hm
      have hin : v.cmu.inTraverse = s.cmu.inTraverse := (congrArg Cmu.inTraverse hcmu :)
      exact ⟨_, hexec, hreply, hmotion.parkSource, h1, h2, fun h => h3 (hin.trans h),
        hmotion.msm.trans hmsm⟩
    · have hm : overrideMoves v.cmu.state = false := by
        rw [← Bool.not_eq_true, overrideMoves_iff]
        show ¬ u.cmu.state ∈ _
        rw [hcmu]
        exact hst
      refine row.exec_changed (owner := ownPark) (t := s.withCmu { s.cmu with parkSource := true, overrideWait := 0 }) rfl ?_
      rw [hu, hown, setParkSource, takeOverride_stays (s := v) hm,
        State.settleDrive_of_settled (s := v.withCmu { v.cmu with overrideWait := 0 }) (hsettled hd)]
      subst hu
      rfl
  · have row := row 0 0 hpl (.inl rfl)
    have hown : ownPark p m u = code rcOk (clearParkSource u) := hown 0 hpl
    obtain ⟨hkeeps, hfrees⟩ := clearParkSource_eq (s := u) (by rw [hcmu]; exact hwait)
    have hset : ∀ x : Cmu, clearParkSource u = (u.withCmu x).settleDrive → exec (.parkClear p .whole) s =
        .next { accepted with cmu := x } := fun x hx => by
      refine row.exec_changed (owner := ownPark) (t := s.withCmu x) rfl ?_
      rw [hu, hown, hx, State.settleDrive_of_settled (s := u.withCmu x) (by rw [← hu]; exact hd), ← hu]
      rfl
    have hothers : (u.msm.source || u.cmu.motionFault) = others := by rw [← hu]; rfl
    rw [hothers, hcmu] at hkeeps hfrees
    refine ⟨fun h => hset _ (hkeeps h), fun ho hp => ?_⟩
    intro plan
    have hplan : plan = freedPlan s.cmu.plan := rfl
    let freed := u.withCmu { s.cmu with parkSource := false, plan := plan }
    have hfree : clearParkSource u = (if s.cmu.state = .parked then nextMove freed else freed).settleDrive := hfrees ho hp
    have hover : freed.override = false := by
      have h1 : freed.override = (u.msm.source || false || s.cmu.motionFault) := rfl
      rw [h1, Bool.or_false, ← hcmu, hothers]
      exact ho
    have hosq : freed.osq = s.osq := by
      show u.osq = s.osq
      rw [← hu]
      rfl
    refine ⟨fun hst => hset _ (hfree.trans (by rw [if_neg hst])), fun hst hstd hmode => ?_, fun hst hstd hmode => ?_⟩
    · refine hset _ (hfree.trans ?_)
      rw [if_pos hst, (nextMove_parked (s := freed) hst hover (by rw [hosq]; exact hstd)).1 hmode]
    · rw [if_pos hst, (nextMove_parked (s := freed) hst hover (by rw [hosq]; exact hstd)).2 hmode] at hfree
      obtain ⟨hexec, hreply⟩ := row.exec_replied (owner := ownPark) (c := .parkClear p .whole) rfl
        ((congrArg _ hu).trans (hown.trans (congrArg _ hfree)))
      obtain ⟨h1, h2⟩ := goLimit_plan freed
      exact ⟨_, hexec, hreply, h2, h1, goLimit_state freed⟩
  · have hbad : ownPark p m (s.updPort p (takenPort m)) = (s.updPort p (takenPort m), [[rcBadField]]) := by
      rw [hu, hown c hpl]
      obtain ⟨k, hk⟩ := Nat.exists_eq_add_of_le' hc
      rw [hk]
      rfl
    rcases List.mem_pair.1 hcmd with e | e <;> subst e
    · exact (row c 1 hpl (.inr hc)).exec_answered (owner := ownPark) rfl hbad
    · exact (row c 0 hpl (.inr hc)).exec_answered (owner := ownPark) rfl hbad

end Sys2Proof.Machine
end

section
/-! PROOFS. The rows of the request table as one: the port's checks, the two halves of a row, the token (R180, R195, R197). -/

namespace Sys2Proof.Machine

open Safety

/-! ### The rows of the table -/

/-- The stage a row is run in: the port answers its own rows as it takes them (R199, R207). -/
def rowStage (n : Nat) (g : Stage) : Stage :=
  match n with
  | 1 | 2 | 25 | 26 => portStage g
  | _ => g

/-- The messages of a row. -/
def rowAccepts (n : Nat) (named : Option Nat) : InMsg → Bool :=
  match named with
  | none => ofKind n
  | some k => ofCode n k (if n = 22 then 4 else 2)

/-- The requests that need the token wherever it is (R180). -/
def tokenKinds : List Nat := [10, 15, 16, 17, 18, 19]

/-- A row of the request table with its owner. -/
structure OwnedRow (n : Nat) (named : Option Nat) (row : Port → Stage → Instr) (owner : Owner) : Prop where
  exec : ∀ p g s, exec (row p g) s = whenReleased s (request (rowStage n g) p (rowAccepts n named) owner)
  kind : isRequestKind n = true
  code : ∀ k, named = some k → k < 256
  token : n ∈ tokenKinds → ∃ w, owner = withToken w
  fault : n = 20 → owner = ownFaultClear

/-- A row has an owner. -/
def Owned (n : Nat) (named : Option Nat) (row : Port → Stage → Instr) : Prop := ∃ owner, OwnedRow n named row owner

/-- A row that does not ask for the token. -/
theorem Owned.free {n : Nat} {named : Option Nat} {row : Port → Stage → Instr} {owner : Owner}
    (h : ∀ p g s, Machine.exec (row p g) s = whenReleased s (request (rowStage n g) p (rowAccepts n named) owner))
    (hk : isRequestKind n = true := by decide) (hc : ∀ k, named = some k → k < 256 := by simp)
    (ht : n ∉ tokenKinds := by decide) (hf : n ≠ 20 := by decide) : Owned n named row :=
  ⟨owner, h, hk, hc, fun k => absurd k ht, fun k => absurd k hf⟩

/-- A row that asks for the token. -/
theorem Owned.held {n : Nat} {row : Port → Stage → Instr} {owner : Owner}
    (h : ∀ p g s, Machine.exec (row p g) s = whenReleased s (request (rowStage n g) p (rowAccepts n none) (withToken owner)))
    (hk : isRequestKind n = true := by decide) (hf : n ≠ 20 := by decide) : Owned n none row :=
  ⟨withToken owner, h, hk, by simp, fun _ => ⟨owner, rfl⟩, fun k => absurd k hf⟩

/-- Every row of the request table has its owner. -/
theorem requestTable_owned (o : OverrideOrder) : ∀ r ∈ requestTable o, Owned r.1 r.2.1 r.2.2 := by
  simp only [requestTable, List.forall_mem_cons]
  refine ⟨.free (owner := ownIdentify) fun _ _ _ => rfl, .free (owner := ownReadState) fun _ _ _ => rfl,
    .free (owner := ownReadProfile) fun _ _ _ => rfl, .free (owner := ownReadSummary) fun _ _ _ => rfl,
    .free (owner := ownReadZones) fun _ _ _ => rfl, .free (owner := ownReadFixed) fun _ _ _ => rfl,
    .free (owner := ownReadAlarms) fun _ _ _ => rfl, .free (owner := ownReadBreakLog) fun _ _ _ => rfl,
    .free (owner := ownWriteBank) fun _ _ _ => rfl, .held (owner := ownWriteCommon) fun _ _ _ => rfl,
    .free (owner := ownSelectGrade) fun _ _ _ => rfl, .free (owner := ownWriteZoneMap) fun _ _ _ => rfl,
    .free (owner := ownClaim) fun _ _ _ => rfl, .free (owner := ownRelease) fun _ _ _ => rfl,
    .held (owner := ownSetPlan) fun _ _ _ => rfl, .held (owner := ownHold) fun _ _ _ => rfl,
    .held (owner := ownStep) fun _ _ _ => rfl, .held (owner := ownResume) fun _ _ _ => rfl,
    .held (owner := ownStandardize) fun _ _ _ => rfl,
    ⟨ownFaultClear, fun _ _ _ => rfl, by decide, by simp, fun k => absurd k (by decide), fun _ => rfl⟩,
    .free (owner := ownSpeed o) fun _ _ _ => rfl, .free (owner := ownDeclare o) fun _ _ _ => rfl,
    .free (owner := ownDeclare .overrideFirst) fun _ _ _ => rfl, .free (owner := ownDeclare .overrideFirst) fun _ _ _ => rfl,
    .free (owner := ownDeclare o) fun _ _ _ => rfl, .free (owner := ownPark) fun _ _ _ => rfl,
    .free (owner := ownPark) fun _ _ _ => rfl, .free (owner := ownAckAlarm) fun _ _ _ => rfl,
    .free (owner := ownSetDescriptor) fun _ _ _ => rfl, .free (owner := ownRestart) fun _ _ _ => rfl,
    .free (owner := ownHeadRestart) fun _ _ _ => rfl, by simp⟩

/-- A message for a row is one the row accepts. -/
theorem OwnedRow.accepts {n : Nat} {named : Option Nat} {row : Port → Stage → Instr} {owner : Owner}
    (h : OwnedRow n named row owner) {m : InMsg} (hm : forRow n named m) :
    m.kind.toNat = n ∧ rowAccepts n named m = true := by
  obtain ⟨hkind, hcode⟩ := hm
  have hlt := isRequestKind_lt h.kind
  have hn : m.kind.toNat = n := by rw [hkind, byte_toNat (by omega)]
  refine ⟨hn, ?_⟩
  cases named with
  | none => simp [rowAccepts, ofKind, hn]
  | some k =>
    by_cases hl : m.payload.length = 1
    · have hp := hcode k rfl hl
      have : fieldAt m.payload 0 1 = k := by rw [hp, fieldAt_byte, byte_toNat (h.code k rfl)]
      simp [rowAccepts, ofCode, ofKind, hn, this]
    · simp [rowAccepts, ofCode, ofKind, hn, hl]

theorem rowStage_whole (n : Nat) : rowStage n .whole = .whole := by
  unfold rowStage
  split <;> rfl

theorem rowStage_answer (n : Nat) : rowStage n .answer = .answer := by
  unfold rowStage
  split <;> rfl

theorem rowStage_take {n : Nat} (h : n ∉ [1, 2, 25, 26]) : rowStage n .take = .take := by
  unfold rowStage
  split
  all_goals first | rfl | exact absurd (by decide) h

theorem rowStage_own {n : Nat} (h : n ∈ [1, 2, 25, 26]) : rowStage n .take = .whole := by
  simp only [List.mem_cons, List.not_mem_nil, or_false] at h
  rcases h with e | e | e | e <;> subst e <;> rfl

/-! ### The port's checks (R195) -/

/-- The ports the request table permits a kind on. -/
theorem permitted_iff {p : Port} {n : Nat} (h : isRequestKind n = true) : permitted p n = true ↔
    p ∈ (if n ∈ [9, 27] then [Port.quality] else if n ∈ [10, 11, 26] then [.quality, .machine]
      else if n = 12 then [.actuator] else if n ∈ [21, 22, 23] then [.machine] else [.quality, .machine, .actuator]) := by
  have hall : ∀ n < 28, ∀ p ∈ allPorts, (permitted p n = true ↔
      p ∈ (if n ∈ [9, 27] then [Port.quality] else if n ∈ [10, 11, 26] then [.quality, .machine]
        else if n = 12 then [.actuator] else if n ∈ [21, 22, 23] then [.machine] else [.quality, .machine, .actuator])) := by
    decide
  have hn : n < 28 := by
    simp [isRequestKind] at h
    omega
  exact hall n hn p (by cases p <;> decide)

/-- The length each kind's fields need. -/
theorem lenOk_iff {n : Nat} (h : isRequestKind n = true) (pl : List Byte) : lenOk n pl = true ↔
    (if n = 9 then pl.length = 47 + 4 * (fieldAt pl 14 1 + fieldAt pl (15 + 4 * fieldAt pl 14 1) 1)
      else if n = 10 then 1 ≤ pl.length ∧ pl.length = 1 + 4 * fieldAt pl 0 1
      else if n = 12 then 8 ≤ pl.length ∧ pl.length ≤ 244 ∧ pl.length % 4 = 0
      else if n = 3 then pl.length = 13 else if n = 4 then pl.length = 5 else if n ∈ [5, 11, 22, 23, 24] then pl.length = 1
      else if n = 15 then pl.length = 20 else if n = 21 then pl.length = 2 else if n = 25 then pl.length = 12
      else pl.length = 0) := by
  simp [isRequestKind] at h
  obtain ⟨h1, h2⟩ := h
  interval_cases n <;> simp [lenOk, and_assoc]

/-- R195: the check that fails first, by the row of the kind. -/
theorem portCheck_of_kind {p : Port} {m : InMsg} {n : Nat} (hn : m.kind.toNat = n) (h : isRequestKind n = true) :
    (permitted p n = false → portCheck p m = some rcNotPermitted) ∧
    (permitted p n = true → lenOk n m.payload = false → portCheck p m = some rcBadField) ∧
    (permitted p n = true → lenOk n m.payload = true → portCheck p m = none) := by
  refine ⟨fun hp => ?_, fun hp hl => ?_, portCheck_none hn h⟩
  · simp [portCheck, hn, h, hp]
  · simp [portCheck, hn, h, hp, hl]

section
variable {n : Nat} {named : Option Nat} {row : Port → Stage → Instr} {owner : Owner} {s : State} {p : Port} {m : InMsg}

/-- A message the port refuses (R195). -/
theorem OwnedRow.refused (h : OwnedRow n named row owner) (hw : waits s p m (replyNeed m.kind.toNat)) (hm : forRow n named m)
    {rc : Byte} (hc : portCheck p m = some rc) : Machine.exec (row p .whole) s = .next (answered s p m [[rc]]) := by
  obtain ⟨hn, ha⟩ := h.accepts hm
  have hlt := isRequestKind_lt h.kind
  rw [exec_released (h.exec p .whole s) hw.1, rowStage_whole, request_refused owner hw ha rfl (by omega) hc]

/-- A message the port passes on, to an owner that changes nothing (R195). -/
theorem OwnedRow.answered (h : OwnedRow n named row owner) (hw : waits s p m (replyNeed m.kind.toNat)) (hm : forRow n named m)
    (hp : permitted p n = true) (hl : lenOk n m.payload = true) {rc : Byte}
    (ho : owner p m (s.updPort p (takenPort m)) = (s.updPort p (takenPort m), [[rc]])) :
    Machine.exec (row p .whole) s = .next (answered s p m [[rc]]) := by
  obtain ⟨hn, ha⟩ := h.accepts hm
  have hlt := isRequestKind_lt h.kind
  have hneed : 1 ≤ replyNeed m.kind.toNat := by
    unfold replyNeed
    split <;> decide
  have hrow : Row s p m (replyNeed m.kind.toNat) (rowAccepts n named) :=
    ⟨hw, ha, rfl, by omega, (portCheck_of_kind hn h.kind).2.2 hp hl⟩
  exact hrow.exec_answered ((h.exec p .whole s).trans (by rw [rowStage_whole])) ho hneed

end

/-- Settles O37: the port's checks by the row, then the token. -/
theorem portsRefuseRequests : Obligations.PortsRefuseRequests := by
  intro s p m hw len
  refine ⟨fun hk => ?_, fun o n named row hrow hm => ?_⟩
  · have hno : isRequestKind m.kind.toNat = false := by
      simp [isRequestKind]
      omega
    have hc : portCheck p m = some rcUnknownKind := by simp [portCheck, hno]
    have e : unknownKind p s = answered s p m [[rcUnknownKind]] :=
      takeMessage_refused hw (by simp [hno]) rfl (by omega) hc
    rw [exec_released (f := unknownKind p) rfl hw.1, e]
    rfl
  · intro allowed nB needed
    obtain ⟨owner, h⟩ := requestTable_owned o _ hrow
    obtain ⟨hn, _⟩ := h.accepts hm
    obtain ⟨hforbidden, hshort, _⟩ := portCheck_of_kind (p := p) hn h.kind
    have hallowed : permitted p n = true ↔ p ∈ allowed := permitted_iff h.kind
    have hneeded : lenOk n m.payload = true ↔ needed := lenOk_iff h.kind m.payload
    refine ⟨fun hp => ?_, fun hp hl => ?_, fun hp hl ht hh => ?_, fun q hp hl hf hh hq => ?_⟩
    · exact h.refused hw hm (hforbidden (by rw [← Bool.not_eq_true, hallowed]; exact hp))
    · exact h.refused hw hm (hshort (hallowed.2 hp) (by rw [← Bool.not_eq_true, hneeded]; exact hl))
    · obtain ⟨w, hw'⟩ := h.token ht
      refine h.answered hw hm (hallowed.2 hp) (hneeded.2 hl) ?_
      rw [hw']
      exact withToken_of_not hh
    · refine h.answered hw hm (hallowed.2 hp) (hneeded.2 hl) ?_
      rw [h.fault hf]
      refine if_pos ⟨?_, ?_⟩
      · show s.cta.holder.isSome = true
        rw [hh]
        rfl
      · show s.cta.holder ≠ some p
        rw [hh]
        exact fun e => hq (Option.some.inj e)

/-! ### The two halves of a row (R195, R197; log entry 6) -/

/-- A port that handles a request takes no other. -/
theorem takeMessage_busy {p : Port} {accepts : InMsg → Bool} {s : State} (h : (s.ports.get p).handling ≠ none) :
    takeMessage p accepts s = s := by
  unfold takeMessage
  split
  · rfl
  · refine if_neg ?_
    have : (s.ports.get p).handling.isNone = false := by
      rw [← Bool.not_eq_true, Option.isNone_iff_eq_none]
      exact h
    simp [mayTake, this]

/-- A port without the room its reply may need takes no message. -/
theorem takeMessage_full {p : Port} {m : InMsg} {accepts : InMsg → Bool} {s : State}
    (hm : (s.ports.get p).inbound.head? = some m) (hh : (s.ports.get p).handling = none)
    (hf : 32 < (s.ports.get p).outbound.length + replyNeed m.kind.toNat) : takeMessage p accepts s = s := by
  unfold takeMessage
  split
  · rfl
  · next x rest e =>
    have hx : x = m := by simpa [e] using hm
    have hneed : ¬ replyNeed x.kind.toNat ≤ (s.ports.get p).free := by
      rw [hx]
      simp only [PortState.free, PortState.occupied, PortState.reserved, hh]
      have : 1 ≤ replyNeed m.kind.toNat := by unfold replyNeed; split <;> decide
      simp
      omega
    refine if_neg ?_
    simp [mayTake, hneed]

theorem answerHandled_none {p : Port} {accepts : InMsg → Bool} {owner : Owner} {s : State}
    (h : (s.ports.get p).handling = none) : answerHandled p accepts owner s = s := by
  unfold answerHandled
  rw [h]

/-- A row that takes nothing, in one step or in its first half. -/
theorem request_idle {g : Stage} {p : Port} {accepts : InMsg → Bool} {owner : Owner} {s : State}
    (h : takeMessage p accepts s = s) (hg : g ≠ .answer) : request g p accepts owner s = s := by
  cases g with
  | take => exact h
  | answer => exact absurd rfl hg
  | whole =>
    unfold request
    cases hh : (s.ports.get p).handling with
    | some x => rfl
    | none =>
      rw [if_neg (by simp), h]
      exact answerHandled_none hh

theorem replyNeed_eq (n : Nat) : replyNeed n = if n = 5 then 4 else if n = 8 then 3 else if n = 2 ∨ n = 7 then 2 else 1 := by
  unfold replyNeed
  split
  · rfl
  · rfl
  · rfl
  · rfl
  · next h1 h2 h3 h4 =>
    rw [if_neg h4, if_neg h3, if_neg (not_or.2 ⟨h1, h2⟩)]

theorem rowStage_idle (n : Nat) {g : Stage} (h : g ≠ .answer) : rowStage n g ≠ .answer := by
  unfold rowStage
  cases g
  · split <;> decide
  · split <;> decide
  · exact absurd rfl h

/-- Settles O38: the rows by their stage. -/
theorem requestsAreTakenThenAnswered : Obligations.RequestsAreTakenThenAnswered := by
  intro o n named row hrow s p m hheld hm ps need
  obtain ⟨owner, h⟩ := requestTable_owned o _ hrow
  obtain ⟨hn, ha⟩ := h.accepts hm
  have hlt := isRequestKind_lt h.kind
  have hneed : replyNeed m.kind.toNat = need := by rw [hn]; exact replyNeed_eq n
  have hexec : ∀ g, exec (row p g) s = .next (request (rowStage n g) p (rowAccepts n named) owner s) := fun g =>
    exec_released (h.exec p g s) hheld
  have hidle : takeMessage p (rowAccepts n named) s = s → exec (row p .take) s = .next s ∧ exec (row p .whole) s = .next s :=
    fun ht => by
      rw [hexec, hexec, request_idle ht (rowStage_idle n (by decide)), request_idle ht (rowStage_idle n (by decide))]
      exact ⟨rfl, rfl⟩
  refine ⟨fun hhead hfree => ⟨fun hnot hc hroom => ?_, fun hfull => hidle (takeMessage_full hhead hfree (by rw [hneed]; exact hfull)),
    fun hnot t ht => ?_⟩, fun hin => ?_, fun hbusy => hidle (takeMessage_busy hbusy), fun k hk h1 => ?_⟩
  · have hw : waits s p m need := ⟨hheld, hhead, hfree, hroom⟩
    rw [hexec, rowStage_take hnot]
    show Host.Outcome.next (takeMessage p (rowAccepts n named) s) = _
    rw [takeMessage_ok hw ha hneed hc, State.updPort_eq, takenPort, hneed, List.drop_one]
  · have htake : t = takeMessage p (rowAccepts n named) s := by
      rw [hexec, rowStage_take hnot] at ht
      exact (Host.Outcome.next.inj ht).symm
    have hheld' : t.held = false := by
      rw [htake]
      unfold takeMessage
      split
      · exact hheld
      · split <;> exact hheld
    rw [hexec, rowStage_whole, exec_released (h.exec p .answer t) hheld', rowStage_answer, htake]
    refine congrArg Host.Outcome.next (if_neg ?_)
    rw [show (s.ports.get p).handling = none from hfree]
    decide
  · rw [hexec, hexec, rowStage_own hin, rowStage_whole]
  · rw [hexec, rowStage_answer]
    have : answerHandled p (rowAccepts n named) owner s = s.updPort p (queueReply m [[rcWrongState]] k) := by
      unfold answerHandled
      rw [show (s.ports.get p).handling = _ from hk]
      simp only [ha, if_pos]
    show Host.Outcome.next (answerHandled p (rowAccepts n named) owner s) = _
    rw [this, State.updPort_eq, queueReply_eq _ (by omega) h1]
    rfl

end Sys2Proof.Machine
end

section
/-! PROOFS. The requests that read (R120, R121, R129, R140, R159, R174, R192, R199). -/

namespace Sys2Proof.Machine

open Safety

/-! ### Replies in parts (R192) -/

theorem bytesBE_one (n : Nat) : bytesBE 1 n = [BitVec.ofNat 8 n] := by simp [bytesBE]

/-- The head of one part of a reply. -/
def partHead (i n : Nat) : List Byte := [0, BitVec.ofNat 8 i, BitVec.ofNat 8 n]

theorem inParts_range (n : Nat) (f : Nat → List Byte) :
    inParts ((List.range n).map f) = (List.range n).map (fun i => partHead (i + 1) n ++ f i) := by
  refine List.ext_getElem (by simp [inParts]) fun i h1 h2 => ?_
  simp [inParts, bytesBE_one, partHead, rcOk]

theorem inParts_pair (a b : List Byte) : inParts [a, b] = [partHead 1 2 ++ a, partHead 2 2 ++ b] := by
  simp [inParts, bytesBE_one, partHead, rcOk]

/-! ### What a reading row reads of a port that has taken a request -/

theorem statePart1_taken (s : State) (p : Port) (m : InMsg) : statePart1 (s.updPort p (takenPort m)) = statePart1 s := rfl

theorem statePart2_taken (s : State) (p : Port) (m : InMsg) : statePart2 (s.updPort p (takenPort m)) p = statePart2 s p := by
  unfold statePart2
  rw [State.updPort_get_same]
  rfl

theorem alarmsReply_eq (levels : Vector Nat 30) (ceiling : Nat) (a : Alt) :
    let head := bytesBE 1 a.floor ++ bytesBE 1 ceiling
    alarmsReply levels ceiling a = [partHead 1 2 ++ head ++ ((List.finRange 30).take 15).flatMap (alarmEntry levels a),
      partHead 2 2 ++ head ++ ((List.finRange 30).drop 15).flatMap (alarmEntry levels a)] := by
  intro head
  have h1 : (List.finRange 30).filter (fun i => decide (0 ≤ i.val) && decide (i.val < 0 + 15)) = (List.finRange 30).take 15 := by
    decide
  have h2 : (List.finRange 30).filter (fun i => decide (15 ≤ i.val) && decide (i.val < 15 + 15)) = (List.finRange 30).drop 15 := by
    decide
  unfold alarmsReply
  dsimp only
  rw [inParts_pair, h1, h2]
  simp only [head, List.append_assoc]

/-- Settles O39: each reading row on the state as it stands. -/
theorem tablesAreRead : Obligations.TablesAreRead := by
  intro s p m part
  have hpart : ∀ i n, part i n = partHead i n := fun _ _ => rfl
  refine ⟨fun hw hk hpl => ?_, fun hw hk hpl => ?_, fun hw hk => ?_, fun hw hk name side hside => ?_, fun hw hk c hpl hc => ?_,
    fun hw hk hpl => ?_, fun hw hk hpl => ?_, fun hw hk hpl hlen => ?_⟩
  · have row : Row s p m 1 (ofKind 1) := Row.of_kind hw hk (by rw [hpl]; rfl) (by cases p <;> rfl)
    refine row.exec_answered (owner := ownIdentify) rfl ?_ (Nat.le_refl 1)
    cases p <;> rfl
  · have row : Row s p m 2 (ofKind 2) := Row.of_kind hw hk (by rw [hpl]; rfl) (by cases p <;> rfl)
    have hown : ownReadState p m (s.updPort p (takenPort m)) = ((s.withPorts (s.updPort p (takenPort m)).ports).updPort p
        (fun x => { x with lost := 0 }), [partHead 1 2 ++ statePart1 s, partHead 2 2 ++ statePart2 s p]) := by
      rw [ownReadState, statePart1_taken, statePart2_taken, inParts_pair]
      rfl
    rw [row.exec_port (owner := ownReadState) (c := .readState p .whole) rfl (fun x => { x with lost := 0 }) hown (Nat.le_refl 2)]
    have hfree : (none : Option Handling) = (s.ports.get p).handling := hw.2.2.1.symm
    simp only [takenPort, hfree, List.drop_one]
    rfl
  · have row : m.payload.length = 5 → Row s p m 1 (ofKind 4) := fun hl =>
      Row.of_kind hw hk (by simp [lenOk, hl]) (by cases p <;> rfl)
    have hanswer : ∀ sel o, m.payload.length = 5 → genSelect m.payload 0 = some sel → resolve s.pen sel = o →
        exec (.readSummary p .whole) s = .next (answered s p m [match o with | none => [rcNoSuch] | some g => [rcOk] ++ summaryBody g]) :=
      fun sel o hl hsel ho => by
        refine (row hl).exec_answered (owner := ownReadSummary) rfl ?_ (Nat.le_refl 1)
        rw [ownReadSummary, hsel]
        dsimp only
        rw [show resolve (s.updPort p (takenPort m)).pen sel = o from ho]
        cases o <;> rfl
    have hnumber : ∀ n : ScanNo, m.payload = [1] ++ bytesBE 4 n.toNat → m.payload.length = 5 ∧
        genSelect m.payload 0 = some (selected false n) := fun n hpl => by
      have := genSelect_selected false n []
      rw [List.append_nil] at this
      exact ⟨by rw [hpl]; rfl, by rw [hpl]; exact this⟩
    refine ⟨fun n3 n2 n1 n0 g hpl hlast hg => ?_, fun g hpl hg => ?_, fun n hpl hnone => ?_, fun c n3 n2 n1 n0 hpl hc => ?_⟩
    · refine hanswer .latest (some g) (by rw [hpl]; rfl) ?_ (resolve_selected (latest := true) (scan := 0) hg hlast)
      rw [genSelect, hpl, fieldAt_byte]
      rfl
    · obtain ⟨hl, hsel⟩ := hnumber _ hpl
      exact hanswer _ (some g) hl hsel (resolve_selected (latest := false) hg rfl)
    · obtain ⟨hl, hsel⟩ := hnumber _ hpl
      exact hanswer _ none hl hsel (resolve_selected_none (latest := false) hnone)
    · refine (row (by rw [hpl]; rfl)).exec_answered (owner := ownReadSummary) rfl ?_
      rw [ownReadSummary, genSelect_none (by rw [hpl, fieldAt_byte]; exact hc)]
      rfl
  · obtain ⟨c, hpl, hname, hs⟩ : ∃ c : Byte, m.payload = [c] ∧ mapOfCode c.toNat = some name ∧ s.azm.side name = side := by
      rcases hside with ⟨rfl, hpl, rfl⟩ | ⟨rfl, hpl, rfl⟩
      · exact ⟨0, hpl, rfl, rfl⟩
      · exact ⟨1, hpl, rfl, rfl⟩
    have row : Row s p m 4 (ofKind 5) := Row.of_kind hw hk (by rw [hpl]; rfl) (by cases p <;> rfl)
    have hfield : mapOfCode (fieldAt m.payload 0 1) = some name := by rw [hpl, fieldAt_byte, hname]
    have htaken : (s.updPort p (takenPort m)).azm.side name = side := hs
    refine ⟨fun hn => ?_, fun z hz hlen => ?_⟩
    · refine row.exec_answered (owner := ownReadZones) rfl ?_
      rw [ownReadZones, hfield]
      dsimp only
      rw [htaken, hn]
      rfl
    · intro n
      refine row.exec_answered (owner := ownReadZones) rfl ?_ ?_
      · rw [ownReadZones, hfield]
        dsimp only
        rw [htaken, hz]
        dsimp only
        rw [zonesReply, inParts_range]
        rfl
      · rw [List.length_map, List.length_range]
        omega
  · have row : Row s p m 4 (ofKind 5) := Row.of_kind hw hk (by rw [hpl]; rfl) (by cases p <;> rfl)
    refine row.exec_answered (owner := ownReadZones) rfl ?_
    have : mapOfCode (fieldAt m.payload 0 1) = none := by
      obtain ⟨k, hk⟩ := Nat.exists_eq_add_of_le' hc
      rw [hpl, fieldAt_byte, hk]
      rfl
    rw [ownReadZones, this]
    rfl
  · have row : Row s p m 1 (ofKind 6) := Row.of_kind hw hk (by rw [hpl]; rfl) (by cases p <;> rfl)
    refine ⟨fun hn => ?_, fun r hr => ?_⟩
    · refine row.exec_answered (owner := ownReadFixed) rfl ?_
      rw [ownReadFixed, show (s.updPort p (takenPort m)).pen.fixedRec = none from hn]
      rfl
    · refine row.exec_answered (owner := ownReadFixed) rfl ?_ (Nat.le_refl 1)
      rw [ownReadFixed, show (s.updPort p (takenPort m)).pen.fixedRec = some r from hr]
      simp [fixedReply, allProps, PerProp.get, cycleBytes, rcOk]
  · intro head entry
    have row : Row s p m 2 (ofKind 7) := Row.of_kind hw hk (by rw [hpl]; rfl) (by cases p <;> rfl)
    refine row.exec_answered (owner := ownReadAlarms) rfl ?_ (Nat.le_refl 2)
    rw [ownReadAlarms, alarmsReply_eq]
    rfl
  · intro n
    have row : Row s p m 3 (ofKind 8) := Row.of_kind hw hk (by rw [hpl]; rfl) (by cases p <;> rfl)
    refine row.exec_answered (owner := ownReadBreakLog) rfl ?_ ?_
    · rw [ownReadBreakLog, breakLogReply, inParts_range]
      simp only [← List.append_assoc]
      rfl
    · rw [List.length_map, List.length_range]
      omega

end Sys2Proof.Machine
end

section
/-! PROOFS. The slots of a cycle with no sequence in flight (R28, R31, R32, R33). -/

namespace Sys2Proof.Machine

open Safety

/-! ### Sorting -/

theorem sortSample_good (st : HeadState) {w : UplinkWord} (hp : bitsSet w % 2 = 0) (hf : w.fault = false)
    (hb : strayBusy st w = false) : sortSample st (some w) = .good w := by
  simp [sortSample, parityOk, hp, hf, hb]

theorem sortSample_oddParity (st : HeadState) {w : UplinkWord} (hp : bitsSet w % 2 = 1) : sortSample st (some w) = .missing := by
  simp [sortSample, parityOk, hp]

theorem sortSample_strayBusy (st : HeadState) {w : UplinkWord} (hp : bitsSet w % 2 = 0) (hf : w.fault = false)
    (hb : strayBusy st w = true) : sortSample st (some w) = .missing := by
  simp [sortSample, parityOk, hp, hf, hb]

theorem strayBusy_idle (st : HeadState) {w : UplinkWord} (hb : w.busy = false) : strayBusy st w = false := by
  simp [strayBusy, hb]

/-- The other parity bit makes an even word odd. -/
theorem bitsSet_flip {w : UplinkWord} (hp : bitsSet w % 2 = 0) : bitsSet { w with parity := !w.parity } % 2 = 1 := by
  unfold bitsSet at hp ⊢
  cases hpar : w.parity <;> simp only [hpar, Bool.not_false, Bool.not_true, Bool.toNat_true, Bool.toNat_false] at hp ⊢ <;>
    omega

/-- BUSY and the other parity bit together leave an even word even. -/
theorem bitsSet_busy {w : UplinkWord} (hp : bitsSet w % 2 = 0) (hb : w.busy = false) :
    bitsSet { w with busy := true, parity := !w.parity } % 2 = 0 := by
  unfold bitsSet at hp ⊢
  cases hpar : w.parity <;>
    simp only [hpar, hb, Bool.not_false, Bool.not_true, Bool.toNat_true, Bool.toNat_false] at hp ⊢ <;> omega

/-! ### A slot with no sequence in flight -/

theorem reportPhase_idle {s : State} (h : s.hbc.seq = none) : reportPhase s = s := by
  rw [reportPhase, h]

theorem endSequence_idle {s : State} (h : s.hbc.seq = none) : endSequence s = s := by
  rw [endSequence, h]

theorem handValue_none (ch : Channel) (s : State) : handValue ch none s = s := by
  unfold handValue
  split
  · next e => cases e
  · rfl

theorem headReadyEvent_of_set {ch : Channel} {s : State} (h : ∀ c, refChanOf ch = some c → s.scv.refs.get c ≠ none) :
    headReadyEvent ch s = s := by
  unfold headReadyEvent
  split
  · rfl
  · next c hc => rw [if_neg (fun e => h c hc (Option.isNone_iff_eq_none.mp e))]

theorem setEntry_idle (ch : Channel) (e : Option SeqEntry) : setEntry none ch e = none := by
  unfold setEntry
  split <;> rfl

theorem entryOf_idle (ch : Channel) : entryOf none ch = none := by
  unfold entryOf
  cases refChanOf ch <;> rfl

theorem absentAlarm_hbc (ch : Channel) (was now : HeadState) (s : State) : (absentAlarm ch was now s).hbc = s.hbc := by
  unfold absentAlarm
  split
  · rfl
  · split <;> rfl

theorem absentAlarm_drive (ch : Channel) (was now : HeadState) (s : State) :
    (absentAlarm ch was now s).drive = s.drive := by
  unfold absentAlarm
  split
  · rfl
  · split <;> rfl

theorem absentAlarm_scv (ch : Channel) (was now : HeadState) (s : State) : (absentAlarm ch was now s).scv = s.scv := by
  unfold absentAlarm
  split
  · rfl
  · split <;> rfl

theorem applyExam_idle {h : Hbc} (hseq : h.seq = none) (ch : Channel) (w : Option UplinkWord) (x : Exam) :
    applyExam h ch w x = { h with
      slot := slotOf ch
      heads := h.heads.set ch x.head
      record := h.record.set ch (some ⟨x.head.state, sampleOf (sortSample (h.heads.get ch).state w)⟩) } := by
  rw [applyExam, hseq, setEntry_idle, ← hseq]

/-- With no sequence in flight an examined slot moves the head, its alarm point and the record, and nothing more, unless the
head becomes READY with its reference unset. -/
theorem examinedSlot_idle {ch : Channel} {w : Option UplinkWord} {s : State} (hseq : s.hbc.seq = none) (hd : driveSettled s)
    {x : Exam} (hx : examineSlot s.hbc ch w = x) (hv : x.value = none)
    (hr : x.readied = true → ∀ c, refChanOf ch = some c → s.scv.refs.get c ≠ none) :
    examinedSlot ch w s =
      absentAlarm ch (s.hbc.heads.get ch).state x.head.state (s.withHbc (applyExam s.hbc ch w x)) := by
  generalize ht : absentAlarm ch (s.hbc.heads.get ch).state x.head.state (s.withHbc (applyExam s.hbc ch w x)) = t
  have htseq : t.hbc.seq = none := by rw [← ht, absentAlarm_hbc, State.withHbc_hbc, applyExam_idle hseq]; exact hseq
  have htd : driveSettled t := by
    unfold driveSettled at hd ⊢
    rw [← ht, absentAlarm_drive]
    exact hd
  have hready : (if x.readied then headReadyEvent ch t else t) = t := by
    split
    · next e => exact headReadyEvent_of_set (fun c hc => by rw [← ht, absentAlarm_scv]; exact hr e c hc)
    · rfl
  have he : examinedSlot ch w s = (endSequence (reportPhase
      (if x.readied then headReadyEvent ch (handValue ch x.value t) else handValue ch x.value t))).settleDrive := by
    rw [← ht, ← hx] <;> rfl
  rw [he, hv, handValue_none, hready, reportPhase_idle htseq, endSequence_idle htseq, State.settleDrive_of_settled htd]

/-! ### The examination by head state -/

/-- The head with the missing run of a sorted sample (R28). -/
def sortedHead (hd : Head) (k : Sorted) : Head := { hd with missing := missingAfter k hd.missing }

theorem examineSlot_service {h : Hbc} {ch : Channel} {w : Option UplinkWord} {k : Sorted}
    (hst : (h.heads.get ch).state = .ready ∨ (h.heads.get ch).state = .busy) (hk : sortSample (h.heads.get ch).state w = k) :
    examineSlot h ch w = examineService h.cycle h.seq (sortedHead (h.heads.get ch) k) (entryOf h.seq ch) k := by
  unfold examineSlot
  generalize h.heads.get ch = hd at hst hk ⊢
  obtain ⟨st, good, missing, cause⟩ := hd
  subst hk
  rcases hst with rfl | rfl <;> rfl

theorem examineSlot_probing {h : Hbc} {ch : Channel} {w : Option UplinkWord} {k : Sorted}
    (hst : (h.heads.get ch).state = .probing) (hk : sortSample (h.heads.get ch).state w = k) :
    examineSlot h ch w = examineProbing (sortedHead (h.heads.get ch) k) (entryOf h.seq ch) k := by
  unfold examineSlot
  generalize h.heads.get ch = hd at hst hk ⊢
  obtain ⟨st, good, missing, cause⟩ := hd
  subst hst hk
  rfl

theorem examineSlot_absent {h : Hbc} {ch : Channel} {w : Option UplinkWord} {k : Sorted}
    (hst : (h.heads.get ch).state = .absent) (hk : sortSample (h.heads.get ch).state w = k) :
    examineSlot h ch w = examineAbsent (sortedHead (h.heads.get ch) k) (entryOf h.seq ch) k := by
  unfold examineSlot
  generalize h.heads.get ch = hd at hst hk ⊢
  obtain ⟨st, good, missing, cause⟩ := hd
  subst hst hk
  rfl

/-- A head in service that no sequence asks anything keeps its state while its samples are good. -/
theorem examineService_good (now : Cycle) (hd : Head) (w : UplinkWord) :
    examineService now none hd none (.good w) = ⟨hd, none, false, none⟩ := by
  unfold examineService
  simp

/-- A missing sample short of the 16th in a row leaves a head in service. -/
theorem examineService_missing (now : Cycle) {hd : Head} (h : hd.missing ≠ 16) :
    examineService now none hd none .missing = ⟨hd, none, false, none⟩ := by
  unfold examineService
  simp [h]

theorem missingAfter_missing {m : Nat} (h : m < 16) : missingAfter .missing m = m + 1 := by
  unfold missingAfter satInc
  exact Nat.min_eq_right h

/-! ### The slots of R31, R32 and R33 -/

/-- A slot not yet passed of a head in service that stays in service, with no sequence in flight. -/
theorem exec_uplinkSample_idle {ch : Channel} {w : Option UplinkWord} {s : State} {x : Head} {r : Bool} (hheld : s.held = false)
    (hopen : s.hbc.slot < slotOf ch) (hseq : s.hbc.seq = none) (hd : driveSettled s)
    (hon : (s.hbc.heads.get ch).state ≠ .off) (hx : examineSlot s.hbc ch w = ⟨x, none, r, none⟩)
    (hr : r = true → ∀ c, refChanOf ch = some c → s.scv.refs.get c ≠ none) :
    exec (.uplinkSample ch w) s = .next (absentAlarm ch (s.hbc.heads.get ch).state x.state { s with hbc := { s.hbc with
      slot := slotOf ch
      heads := s.hbc.heads.set ch x
      record := s.hbc.record.set ch (some ⟨x.state, sampleOf (sortSample (s.hbc.heads.get ch).state w)⟩) } }) := by
  have hexec : exec (.uplinkSample ch w) s = .next (uplinkSlot ch w s) := exec_released (f := uplinkSlot ch w) rfl hheld
  have hslot : uplinkSlot ch w s = examinedSlot ch w s := by
    rw [uplinkSlot, if_neg (by simp [slotOpen, hopen]), if_neg hon]
  rw [hexec, hslot, examinedSlot_idle hseq hd hx rfl hr, applyExam_idle hseq]
  rfl

/-- Settles O15: the slot's examination by the head's state and the sorted sample. -/
theorem samplesOutsideASequence : Obligations.SamplesOutsideASequence := by
  intro ch w s hd left hheld hopen hseq hdrive heven hfault hbusy
  have hgood : ∀ st, sortSample st (some w) = .good w := fun st => sortSample_good st heven hfault (strayBusy_idle st hbusy)
  have hservice : ∀ {o : Option UplinkWord} {x : Head} {r : Bool} {o' : Option UplinkWord}, hd.state ≠ .off →
      hd.state ≠ .absent → x.state ≠ .absent → examineSlot s.hbc ch o = ⟨x, none, r, none⟩ →
      (r = true → ∀ c, refChanOf ch = some c → s.scv.refs.get c ≠ none) → sampleOf (sortSample hd.state o) = o' →
      exec (.uplinkSample ch o) s = .next (left x o') := fun hoff habs hx he hr hsample => by
    rw [exec_uplinkSample_idle hheld hopen hseq hdrive hoff he hr, absentAlarm_of_service habs hx, ← hsample]
  have hentry : entryOf s.hbc.seq ch = none := by rw [hseq, entryOf_idle]
  refine ⟨fun hst => ?ready, fun hst hm => ?missing, fun hst hg => ?probing, fun hst hg hset => ?fourth, fun hst => ?absent,
    fun hst => ?off⟩
  case ready =>
    refine hservice (by simp [hst]) (by simp [hst]) (by simp [hst]) (r := false) ?_ nofun (by rw [hgood]; rfl)
    rw [examineSlot_service (.inl hst) (hgood _), hentry, hseq]
    exact examineService_good _ _ _
  case missing =>
    have hmiss : ∀ {o : Option UplinkWord}, sortSample .ready o = .missing →
        exec (.uplinkSample ch o) s = .next (left { hd with missing := hd.missing + 1 } none) := fun ho => by
      have ho' : sortSample hd.state _ = .missing := (congrArg (sortSample · _) hst).trans ho
      have hnext : sortedHead hd .missing = { hd with missing := hd.missing + 1 } := by
        rw [sortedHead, missingAfter_missing (by omega)]
      refine hservice (by simp [hst]) (by simp [hst]) (by simp [hst]) (r := false) ?_ nofun (by rw [ho']; rfl)
      rw [examineSlot_service (.inl hst) ho', hentry, hseq, ← hnext]
      exact examineService_missing _ (by rw [hnext]; exact fun h => absurd h (by simp only; omega))
    exact ⟨hmiss rfl, hmiss (sortSample_oddParity _ (bitsSet_flip heven)),
      hmiss (sortSample_strayBusy _ (bitsSet_busy heven hbusy) hfault rfl)⟩
  case probing =>
    refine hservice (by simp [hst]) (by simp [hst]) (by simp [hst]) (r := false) ?_ nofun (by rw [hgood]; rfl)
    rw [examineSlot_probing hst (hgood _), hentry]
    exact if_neg (Nat.not_le_of_lt hg)
  case fourth =>
    refine hservice (by simp [hst]) (by simp [hst]) (by simp) (r := true) ?_ (fun _ => hset) (by rw [hgood]; rfl)
    rw [examineSlot_probing hst (hgood _), hentry]
    exact if_pos (Nat.le_of_eq hg.symm)
  case absent =>
    have he : examineSlot s.hbc ch (some w) = ⟨{ hd with state := .probing, missing := 0, good := 1 }, none, false, none⟩ := by
      rw [examineSlot_absent hst (hgood _), hentry] <;> rfl
    have hst' : (s.hbc.heads.get ch).state = .absent := hst
    refine ⟨_, exec_uplinkSample_idle hheld hopen hseq hdrive (by simp [hst']) he nofun, ?_, ?_⟩
    · rw [absentAlarm_hbc, hgood] <;> rfl
    · rw [hst']
      exact State.returnAlarm_over _ _
  case off =>
    have hst' : (s.hbc.heads.get ch).state = .off := hst
    have hexec : exec (.uplinkSample ch (some w)) s = .next (uplinkSlot ch (some w) s) :=
      exec_released (f := uplinkSlot ch (some w)) rfl hheld
    rw [hexec, uplinkSlot, if_neg (by simp [slotOpen, hopen]), if_pos hst'] <;> rfl

end Sys2Proof.Machine
end

section
/-! PROOFS. The start of a cycle under an unchanged mask, and the choice of the downlink command (R26, R27, R35, R38). -/

namespace Sys2Proof.Machine

open Safety

theorem PerRef.ext_get {α : Type} {a b : PerRef α} (h : ∀ c, a.get c = b.get c) : a = b := by
  obtain ⟨a1, a2, a3⟩ := a
  obtain ⟨b1, b2, b3⟩ := b
  have h1 : a1 = b1 := h .beta
  have h2 : a2 = b2 := h .irw
  have h3 : a3 = b3 := h .cal
  rw [h1, h2, h3]

theorem PerRef.any_of {α : Type} {f : α → Bool} {t : PerRef α} {c : RefChan} (h : f (t.get c) = true) : t.any f = true := by
  cases c <;> simp_all [PerRef.any, PerRef.get]

/-- The head bus at the start of a cycle, before its downlink command (R26). -/
def begunBus (h : Hbc) (c : Cmu) : Hbc :=
  { h with
    cycle := h.cycle + 1
    slot := 0
    record := ⟨none, none, none, none, none⟩
    snapshot := ⟨c.position, c.state, c.direction⟩ }

theorem numberCycle_eq (s : State) : numberCycle s = s.withHbc (begunBus s.hbc s.cmu) := rfl

theorem exec_cycleStart {s : State} (h : s.held = false) : exec .cycleStart s = .next (beginCycle s.tick) :=
  exec_released (f := fun s => beginCycle s.tick) rfl h

/-- A cycle with no RESET and an unchanged mask only chooses its downlink command. -/
theorem exec_cycleStart_quiet {s : State} (h : s.held = false) (hr : s.hbc.resetPending = false)
    (hm : s.rbs.common.mask = s.hbc.mask) :
    exec .cycleStart s = .next (chooseDownlink (numberCycle s.tick)).settleDrive := by
  have hmask : applyMask (numberCycle s.tick) = numberCycle s.tick := applyMask_of_same hm
  rw [exec_cycleStart h, beginCycle_eq, hmask, if_neg (by rw [numberCycle_eq]; exact fun e => nomatch hr.symm.trans e)]

theorem chooseDownlink_idle {s : State} (hq : s.hbc.seq = none) (hr : s.hbc.heldRef = none) :
    chooseDownlink s = s.withHbc { s.hbc with downlink := .idle } := by
  simp only [chooseDownlink, hq, hr]

theorem chooseDownlink_reference {s : State} {named : PerRef Bool} (hq : s.hbc.seq = none) (hr : s.hbc.heldRef = some named) :
    chooseDownlink s = sendReference named s := by
  simp only [chooseDownlink, hq, hr]

theorem chooseDownlink_fetch {s : State} {q : Sequence} {c : RefChan} (hq : s.hbc.seq = some q) (hc : nextFetch q = some c) :
    chooseDownlink s = sendFetch q c s := by
  simp only [chooseDownlink, hq, hc]

theorem addressedSet_get (h : Hbc) (named : PerRef Bool) (c : RefChan) :
    (addressedSet h named).get c = (named.get c && decide ((h.heads.get c.chan).state = .ready)) := by
  cases c <;> rfl

/-- R38: the channel is asked for and still DONE SEEN. -/
def fetchable (q : Sequence) (c : RefChan) : Bool := (q.entries.get c).elim false (fun e => e.asked && e.phase == .doneSeen)

theorem nextFetch_eq (q : Sequence) : nextFetch q = if q.abandoned then none else allRefChans.find? (fetchable q) := rfl

/-- R38: the channel fetched next is the first of the slots that is asked for and DONE SEEN. -/
theorem nextFetch_lowest {q : Sequence} {k : RefChan} {e : SeqEntry} (ha : q.abandoned = false)
    (he : q.entries.get k = some e) (hask : e.asked = true) (hph : e.phase = .doneSeen)
    (hlow : ∀ j e', slotOf j.chan < slotOf k.chan → q.entries.get j = some e' → e'.asked = false ∨ e'.phase ≠ .doneSeen) :
    nextFetch q = some k := by
  have hk : fetchable q k = true := by simp [fetchable, he, hask, hph]
  have hj : ∀ j : RefChan, slotOf j.chan < slotOf k.chan → ¬ fetchable q j = true := fun j hlt => by
    cases hej : q.entries.get j with
    | none => simp [fetchable, hej]
    | some e' => rcases hlow j e' hlt hej with h | h <;> simp [fetchable, hej, h]
  rw [nextFetch_eq, ha, if_neg Bool.false_ne_true, allRefChans]
  cases k with
  | beta => rw [List.find?_cons_of_pos hk]
  | irw => rw [List.find?_cons_of_neg (hj .beta (by decide)), List.find?_cons_of_pos hk]
  | cal =>
    rw [List.find?_cons_of_neg (hj .beta (by decide)), List.find?_cons_of_neg (hj .irw (by decide)),
      List.find?_cons_of_pos hk]

/-- Settles O14: the three forms of a downlink command without RESET. -/
theorem downlinkCommandIsChosen : Obligations.DownlinkCommandIsChosen := by
  intro s hheld hreset hmask c begun
  have hexec := exec_cycleStart_quiet hheld hreset hmask
  refine ⟨fun hq hr => ?idle, fun named addressed hq hr haddr hsome => ?reference,
    fun q k e hq hab he hask hph hlow => ?fetch⟩
  case idle =>
    have hsend := chooseDownlink_idle (s := numberCycle s.tick) hq hr
    exact ⟨_, hexec, by rw [hsend]; rfl, by rw [hsend]; rfl, by rw [hsend]; rfl⟩
  case reference =>
    have hset : addressedSet (numberCycle s.tick).hbc named = addressed :=
      PerRef.ext_get fun k => (addressedSet_get _ _ k).trans (haddr k).symm
    have hany : addressed.any id = true := by
      obtain ⟨k, hk⟩ := hsome
      exact PerRef.any_of (f := id) hk
    have hsend : chooseDownlink (numberCycle s.tick) = (numberCycle s.tick).withHbc { (numberCycle s.tick).hbc with
        heldRef := none
        downlink := .reference addressed
        seq := some ⟨(numberCycle s.tick).hbc.cycle, false, addressed.map freshEntry, false⟩ } := by
      rw [chooseDownlink_reference (s := numberCycle s.tick) hq hr, sendReference, hset]
      exact if_pos hany
    refine ⟨_, _, hexec, by rw [hsend]; rfl, rfl, rfl, fun k => ?_, by rw [hsend]; rfl, by rw [hsend]; rfl⟩
    rw [PerRef.get_map, freshEntry]
  case fetch =>
    have hsend : chooseDownlink (numberCycle s.tick) = sendFetch q k (numberCycle s.tick) :=
      chooseDownlink_fetch hq (nextFetch_lowest hab he hask hph hlow)
    refine ⟨_, hexec, ?_, by rw [hsend]; rfl, by rw [hsend]; rfl⟩
    rw [hsend]
    simp only [sendFetch, he, Option.map_some] <;> rfl

end Sys2Proof.Machine
end

section
/-! PROOFS. What the start of a cycle keeps: the cycle's own record through the reports, the interlock's release and a RESET,
the return of HEAD ABSENT, and the standardization an enabled channel makes due (R26, R30, R33, R42, R45, R55). -/

namespace Sys2Proof.Machine

open Safety

/-! ### The cycle's record and the standardization that is owed -/

/-- The fields of the head bus that a cycle start has set and nothing later in its event moves. -/
structure SameCycle (h h' : Hbc) : Prop where
  cycle : h'.cycle = h.cycle
  snapshot : h'.snapshot = h.snapshot
  record : h'.record = h.record
  slot : h'.slot = h.slot
  lastRecord : h'.lastRecord = h.lastRecord
  mask : h'.mask = h.mask

theorem SameCycle.of_eq {h h' : Hbc} (e : h' = h) : SameCycle h h' := by
  subst e
  exact ⟨rfl, rfl, rfl, rfl, rfl, rfl⟩

theorem SameCycle.trans {a b c : Hbc} (h : SameCycle a b) (k : SameCycle b c) : SameCycle a c :=
  ⟨k.cycle.trans h.cycle, k.snapshot.trans h.snapshot, k.record.trans h.record, k.slot.trans h.slot,
    k.lastRecord.trans h.lastRecord, k.mask.trans h.mask⟩

theorem sameCycle_abandonSeq (h : Hbc) : SameCycle h (abandonSeq h) := by
  unfold abandonSeq
  split <;> exact ⟨rfl, rfl, rfl, rfl, rfl, rfl⟩

/-- HEAD ABSENT of a channel is over. -/
def absentOver (s : State) (ch : Channel) : Prop :=
  (s.alt.points[ptHeadAbsent ch]).state ∈ [PointState.normal, .returnUnack]

/-- The OSQ waits for no answer of the heads. -/
def notFetching (s : State) : Prop := s.osq.step ≠ .reference ∧ s.osq.step ≠ .fetch

/-- A standardization is due and not under way at the heads. -/
def stdDue (s : State) : Prop := s.osq.due = true ∧ notFetching s

/-- A standardization is due, or the one under way is renewed. -/
def stdOwed (s : State) : Prop := s.osq.renewal ≠ none ∨ stdDue s

/-- What every later part of a cycle start keeps. -/
structure CycleKept (s t : State) : Prop where
  bus : SameCycle s.hbc t.hbc
  position : t.cmu.position = s.cmu.position
  returned : ∀ ch, absentOver s ch → absentOver t ch
  due : stdDue s → stdDue t
  owed : stdOwed s → stdOwed t

theorem CycleKept.refl (s : State) : CycleKept s s := ⟨.of_eq rfl, rfl, fun _ => id, id, id⟩

theorem CycleKept.trans {s t u : State} (h : CycleKept s t) (k : CycleKept t u) : CycleKept s u :=
  ⟨h.bus.trans k.bus, k.position.trans h.position, fun ch => k.returned ch ∘ h.returned ch, k.due ∘ h.due, k.owed ∘ h.owed⟩

theorem cycleKept_withHbc (s : State) {x : Hbc} (h : SameCycle s.hbc x) : CycleKept s (s.withHbc x) :=
  ⟨h, rfl, fun _ => id, id, id⟩

theorem cycleKept_settleDrive (s : State) : CycleKept s s.settleDrive := ⟨.of_eq rfl, rfl, fun _ => id, id, id⟩

/-! ### The moves -/

theorem abortTraverse_osq (s : State) : (abortTraverse s).osq = s.osq := by
  unfold abortTraverse
  split <;> rfl

theorem applyPendingPlan_step (s : State) : (applyPendingPlan s).osq.step = s.osq.step :=
  congrArg View.step (view_applyPendingPlan s)

theorem keptByMoves_notFetching : KeptByMoves notFetching where
  travel _ _ _ _ _ h := h
  turn _ h := h
  limits h := h
  rest _ h := h
  atStd _ := ⟨nofun, nofun⟩
  openStd _ := ⟨nofun, nofun⟩
  abort h := by unfold notFetching; rw [abortTraverse_osq]; exact h
  grade h := by unfold notFetching; rw [(applyPendingGrade_keeps _).2.2.1]; exact h
  plan h := by unfold notFetching; rw [applyPendingPlan_step]; exact h

theorem ptHeadAbsent_not_limit (ch : Channel) : ptHeadAbsent ch ∉ limitPoints := by cases ch <;> decide

theorem ptHeadAbsent_ne_ptStdDrift (ch : Channel) (c : RefChan) : ptHeadAbsent ch ≠ ptStdDrift c := by
  cases ch <;> cases c <;> decide

theorem ptHeadAbsent_ne_ptOverdue (ch : Channel) : ptHeadAbsent ch ≠ ptOverdue := by cases ch <;> decide

theorem ptHeadAbsent_injective {a b : Channel} (h : ptHeadAbsent a = ptHeadAbsent b) : a = b := by
  revert h
  cases a <;> cases b <;> decide

theorem Motion.absentOver {s t : State} (h : Motion s t) (ch : Channel) (ho : absentOver s ch) : absentOver t ch := by
  unfold Machine.absentOver
  rw [h.points _ (ptHeadAbsent_not_limit ch)]
  exact ho

theorem Motion.cycleKept {s t : State} (h : Motion s t) (hn : notFetching s → notFetching t) : CycleKept s t :=
  have hdue : stdDue s → stdDue t := fun ⟨hd, hs⟩ => ⟨h.due hd, hn hs⟩
  ⟨.of_eq h.hbc, h.position, h.absentOver, hdue, fun ho => ho.imp (fun e => by rwa [h.renewal]) hdue⟩

theorem cycleKept_osqOccasion (s : State) : CycleKept s (osqOccasion s) :=
  (motion_osqOccasion s).cycleKept fun h => by
    unfold osqOccasion
    split
    · exact keptByMoves_notFetching.takeStd h
    · exact h

theorem cycleKept_nextMove (s : State) : CycleKept s (nextMove s) :=
  (motion_nextMove s).cycleKept keptByMoves_notFetching.nextMove

theorem cycleKept_applyPendingPlan (s : State) : CycleKept s (applyPendingPlan s) :=
  (motion_applyPendingPlan s).cycleKept keptByMoves_notFetching.plan

/-! ### The head steps' end -/

theorem setDue_fields (s : State) : (setDue s).osq.due = true ∧ (setDue s).osq.step = s.osq.step ∧
    (setDue s).osq.renewal = s.osq.renewal := by
  unfold setDue
  split
  · next h => exact ⟨h, rfl, rfl⟩
  · exact ⟨rfl, rfl, rfl⟩

/-- COMMIT moves no HEAD ABSENT point. -/
theorem commit_absentOver (s : State) (ch : Channel) (h : absentOver s ch) : absentOver (commit s) ch := by
  unfold absentOver
  rw [(commit_blocks s).1, (committedState_points s).2 _ (ptHeadAbsent_ne_ptOverdue ch),
    commitChannels_points allRefChans s (ptHeadAbsent_ne_ptStdDrift ch)]
  exact h

/-- R52: the interlock's release ends the head steps: a renewal has become due. -/
theorem cycleKept_releaseInterlock {s : State} (hw : osqWaits s = true) : CycleKept s (releaseInterlock (commit s)) := by
  obtain ⟨_, _, hcmu, hhbc, _⟩ := commit_blocks s
  generalize hu : (commit s).withOsq { (commit s).osq with step := .idle } = u
  have hrest : CycleKept u (releaseInterlock (commit s)) := by
    rw [← hu]
    exact (cycleKept_applyPendingPlan _).trans (cycleKept_nextMove _)
  have hno : ¬ stdDue s := fun ⟨_, h1, h2⟩ => (osqWaits_step hw).elim h1 h2
  refine CycleKept.trans ⟨.of_eq (by rw [← hu]; exact hhbc), by rw [← hu]; exact congrArg Cmu.position hcmu,
    fun ch ho => by rw [← hu]; exact commit_absentOver s ch ho, fun h => absurd h hno, fun h => .inr ?_⟩ hrest
  obtain ⟨r, hr⟩ := Option.ne_none_iff_exists'.1 (h.resolve_right hno)
  rw [← hu]
  refine ⟨?_, nofun, nofun⟩
  rw [State.withOsq_osq, commit_osq, hr]
  rfl

theorem cycleKept_headStepsDone (s : State) : CycleKept s (headStepsDone s) := by
  unfold headStepsDone
  split
  · next h => exact cycleKept_releaseInterlock h
  · exact CycleKept.refl s

theorem headStepsDone_hbc (s : State) : (headStepsDone s).hbc = s.hbc := by
  unfold headStepsDone
  split
  · have h := (motion_nextMove (applyPendingPlan ((commit s).withOsq { (commit s).osq with step := .idle }))).hbc
    have k := (motion_applyPendingPlan ((commit s).withOsq { (commit s).osq with step := .idle })).hbc
    exact (h.trans k).trans (commit_blocks s).2.2.2.1
  · rfl

/-! ### The reports (R37, R39) -/

/-- A channel's entry in the sequence of a head bus. -/
def inSequence (h : Hbc) (c : RefChan) (e : SeqEntry) : Prop := ∃ q, h.seq = some q ∧ q.entries.get c = some e

/-- What the reports make of the head bus: a head changes only with a channel of the sequence that is not FINISHED, and no
channel enters the sequence. -/
structure BusReported (h h' : Hbc) : Prop where
  pending : h'.resetPending = h.resetPending
  heads : ∀ ch, h'.heads.get ch = h.heads.get ch ∨ ∃ c e, ch = RefChan.chan c ∧ inSequence h c e ∧ e.phase ≠ .finished
  causes : ∀ ch, (h'.heads.get ch).cause = (h.heads.get ch).cause
  entries : ∀ c e, inSequence h' c e → ∃ e0, inSequence h c e0

theorem BusReported.of_seq {h : Hbc} {x : Option Sequence}
    (hx : ∀ q c e, x = some q → q.entries.get c = some e → ∃ e0, inSequence h c e0) : BusReported h { h with seq := x } :=
  ⟨rfl, fun _ => .inl rfl, fun _ => rfl, fun _ _ ⟨q, hq, he⟩ => hx q _ _ hq he⟩

theorem BusReported.refl (h : Hbc) : BusReported h h := ⟨rfl, fun _ => .inl rfl, fun _ => rfl, fun _ e he => ⟨e, he⟩⟩

/-- R40: an abort makes a head READY only where its channel answers to it. -/
theorem foldl_ready_get_of_not (p : RefChan → Bool) (l : List RefChan) (hs : PerChan Head) {ch : Channel}
    (h : ∀ c, ch = RefChan.chan c → p c = false) :
    (l.foldl (fun hs c => if p c then setHeadReady hs c.chan else hs) hs).get ch = hs.get ch := by
  induction l generalizing hs with
  | nil => rfl
  | cons c l ih =>
    rw [List.foldl_cons, ih]
    by_cases hc : ch = c.chan
    · rw [if_neg (by rw [h c hc]; decide)]
    · split
      · rw [setHeadReady, PerChan.get_set_ne _ _ hc]
      · rfl

theorem foldl_ready_cause (p : RefChan → Bool) (l : List RefChan) (hs : PerChan Head) (ch : Channel) :
    ((l.foldl (fun hs c => if p c then setHeadReady hs c.chan else hs) hs).get ch).cause = (hs.get ch).cause := by
  induction l generalizing hs with
  | nil => rfl
  | cons c l ih =>
    rw [List.foldl_cons, ih]
    split
    · by_cases hc : ch = c.chan
      · rw [hc, setHeadReady, PerChan.get_set_same]
      · rw [setHeadReady, PerChan.get_set_ne _ _ hc]
    · rfl

theorem busReported_abandonSeq (h : Hbc) : BusReported h (abandonSeq h) := by
  unfold abandonSeq
  split
  · exact .refl h
  next q hq =>
  refine ⟨rfl, fun ch => ?_, foldl_ready_cause _ _ h.heads, fun c e hin => ?_⟩
  · by_cases hch : ∃ c, ch = RefChan.chan c ∧ abandonReadies (q.entries.get c) = true
    · obtain ⟨c, hc, hr⟩ := hch
      cases he : q.entries.get c with
      | none => simp [abandonReadies, he] at hr
      | some e =>
        refine .inr ⟨c, e, hc, ⟨q, hq, he⟩, fun hf => ?_⟩
        simp [abandonReadies, he, hf] at hr
    · exact .inl (foldl_ready_get_of_not (fun c => abandonReadies (q.entries.get c)) allRefChans h.heads
        fun c hc => by_contra fun hr => hch ⟨c, hc, by simpa using hr⟩)
  · obtain ⟨q', hq', he'⟩ := hin
    have hq' : (if _ then none else some _) = some q' := hq'
    split at hq'
    · cases hq'
    · obtain rfl := Option.some.inj hq'
      rw [PerRef.get_map] at he'
      obtain ⟨e0, h0, _⟩ := Option.map_eq_some_iff.1 he'
      exact ⟨e0, q, hq, h0⟩

/-- The reports after a change of the head bus. -/
def reports (s : State) : State := endSequence (reportPhase s)

theorem takeReport_kept (q : Sequence) {s : State} (hw : osqWaits s = true) : CycleKept s (takeReport q s) := by
  have hno : ¬ stdDue s := fun ⟨_, h1, h2⟩ => (osqWaits_step hw).elim h1 h2
  have hbus : CycleKept s (s.withHbc { s.hbc with seq := some { q with reported := true, entries := q.entries.map (Option.map askDone) } }) :=
    cycleKept_withHbc s ⟨rfl, rfl, rfl, rfl, rfl, rfl⟩
  unfold takeReport
  dsimp only
  split
  · exact ⟨hbus.bus, rfl, hbus.returned, fun h => absurd h hno, fun h => .inl (h.resolve_right hno)⟩
  · exact hbus

theorem takeReport_bus {q : Sequence} {s : State} (hq : s.hbc.seq = some q) : BusReported s.hbc (takeReport q s).hbc := by
  have hbus : (takeReport q s).hbc =
      { s.hbc with seq := some { q with reported := true, entries := q.entries.map (Option.map askDone) } } := by
    unfold takeReport
    dsimp only
    split <;> rfl
  rw [hbus]
  refine .of_seq fun q' c e hq' he => ?_
  obtain rfl := Option.some.inj hq'
  rw [PerRef.get_map] at he
  obtain ⟨e0, h0, _⟩ := Option.map_eq_some_iff.1 he
  exact ⟨e0, q, hq, h0⟩

theorem reportPhase_kept (s : State) : CycleKept s (reportPhase s) ∧ BusReported s.hbc (reportPhase s).hbc := by
  unfold reportPhase
  split
  · exact ⟨.refl s, .refl _⟩
  next q hq =>
  split
  · split
    · next hw => exact ⟨takeReport_kept q hw, takeReport_bus hq⟩
    · exact ⟨cycleKept_withHbc s (sameCycle_abandonSeq _), busReported_abandonSeq _⟩
  · exact ⟨.refl s, .refl _⟩

theorem endSequence_kept (s : State) : CycleKept s (endSequence s) ∧
    ((endSequence s).hbc = s.hbc ∨ (endSequence s).hbc = { s.hbc with seq := none }) := by
  have hnone : CycleKept s (s.withHbc { s.hbc with seq := none }) := cycleKept_withHbc s ⟨rfl, rfl, rfl, rfl, rfl, rfl⟩
  unfold endSequence
  split
  · exact ⟨.refl s, .inl rfl⟩
  split
  · dsimp only
    split
    · exact ⟨hnone, .inr rfl⟩
    · exact ⟨hnone.trans (cycleKept_headStepsDone _), .inr (headStepsDone_hbc _)⟩
  · exact ⟨.refl s, .inl rfl⟩

theorem reports_kept (s : State) : CycleKept s (reports s) ∧ BusReported s.hbc (reports s).hbc := by
  obtain ⟨hk, hb⟩ := reportPhase_kept s
  obtain ⟨ek, eb⟩ := endSequence_kept (reportPhase s)
  refine ⟨hk.trans ek, ?_⟩
  rcases eb with e | e
  · exact (congrArg (BusReported s.hbc) e).mpr hb
  · refine (congrArg (BusReported s.hbc) e).mpr ⟨hb.pending, hb.heads, hb.causes, fun c e hin => ?_⟩
    obtain ⟨q, hq, _⟩ := hin
    cases hq

end Sys2Proof.Machine
end

section
/-! PROOFS. The start of a cycle under a changed mask and a pending RESET (R26, R30, R33, R42, R45, R55). -/

namespace Sys2Proof.Machine

open Safety

/-! ### The return of HEAD ABSENT (R33) -/

/-- The alarm points of the heads touch the alarm table and the ports alone. -/
theorem absentAlarm_eq (ch : Channel) (was now : HeadState) (s : State) :
    ∃ a p, absentAlarm ch was now s = (s.withAlt a).withPorts p := by
  unfold absentAlarm
  split
  · exact ⟨(s.activate (ptHeadAbsent ch)).alt, (s.activate (ptHeadAbsent ch)).ports, rfl⟩
  split
  · exact ⟨(s.returnAlarm (ptHeadAbsent ch)).alt, (s.returnAlarm (ptHeadAbsent ch)).ports, rfl⟩
  · exact ⟨s.alt, s.ports, rfl⟩

theorem foldl_absentAlarm_eq (was : PerChan Head) (l : List Channel) (s : State) :
    ∃ a p, l.foldl (fun s ch => absentAlarm ch (was.get ch).state (s.hbc.heads.get ch).state s) s =
      (s.withAlt a).withPorts p := by
  induction l generalizing s with
  | nil => exact ⟨s.alt, s.ports, rfl⟩
  | cons c l ih =>
    obtain ⟨a, p, h⟩ := absentAlarm_eq c (was.get c).state (s.hbc.heads.get c).state s
    obtain ⟨a', p', h'⟩ := ih ((s.withAlt a).withPorts p)
    exact ⟨a', p', by rw [List.foldl_cons, h, h']; rfl⟩

theorem returnAbsents_blocks (was : PerChan Head) (s : State) : (returnAbsents was s).hbc = s.hbc ∧
    (returnAbsents was s).cmu = s.cmu ∧ (returnAbsents was s).osq = s.osq ∧ (returnAbsents was s).scv = s.scv ∧
    (returnAbsents was s).cta = s.cta ∧ (returnAbsents was s).drive = s.drive ∧ (returnAbsents was s).rbs = s.rbs := by
  obtain ⟨a, p, h⟩ := foldl_absentAlarm_eq was allChannels s
  have e : returnAbsents was s = (s.withAlt a).withPorts p := h
  rw [e]
  exact ⟨rfl, rfl, rfl, rfl, rfl, rfl, rfl⟩

/-- A head that does not enter ABSENT activates no point; one that leaves it has its own returned. -/
theorem absentAlarm_over {c : Channel} {was now : HeadState} (h : now = .absent → was = .absent) (s : State) :
    (∀ ch, absentOver s ch → absentOver (absentAlarm c was now s) ch) ∧
    (was = .absent → now ≠ .absent → absentOver (absentAlarm c was now s) c) := by
  unfold absentAlarm
  rw [if_neg (fun k => k.1 (h k.2))]
  by_cases hr : was = .absent ∧ now ≠ .absent
  · rw [if_pos hr]
    refine ⟨fun ch ho => ?_, fun _ _ => State.returnAlarm_over s _⟩
    by_cases hc : ptHeadAbsent ch = ptHeadAbsent c
    · rw [ptHeadAbsent_injective hc]
      exact State.returnAlarm_over s _
    · unfold absentOver
      rw [State.returnAlarm_other s hc]
      exact ho
  · rw [if_neg hr]
    exact ⟨fun _ => id, fun h1 h2 => absurd ⟨h1, h2⟩ hr⟩

theorem foldl_absentAlarm_over {was : PerChan Head} (l : List Channel) {s : State}
    (h : ∀ c, (s.hbc.heads.get c).state = .absent → (was.get c).state = .absent) (ch : Channel)
    (ho : absentOver s ch ∨ (ch ∈ l ∧ (was.get ch).state = .absent ∧ (s.hbc.heads.get ch).state ≠ .absent)) :
    absentOver (l.foldl (fun s ch => absentAlarm ch (was.get ch).state (s.hbc.heads.get ch).state s) s) ch := by
  induction l generalizing s with
  | nil => exact ho.elim id fun k => absurd k.1 List.not_mem_nil
  | cons c l ih =>
    obtain ⟨hkeep, hown⟩ := absentAlarm_over (h c) s
    have hheads := congrArg Hbc.heads (absentAlarm_hbc c (was.get c).state (s.hbc.heads.get c).state s)
    refine ih (by rw [hheads]; exact h) ?_
    rw [hheads]
    rcases ho with k | ⟨hmem, h1, h2⟩
    · exact .inl (hkeep ch k)
    · rcases List.mem_cons.1 hmem with rfl | hm
      · exact .inl (hown h1 h2)
      · exact .inr ⟨hm, h1, h2⟩

/-- R33: HEAD ABSENT is over for a head that leaves ABSENT, and stays over. -/
theorem returnAbsents_over {was : PerChan Head} {s : State}
    (h : ∀ c, (s.hbc.heads.get c).state = .absent → (was.get c).state = .absent) (ch : Channel)
    (ho : absentOver s ch ∨ ((was.get ch).state = .absent ∧ (s.hbc.heads.get ch).state ≠ .absent)) :
    absentOver (returnAbsents was s) ch :=
  foldl_absentAlarm_over allChannels h ch (ho.imp id fun k => ⟨mem_allChannels ch, k⟩)

theorem cycleKept_returnAbsents {was : PerChan Head} {s : State}
    (h : ∀ c, (s.hbc.heads.get c).state = .absent → (was.get c).state = .absent) : CycleKept s (returnAbsents was s) := by
  obtain ⟨hhbc, hcmu, hosq, _⟩ := returnAbsents_blocks was s
  have hdue : stdDue s → stdDue (returnAbsents was s) := fun k => by unfold stdDue notFetching; rw [hosq]; exact k
  exact ⟨.of_eq hhbc, congrArg Cmu.position hcmu, fun ch ho => returnAbsents_over h ch (.inl ho), hdue,
    fun k => k.imp (fun e => by rw [hosq]; exact e) hdue⟩

/-! ### The change of the mask (R30) -/

/-- The head bus under a new mask. -/
def maskedBus (h : Hbc) (new : PerChan Bool) : Hbc :=
  { h with
    mask := new
    heads := mapChan (fun ch => maskHead (h.mask.get ch) (new.get ch) (h.heads.get ch))
    seq := allRefChans.foldl (maskEntry h new) h.seq }

theorem maskedBus_heads (h : Hbc) (new : PerChan Bool) (ch : Channel) :
    (maskedBus h new).heads.get ch = maskHead (h.mask.get ch) (new.get ch) (h.heads.get ch) := mapChan_get _ ch

theorem maskHead_same (b : Bool) (hd : Head) : maskHead b b hd = hd := by cases b <;> rfl

theorem mapChan_eta (t : PerChan Head) : mapChan (fun ch => t.get ch) = t := rfl

/-- The applied mask anew changes nothing. -/
theorem maskedBus_same (h : Hbc) : maskedBus h h.mask = h := by
  have hheads : mapChan (fun ch => maskHead (h.mask.get ch) (h.mask.get ch) (h.heads.get ch)) = h.heads := by
    rw [show (fun ch => maskHead (h.mask.get ch) (h.mask.get ch) (h.heads.get ch)) = fun ch => h.heads.get ch from
      funext fun ch => maskHead_same _ _, mapChan_eta]
  have hentry : ∀ (q : Option Sequence) (c : RefChan), maskEntry h h.mask q c = q := fun q c => by
    unfold maskEntry
    rw [if_neg (by cases h.mask.get c.chan <;> decide)]
  have hseq : allRefChans.foldl (maskEntry h h.mask) h.seq = h.seq := by
    simp only [allRefChans, List.foldl_cons, List.foldl_nil, hentry]
  rw [maskedBus, hheads, hseq]

/-- A disabled channel is in no sequence. -/
theorem foldl_maskEntry_disabled {h : Hbc} {new : PerChan Bool} {k : RefChan} (hd : (h.mask.get k.chan && !new.get k.chan) = true)
    (l : List RefChan) {s : Option Sequence} (hs : k ∈ l ∨ ∀ q, s = some q → q.entries.get k = none) (q : Sequence)
    (hq : l.foldl (maskEntry h new) s = some q) : q.entries.get k = none := by
  induction l generalizing s with
  | nil => exact (hs.resolve_left List.not_mem_nil) q hq
  | cons c l ih =>
    refine ih ?_ hq
    by_cases hc : k = c
    · subst hc
      refine .inr fun q0 hq0 => ?_
      rw [maskEntry, if_pos hd] at hq0
      obtain ⟨q1, _, rfl⟩ := Option.map_eq_some_iff.1 hq0
      exact PerRef.get_set_same _ _ _
    · rcases hs with hm | hn
      · exact .inl ((List.mem_cons.1 hm).resolve_left hc)
      · refine .inr fun q0 hq0 => ?_
        unfold maskEntry at hq0
        split at hq0
        · obtain ⟨q1, h1, rfl⟩ := Option.map_eq_some_iff.1 hq0
          exact (PerRef.get_set_ne _ _ hc).trans (hn q1 h1)
        · exact hn q0 hq0

theorem maskedBus_entries {h : Hbc} {new : PerChan Bool} {k : RefChan} {e : SeqEntry} (hin : inSequence (maskedBus h new) k e) :
    inSequence h k e ∧ ¬ (h.mask.get k.chan = true ∧ new.get k.chan = false) := by
  obtain ⟨q, hq, he⟩ := hin
  refine ⟨foldl_maskEntry_entry allRefChans hq he, fun ⟨h1, h2⟩ => ?_⟩
  have hn := foldl_maskEntry_disabled (h := h) (new := new) (k := k) (by rw [h1, h2]; rfl) allRefChans
    (.inl (mem_allRefChans k)) q hq
  rw [he] at hn
  cases hn

theorem unsetEvent_inHeadSteps {s : State} (h : inHeadSteps s.osq.step = true) :
    unsetEvent s = s.withOsq { s.osq with renewal := some (s.osq.renewal.getD false) } := if_pos h

theorem unsetEvent_outside {s : State} (h : inHeadSteps s.osq.step = false) : unsetEvent s = osqOccasion (setDue s) :=
  if_neg (by rw [h]; decide)

theorem setDue_eq (s : State) : setDue s = s.withOsq (setDue s).osq := by
  unfold setDue
  split <;> rfl

theorem cycleKept_unsetEvent (s : State) : CycleKept s (unsetEvent s) := by
  unfold unsetEvent
  split
  · exact ⟨.of_eq rfl, rfl, fun _ => id, id, fun _ => .inl (Option.some_ne_none _)⟩
  · obtain ⟨hd, hs, hr⟩ := setDue_fields s
    refine CycleKept.trans ?_ (cycleKept_osqOccasion _)
    have hdue : stdDue s → stdDue (setDue s) := fun k => ⟨hd, by unfold notFetching; rw [hs]; exact k.2⟩
    refine ⟨?_, ?_, fun ch ho => ?_, hdue, fun k => k.imp (fun e => by rw [hr]; exact e) hdue⟩
    · rw [setDue_eq]
      exact .of_eq rfl
    · rw [setDue_eq]
      rfl
    · rw [setDue_eq]
      exact ho

theorem unsetEvent_hbc (s : State) : (unsetEvent s).hbc = s.hbc := by
  unfold unsetEvent
  split
  · rfl
  · exact (motion_osqOccasion _).hbc.trans (motion_setDue s).hbc

/-- R45: what an unset reference makes of the OSQ. -/
theorem unsetEvent_owed {s : State} (hc : s.osq.step ≠ .commit) :
    (notFetching s → stdDue (unsetEvent s)) ∧ stdOwed (unsetEvent s) := by
  obtain ⟨hd, hs, _⟩ := setDue_fields s
  cases h : inHeadSteps s.osq.step with
  | true =>
    rw [unsetEvent_inHeadSteps h]
    refine ⟨fun ⟨h1, h2⟩ => ?_, .inl (Option.some_ne_none _)⟩
    cases hstep : s.osq.step <;> simp_all [inHeadSteps]
  | false =>
    rw [unsetEvent_outside h]
    have hn : notFetching (setDue s) := by
      unfold notFetching
      rw [hs]
      cases hstep : s.osq.step <;> simp_all [inHeadSteps]
    have hdue := (cycleKept_osqOccasion _).due ⟨hd, hn⟩
    exact ⟨fun _ => hdue, .inr hdue⟩

theorem applyMask_eq {s : State} (h : s.rbs.common.mask ≠ s.hbc.mask) :
    applyMask s =
      let r := returnAbsents s.hbc.heads (s.withHbc (maskedBus s.hbc s.rbs.common.mask))
      reports (if enablesUnset s.hbc.mask s.rbs.common.mask r.scv.refs then unsetEvent r else r) := if_neg h

/-- The state under the common bank's mask, before any effect of the change. -/
def maskedState (s : State) : State := s.withHbc (maskedBus s.hbc s.rbs.common.mask)

theorem maskedState_same {s : State} (h : s.rbs.common.mask = s.hbc.mask) : maskedState s = s := by
  rw [maskedState, h, maskedBus_same]
  rfl

theorem maskedState_absent {s : State} (c : Channel) (h : ((maskedState s).hbc.heads.get c).state = .absent) :
    (s.hbc.heads.get c).state = .absent := by
  rw [maskedState, State.withHbc_hbc, maskedBus_heads] at h
  exact maskHead_absent h

/-- R30: what the change of the mask keeps, returns and makes due. -/
theorem applyMask_kept (s : State) : CycleKept (maskedState s) (applyMask s) ∧
    BusReported (maskedState s).hbc (applyMask s).hbc ∧
    (∀ ch, (s.hbc.heads.get ch).state = .absent → ((maskedState s).hbc.heads.get ch).state ≠ .absent →
      absentOver (applyMask s) ch) ∧
    (∀ k : RefChan, s.hbc.mask.get k.chan = false → s.rbs.common.mask.get k.chan = true → s.scv.refs.get k = none →
      s.osq.step ≠ .commit → (notFetching s → stdDue (applyMask s)) ∧ stdOwed (applyMask s)) := by
  by_cases h : s.rbs.common.mask = s.hbc.mask
  · rw [applyMask_of_same h, maskedState_same h]
    refine ⟨.refl s, .refl _, fun ch h1 h2 => absurd h1 h2, fun k h1 h2 => ?_⟩
    rw [h, h1] at h2
    cases h2
  · have habs := maskedState_absent (s := s)
    obtain ⟨hhbc, _, hosq, hscv, _⟩ := returnAbsents_blocks s.hbc.heads (maskedState s)
    generalize hr : returnAbsents s.hbc.heads (maskedState s) = r at hhbc hosq hscv
    have hkr : CycleKept (maskedState s) r := by rw [← hr]; exact cycleKept_returnAbsents habs
    have hshape : applyMask s =
        reports (if enablesUnset s.hbc.mask s.rbs.common.mask r.scv.refs then unsetEvent r else r) := by
      rw [applyMask_eq h, ← hr] <;> rfl
    have hevent : CycleKept r (if enablesUnset s.hbc.mask s.rbs.common.mask r.scv.refs then unsetEvent r else r) ∧
        (if enablesUnset s.hbc.mask s.rbs.common.mask r.scv.refs then unsetEvent r else r).hbc = r.hbc := by
      split
      · exact ⟨cycleKept_unsetEvent r, unsetEvent_hbc r⟩
      · exact ⟨.refl r, rfl⟩
    obtain ⟨hk, hb⟩ := reports_kept (if enablesUnset s.hbc.mask s.rbs.common.mask r.scv.refs then unsetEvent r else r)
    rw [hevent.2, hhbc] at hb
    rw [hshape]
    refine ⟨(hkr.trans hevent.1).trans hk, hb, fun ch h1 h2 => ?_, fun k h1 h2 h3 h4 => ?_⟩
    · exact (hevent.1.trans hk).returned ch (by rw [← hr]; exact returnAbsents_over habs ch (.inr ⟨h1, h2⟩))
    · have hunset : enablesUnset s.hbc.mask s.rbs.common.mask r.scv.refs = true := by
        rw [hscv, enablesUnset, List.any_eq_true]
        exact ⟨k, mem_allRefChans k, by rw [h1, h2, show (maskedState s).scv = s.scv from rfl, h3]; rfl⟩
      rw [if_pos hunset] at hk ⊢
      obtain ⟨hd, ho⟩ := unsetEvent_owed (s := r) (by rw [hosq]; exact h4)
      exact ⟨fun hn => hk.due (hd (by unfold notFetching; rw [hosq]; exact hn)), hk.owed ho⟩

/-! ### A pending RESET (R42, R55) -/

theorem sameCycle_resetBus (h : Hbc) : SameCycle h (resetBus h) := ⟨rfl, rfl, rfl, rfl, rfl, rfl⟩

theorem resetBus_heads (h : Hbc) (ch : Channel) :
    (resetBus h).heads.get ch = resetHead (h.mask.get ch) (h.heads.get ch) := mapChan_get _ ch

theorem resetBus_absent {h : Hbc} (c : Channel) (ha : ((resetBus h).heads.get c).state = .absent) :
    (h.heads.get c).state = .absent := by
  rw [resetBus_heads, resetHead_state] at ha
  split at ha
  · cases ha
  · exact ha

/-- R54: an abort leaves what was renewed due. -/
theorem resetOsqStep_osq (s : State) : (resetOsqStep s).osq = { s.osq with
    step := .idle
    settle := none
    candidates := noCandidates
    due := s.osq.due || s.osq.renewal.isSome
    requested := s.osq.requested || s.osq.renewal.getD false
    renewal := none
    dueAge := if s.osq.renewal.isSome && !s.osq.due then 0 else s.osq.dueAge } := by
  unfold resetOsqStep mergeRenewal setDue
  cases hr : s.osq.renewal <;> cases hd : s.osq.due <;> simp [hr, hd]

theorem resetOsqStep_eq (s : State) : resetOsqStep s = s.withOsq (resetOsqStep s).osq := by
  have h := mergeRenewal_eq (s.withOsq { s.osq with step := .idle, settle := none, candidates := noCandidates })
  exact h

theorem cycleKept_resetHeadSteps {s : State} (hs : ¬ notFetching s) : CycleKept s (resetHeadSteps s) := by
  have hosq := resetOsqStep_osq s
  have hmove : CycleKept (applyPendingPlan (resetOsqStep s)) (resetHeadSteps s) := by
    unfold resetHeadSteps
    dsimp only
    split
    · exact (motion_retakeStd _).cycleKept fun h => keptByMoves_notFetching.atStd (keptByMoves_notFetching.openStd h)
    · exact cycleKept_nextMove _
  refine CycleKept.trans ?_ ((cycleKept_applyPendingPlan (resetOsqStep s)).trans hmove)
  have hno : ¬ stdDue s := fun h => hs h.2
  refine ⟨by rw [resetOsqStep_eq]; exact .of_eq rfl, by rw [resetOsqStep_eq]; rfl,
    fun ch ho => by rw [resetOsqStep_eq]; exact ho, fun h => absurd h hno, fun h => .inr ?_⟩
  obtain ⟨r, hr⟩ := Option.ne_none_iff_exists'.1 (h.resolve_right hno)
  unfold stdDue notFetching
  rw [hosq, hr]
  exact ⟨Bool.or_true _, nofun, nofun⟩

theorem resetHeadSteps_hbc (s : State) : (resetHeadSteps s).hbc = s.hbc := by
  have hstart : (applyPendingPlan (resetOsqStep s)).hbc = s.hbc :=
    (motion_applyPendingPlan _).hbc.trans (by rw [resetOsqStep_eq]; rfl)
  unfold resetHeadSteps
  dsimp only
  split
  · exact (motion_retakeStd _).hbc.trans hstart
  · exact (motion_nextMove _).hbc.trans hstart

/-- R42: what the RESET keeps, leaves on the head bus and returns. -/
theorem applyReset_kept (s : State) : CycleKept s (applyReset s) ∧ (applyReset s).hbc = resetBus s.hbc ∧
    (∀ ch, (s.hbc.heads.get ch).state = .absent → ((resetBus s.hbc).heads.get ch).state ≠ .absent →
      absentOver (applyReset s) ch) := by
  have habs : ∀ c, (((s.withHbc (resetBus s.hbc)).hbc.heads.get c).state = .absent → (s.hbc.heads.get c).state = .absent) :=
    resetBus_absent
  obtain ⟨hhbc, _⟩ := returnAbsents_blocks s.hbc.heads (s.withHbc (resetBus s.hbc))
  have hover := returnAbsents_over habs
  have hk := (cycleKept_withHbc s (sameCycle_resetBus s.hbc)).trans (cycleKept_returnAbsents habs)
  rw [applyReset_eq]
  generalize returnAbsents s.hbc.heads (s.withHbc (resetBus s.hbc)) = r at hhbc hover hk
  dsimp only
  split
  · next hs =>
    have hsteps := cycleKept_resetHeadSteps (s := r) (fun h => hs.elim h.1 h.2)
    exact ⟨hk.trans hsteps, (resetHeadSteps_hbc r).trans hhbc, fun ch h1 h2 => hsteps.returned ch (hover ch (.inr ⟨h1, h2⟩))⟩
  · exact ⟨hk, hhbc, fun ch h1 h2 => hover ch (.inr ⟨h1, h2⟩)⟩

/-! ### The downlink command (R27, R35, R38) -/

/-- What the choice of the downlink command leaves of the head bus. -/
structure BusChosen (h h' : Hbc) : Prop where
  pending : h'.resetPending = h.resetPending
  heads : h'.heads = h.heads
  entries : ∀ c e, inSequence h' c e → (∃ e0, inSequence h c e0) ∨ (h.heads.get c.chan).state = .ready

theorem sendReference_chosen (named : PerRef Bool) {s : State} (hq : s.hbc.seq = none) :
    CycleKept s (sendReference named s) ∧ BusChosen s.hbc (sendReference named s).hbc := by
  unfold sendReference
  dsimp only
  split
  · refine ⟨cycleKept_withHbc s ⟨rfl, rfl, rfl, rfl, rfl, rfl⟩, rfl, rfl, fun c e ⟨q, hq', he⟩ => .inr ?_⟩
    obtain rfl := Option.some.inj hq'
    rw [PerRef.get_map, addressedSet_get] at he
    by_contra hn
    rw [show decide ((s.hbc.heads.get c.chan).state = .ready) = false from decide_eq_false hn, Bool.and_false] at he
    cases he
  · have hidle : CycleKept s (s.withHbc { s.hbc with heldRef := none, downlink := .idle }) :=
      cycleKept_withHbc s ⟨rfl, rfl, rfl, rfl, rfl, rfl⟩
    refine ⟨hidle.trans (cycleKept_headStepsDone _), ?_⟩
    rw [headStepsDone_hbc]
    exact ⟨rfl, rfl, fun c e ⟨q, hq', _⟩ => nomatch hq.symm.trans hq'⟩

theorem sendFetch_chosen {q : Sequence} (c : RefChan) {s : State} (hq : s.hbc.seq = some q) :
    CycleKept s (sendFetch q c s) ∧ BusChosen s.hbc (sendFetch q c s).hbc := by
  refine ⟨cycleKept_withHbc s ⟨rfl, rfl, rfl, rfl, rfl, rfl⟩, rfl, rfl, fun k e ⟨q', hq', he⟩ => .inl ?_⟩
  obtain rfl := Option.some.inj hq'
  have he : (q.entries.set c _).get k = some e := he
  by_cases hk : k = c
  · subst hk
    rw [PerRef.get_set_same] at he
    obtain ⟨e0, h0, _⟩ := Option.map_eq_some_iff.1 he
    exact ⟨e0, q, hq, h0⟩
  · rw [PerRef.get_set_ne _ _ hk] at he
    exact ⟨e, q, hq, he⟩

theorem idle_chosen (s : State) : CycleKept s (s.withHbc { s.hbc with downlink := .idle }) ∧
    BusChosen s.hbc (s.withHbc { s.hbc with downlink := .idle }).hbc :=
  ⟨cycleKept_withHbc s ⟨rfl, rfl, rfl, rfl, rfl, rfl⟩, rfl, rfl, fun _ e h => .inl ⟨e, h⟩⟩

theorem chooseDownlink_kept (s : State) :
    CycleKept s (chooseDownlink s) ∧ BusChosen s.hbc (chooseDownlink s).hbc := by
  unfold chooseDownlink
  split
  · next q _ hq =>
    split
    · next c _ => exact sendFetch_chosen c hq
    · exact idle_chosen s
  · next named hq _ => exact sendReference_chosen named hq
  · exact idle_chosen s

end Sys2Proof.Machine
end

section
/-! PROOFS. The start of a cycle (R26, R30, R42, R45, R55). -/

namespace Sys2Proof.Machine

open Safety

/-- The state in which a cycle start ends, its drive output apart. -/
def cycleStarted (n : State) : State :=
  if (applyMask n).hbc.resetPending then applyReset (applyMask n) else chooseDownlink (applyMask n)

theorem beginCycle_started (s : State) : beginCycle s = (cycleStarted (numberCycle s)).settleDrive := beginCycle_eq s

theorem applyMask_pending (n : State) : (applyMask n).hbc.resetPending = n.hbc.resetPending := (applyMask_kept n).2.1.pending

theorem cycleStarted_reset {n : State} (h : n.hbc.resetPending = true) : cycleStarted n = applyReset (applyMask n) :=
  if_pos ((applyMask_pending n).trans h)

theorem cycleStarted_plain {n : State} (h : n.hbc.resetPending = false) : cycleStarted n = chooseDownlink (applyMask n) :=
  if_neg (by rw [applyMask_pending, h]; decide)

theorem cycleStarted_after (n : State) : CycleKept (applyMask n) (cycleStarted n) := by
  unfold cycleStarted
  split
  · exact (applyReset_kept _).1
  · exact (chooseDownlink_kept _).1

theorem cycleStarted_kept (n : State) : CycleKept (maskedState n) (cycleStarted n) :=
  (applyMask_kept n).1.trans (cycleStarted_after n)

theorem cycleStarted_pending (n : State) : (cycleStarted n).hbc.resetPending = false := by
  cases h : n.hbc.resetPending with
  | true =>
    rw [cycleStarted_reset h, (applyReset_kept _).2.1]
    rfl
  | false =>
    rw [cycleStarted_plain h, (chooseDownlink_kept _).2.pending, applyMask_pending, h]

/-- A head that no channel of the sequence moves is after the start what the mask and the RESET make of it. -/
theorem cycleStarted_head {n : State} {ch : Channel}
    (h : ∀ c e, ch = RefChan.chan c → inSequence (maskedState n).hbc c e → e.phase = .finished) :
    (cycleStarted n).hbc.heads.get ch = resetHead (n.hbc.resetPending && n.rbs.common.mask.get ch)
      (maskHead (n.hbc.mask.get ch) (n.rbs.common.mask.get ch) (n.hbc.heads.get ch)) := by
  obtain ⟨hk, hb, _⟩ := applyMask_kept n
  have hu : (applyMask n).hbc.heads.get ch =
      maskHead (n.hbc.mask.get ch) (n.rbs.common.mask.get ch) (n.hbc.heads.get ch) := by
    rw [← maskedBus_heads]
    exact (hb.heads ch).resolve_right fun ⟨c, e, hc, hin, hne⟩ => hne (h c e hc hin)
  have hm : (applyMask n).hbc.mask = n.rbs.common.mask := hk.bus.mask
  cases hp : n.hbc.resetPending with
  | true => rw [cycleStarted_reset hp, (applyReset_kept _).2.1, resetBus_heads, hu, hm, Bool.true_and]
  | false =>
    rw [cycleStarted_plain hp, (chooseDownlink_kept _).2.heads, hu]
    rfl

theorem maskHead_enabled (hd : Head) : maskHead false true hd = ⟨.probing, 0, 0, hd.cause⟩ := rfl

theorem maskHead_disabled (hd : Head) : maskHead true false hd = ⟨.off, 0, 0, hd.cause⟩ := rfl

theorem maskHead_cause (a b : Bool) (hd : Head) : (maskHead a b hd).cause = hd.cause := by cases a <;> cases b <;> rfl

theorem resetHead_true (hd : Head) : resetHead true hd = ⟨.probing, 0, 0, hd.cause⟩ := rfl

/-- A disabled channel is in no sequence after the start. -/
theorem cycleStarted_disabled {n : State} {k : RefChan} (h1 : n.hbc.mask.get k.chan = true)
    (h2 : n.rbs.common.mask.get k.chan = false) (e : SeqEntry) : ¬ inSequence (cycleStarted n).hbc k e := by
  have hno : ∀ e0, ¬ inSequence (maskedState n).hbc k e0 := fun e0 hin => (maskedBus_entries hin).2 ⟨h1, h2⟩
  obtain ⟨_, hb, _⟩ := applyMask_kept n
  intro hin
  cases hp : n.hbc.resetPending with
  | true =>
    rw [cycleStarted_reset hp, (applyReset_kept _).2.1] at hin
    obtain ⟨q, hq, _⟩ := hin
    cases hq
  | false =>
    have hoff : ((applyMask n).hbc.heads.get k.chan).state = .off := by
      rw [(hb.heads k.chan).resolve_right fun ⟨c, e, hc, hin, _⟩ => ?_]
      · rw [maskedState, State.withHbc_hbc, maskedBus_heads, h1, h2]
        rfl
      · have hck : k = c := by rw [← Option.some_inj, ← refChanOf_chan, hc, refChanOf_chan]
        exact hno e (hck ▸ hin)
    rw [cycleStarted_plain hp] at hin
    rcases (chooseDownlink_kept _).2.entries k e hin with ⟨e0, h0⟩ | hr
    · obtain ⟨e1, h1'⟩ := hb.entries k e0 h0
      exact hno e1 h1'
    · rw [hoff] at hr
      cases hr

/-- R33: HEAD ABSENT is over for a head that the start takes out of ABSENT. -/
theorem cycleStarted_over {n : State} (hf : absentFinished n.hbc) {ch : Channel} (ha : (n.hbc.heads.get ch).state = .absent)
    (hne : ((cycleStarted n).hbc.heads.get ch).state ≠ .absent) : absentOver (cycleStarted n) ch := by
  obtain ⟨_, hb, hret, _⟩ := applyMask_kept n
  by_cases hm : ((maskedState n).hbc.heads.get ch).state = .absent
  · have hu : (applyMask n).hbc.heads.get ch = (maskedState n).hbc.heads.get ch :=
      (hb.heads ch).resolve_right fun ⟨c, e, hc, ⟨q, hq, he⟩, hne⟩ =>
        hne (absentFinished_mask hf n.rbs.common.mask q c e hq he (hc ▸ hm))
    cases hp : n.hbc.resetPending with
    | true =>
      rw [cycleStarted_reset hp] at hne ⊢
      exact (applyReset_kept _).2.2 ch (by rw [hu, hm]) (by rw [← (applyReset_kept _).2.1]; exact hne)
    | false =>
      rw [cycleStarted_plain hp, (chooseDownlink_kept _).2.heads, hu] at hne
      exact absurd hm hne
  · exact (cycleStarted_after n).returned ch (hret ch ha hm)

/-! ### A RESET under an unchanged mask -/

theorem applyReset_outside {s : State} (hs : notFetching s) :
    applyReset s = returnAbsents s.hbc.heads (s.withHbc (resetBus s.hbc)) := by
  rw [applyReset_eq]
  refine if_neg fun h => ?_
  rw [(returnAbsents_blocks _ _).2.2.1] at h
  exact h.elim hs.1 hs.2

/-- R55: a due standardization aborted at the heads is taken again where the carriage stands. -/
theorem resetHeadSteps_retaken {s : State} (hd : s.osq.due = true) (hst : s.cmu.state = .atStd) :
    let t := resetHeadSteps s
    t.osq.step = .settle ∧ t.osq.settle = some 0 ∧ (∀ k, t.osq.candidates.get k = none) ∧ t.osq.due = true ∧
    t.osq.requested = (s.osq.requested || s.osq.renewal.getD false) ∧ t.osq.renewal = none ∧
    t.osq.scanCount = s.osq.scanCount ∧ t.cmu.state = .atStd ∧ t.cmu.position = s.cmu.position ∧ t.drive.wanted = 0 ∧
    t.cmu.plan = s.cta.pending.getD s.cmu.plan ∧ t.cta.pending = none ∧ t.scv = s.scv := by
  intro t
  obtain ⟨r, hr⟩ : ∃ r, resetOsqStep s = r := ⟨_, rfl⟩
  have hosq := resetOsqStep_osq s
  have hblocks := resetOsqStep_eq s
  rw [hr] at hosq hblocks
  have hrcmu : r.cmu = s.cmu := by rw [hblocks]; rfl
  have hrcta : r.cta = s.cta := by rw [hblocks]; rfl
  have hrscv : r.scv = s.scv := by rw [hblocks]; rfl
  have hm := motion_applyPendingPlan r
  obtain ⟨hcmu, hcta⟩ := applyPendingPlan_plan r
  have hstep : (applyPendingPlan r).osq.step = .idle := (applyPendingPlan_step r).trans (by rw [hosq])
  have hdue : (applyPendingPlan r).osq.due = true := hm.due (by rw [hosq, hd]; rfl)
  have hstate : (applyPendingPlan r).cmu.state = .atStd := by rw [hcmu, hrcmu]; exact hst
  have htakes : osqTakes (applyPendingPlan r) = true := by simp [osqTakes, hstep, hdue, hstate]
  have ht : t = retakeStd (applyPendingPlan r) := by
    show resetHeadSteps s = _
    rw [resetHeadSteps, hr]
    exact if_pos htakes
  obtain ⟨x, hdrop, _⟩ := dropArmed_fields (applyPendingPlan r).cmu
  have hopen : (openStd (applyPendingPlan r)).cmu =
      { dropArmed (applyPendingPlan r).cmu with turnOwed := false, overrideWait := 0 } := rfl
  rw [hdrop] at hopen
  have htcmu : t.cmu = { (openStd (applyPendingPlan r)).cmu with state := .atStd, skipCount := 0 } := by rw [ht]; rfl
  have hreq : (applyPendingPlan r).osq.requested = (s.osq.requested || s.osq.renewal.getD false) :=
    hm.requested.trans (by rw [hosq])
  have hren : (applyPendingPlan r).osq.renewal = none := hm.renewal.trans (by rw [hosq])
  have hcount : (applyPendingPlan r).osq.scanCount = s.osq.scanCount := hm.scanCount.trans (by rw [hosq])
  have hscv : (applyPendingPlan r).scv = s.scv := hm.scv.trans hrscv
  rw [htcmu, hopen, hcmu, hrcmu, hrcta, ht]
  exact ⟨rfl, rfl, fun k => by cases k <;> rfl, hdue, hreq, hren, hcount, rfl, rfl, rfl, rfl, congrArg Cta.pending hcta, hscv⟩

theorem notFetching_of_mem {s : State} (h : s.osq.step ∈ [OsqStep.idle, .travel, .settle]) : notFetching s :=
  ⟨fun e => absurd (e ▸ h) (by decide), fun e => absurd (e ▸ h) (by decide)⟩

/-- Settles O13: the parts of a cycle start one after the other. -/
theorem cycleStartNumbersAndResets : Obligations.CycleStartNumbersAndResets := by
  intro s hheld
  obtain ⟨n, hn⟩ : ∃ n, numberCycle s.tick = n := ⟨_, rfl⟩
  have hhbc : n.hbc = begunBus s.hbc s.cmu := by rw [← hn]; rfl
  have hcommon : n.rbs.common = s.rbs.common := by rw [← hn]; rfl
  have hcmu : n.cmu = s.cmu := by rw [← hn]; rfl
  have hcta : n.cta = s.cta := by rw [← hn]; rfl
  have hscv : n.scv = s.scv := by rw [← hn]; rfl
  have hstep : n.osq.step = s.osq.step := by rw [← hn]; rfl
  have hdue : n.osq.due = s.osq.due := by rw [← hn]; rfl
  have hreq : n.osq.requested = s.osq.requested := by rw [← hn]; rfl
  have hren : n.osq.renewal = s.osq.renewal := by rw [← hn]; rfl
  have hcount : n.osq.scanCount = s.osq.scanCount := by rw [← hn]; rfl
  have hheads : n.hbc.heads = s.hbc.heads := by rw [hhbc]; rfl
  have hseq : n.hbc.seq = s.hbc.seq := by rw [hhbc]; rfl
  have hmask : n.hbc.mask = s.hbc.mask := by rw [hhbc]; rfl
  have hpend : n.hbc.resetPending = s.hbc.resetPending := by rw [hhbc]; rfl
  have hexec : exec .cycleStart s = .next (cycleStarted n).settleDrive := by
    rw [exec_cycleStart hheld, beginCycle_started, hn]
  have hk := cycleStarted_kept n
  have hbus := hk.bus
  have hentry : ∀ k e, inSequence (maskedState n).hbc k e → inSequence s.hbc k e := fun k e hin => by
    obtain ⟨q, hq, he⟩ := (maskedBus_entries hin).1
    exact ⟨q, hseq.symm.trans hq, he⟩
  refine ⟨_, hexec, hbus.cycle.trans (congrArg Hbc.cycle hhbc), hbus.snapshot.trans (congrArg Hbc.snapshot hhbc),
    hk.position.trans (congrArg Cmu.position hcmu), fun ch => ?record, hbus.slot.trans (congrArg Hbc.slot hhbc),
    hbus.lastRecord.trans (congrArg Hbc.lastRecord hhbc :), cycleStarted_pending n, hbus.mask.trans (congrArg CommonBank.mask hcommon),
    fun hp => ?reset, fun ch => ⟨fun he hno => ?enabled, fun hd => ⟨?disabled, fun q k hq hc => ?out⟩,
      fun hsame hp hq => ?same, fun hf ha hne => ?absent, fun k hc he hu => ⟨fun hs => ?due, fun hs => ?renewed⟩⟩,
    fun hp hsame => ⟨fun hs => ?quiet, fun hs hd hst => ?retaken⟩⟩
  case record =>
    have hrec : (cycleStarted n).hbc.record = ⟨none, none, none, none, none⟩ :=
      hbus.record.trans (congrArg Hbc.record hhbc)
    show (cycleStarted n).hbc.record.get ch = none
    rw [hrec]
    cases ch <;> rfl
  case reset =>
    have hreset : (cycleStarted n).hbc = resetBus (applyMask n).hbc := by
      rw [cycleStarted_reset (hpend.trans hp), (applyReset_kept _).2.1]
    have hm : (applyMask n).hbc.mask = s.rbs.common.mask :=
      (applyMask_kept n).1.bus.mask.trans (congrArg CommonBank.mask hcommon)
    show (cycleStarted n).hbc.downlink = .reset ∧ (cycleStarted n).hbc.seq = none ∧ (cycleStarted n).hbc.heldRef = none ∧ _
    rw [State.settleDrive_hbc, hreset]
    refine ⟨rfl, rfl, rfl, fun ch hen => ?_⟩
    have hcause : ((applyMask n).hbc.heads.get ch).cause = (s.hbc.heads.get ch).cause := by
      rw [(applyMask_kept n).2.1.causes, maskedState, State.withHbc_hbc, maskedBus_heads, maskHead_cause, hheads]
    rw [resetBus_heads, hm, hen, resetHead_true, hcause]
    exact ⟨rfl, rfl, rfl, rfl⟩
  case enabled =>
    obtain ⟨hnew, hold⟩ := he
    show (cycleStarted n).hbc.heads.get ch = _
    rw [cycleStarted_head, hcommon, hmask, hheads, hnew, hold, maskHead_enabled]
    · cases n.hbc.resetPending <;> rfl
    · intro k e hc hin
      obtain ⟨q, hq, hqe⟩ := hentry k e hin
      rw [hno q k hq hc] at hqe
      cases hqe
  case disabled =>
    obtain ⟨hnew, hold⟩ := hd
    show (cycleStarted n).hbc.heads.get ch = _
    rw [cycleStarted_head, hcommon, hmask, hheads, hnew, hold, maskHead_disabled, Bool.and_false]
    · rfl
    · intro k e hc hin
      exact absurd ⟨by rw [hmask, ← hc]; exact hold, by rw [hcommon, ← hc]; exact hnew⟩ (maskedBus_entries hin).2
  case out =>
    obtain ⟨hnew, hold⟩ := hd
    subst hc
    have hno := cycleStarted_disabled (n := n) (k := k) (by rw [hmask]; exact hold) (by rw [hcommon]; exact hnew)
    cases hqe : q.entries.get k with
    | none => rfl
    | some e => exact absurd ⟨q, hq, hqe⟩ (hno e)
  case same =>
    show (cycleStarted n).hbc.heads.get ch = _
    rw [cycleStarted_head, hcommon, hmask, hheads, hsame, maskHead_same, hpend, hp]
    · rfl
    · intro k e _ hin
      obtain ⟨q, hq', _⟩ := hentry k e hin
      exact nomatch hq.symm.trans hq'
  case absent =>
    exact cycleStarted_over (n := n) (fun q k e hq he ha' => hf q k e (hseq.symm.trans hq) he (by rw [← hheads]; exact ha'))
      (by rw [hheads]; exact ha) hne
  case due =>
    subst hc
    have hn' : notFetching n := notFetching_of_mem (by rw [hstep]; exact hs)
    have hcommit : n.osq.step ≠ .commit := fun e => absurd (hstep.symm.trans e ▸ hs) (by decide)
    have h := (applyMask_kept n).2.2.2 k (by rw [hmask]; exact he.2) (by rw [hcommon]; exact he.1) (by rw [hscv]; exact hu) hcommit
    exact ((cycleStarted_after n).due (h.1 hn')).1
  case renewed =>
    subst hc
    have hcommit : n.osq.step ≠ .commit := fun e => absurd (hstep.symm.trans e ▸ hs) (by decide)
    have h := (applyMask_kept n).2.2.2 k (by rw [hmask]; exact he.2) (by rw [hcommon]; exact he.1) (by rw [hscv]; exact hu) hcommit
    exact ((cycleStarted_after n).owed h.2).elim .inr (fun d => .inl d.1)
  case quiet =>
    have hn' : notFetching n := notFetching_of_mem (by rw [hstep]; exact hs)
    have hreset : cycleStarted n = returnAbsents n.hbc.heads (n.withHbc (resetBus n.hbc)) := by
      rw [cycleStarted_reset (hpend.trans hp), applyMask_of_same (by rw [hcommon, hmask]; exact hsame), applyReset_outside hn']
    obtain ⟨_, h1, h2, h3, h4, _⟩ := returnAbsents_blocks n.hbc.heads (n.withHbc (resetBus n.hbc))
    rw [hreset]
    exact ⟨(congrArg Osq.step h2).trans hstep, h1.trans hcmu, h4.trans hcta, h3.trans hscv⟩
  case retaken =>
    obtain ⟨_, h1, h2, h3, h4, _⟩ := returnAbsents_blocks n.hbc.heads (n.withHbc (resetBus n.hbc))
    obtain ⟨r, hr⟩ : ∃ r, returnAbsents n.hbc.heads (n.withHbc (resetBus n.hbc)) = r := ⟨_, rfl⟩
    rw [hr] at h1 h2 h3 h4
    have hosq : r.osq = n.osq := h2
    have hreset : cycleStarted n = resetHeadSteps r := by
      rw [cycleStarted_reset (hpend.trans hp), applyMask_of_same (by rw [hcommon, hmask]; exact hsame), applyReset_eq, hr]
      refine if_pos ?_
      rw [hosq, hstep]
      simpa using hs
    have h := resetHeadSteps_retaken (s := r) (by rw [hosq, hdue]; exact hd) (by rw [h1]; exact (congrArg Cmu.state hcmu).trans hst)
    rw [← hreset, hosq, hreq, hren, hcount, h1, h4, h3] at h
    rw [← hcmu, ← hcta, ← hscv, State.settleDrive_wanted]
    exact h

end Sys2Proof.Machine
end

section
/-! PROOFS. The scan plan that a SET PLAN carries (R181, R191). -/

namespace Sys2Proof.Machine

open Safety

/-- The bytes of a plan behind its limits (R191). -/
def planTail (p : ScanPlan) : List Byte :=
  bytesBE 2 p.speed ++ (bytesBE 1 p.interval ++ (bytesBE 4 p.fixedPos ++ flagByte p.resume))

/-- The bytes of a plan with the code and the values of its limit policy. -/
def planWith (p : ScanPlan) (code lf lb m : Nat) : List Byte :=
  bytesBE 1 (planModeCode p.mode) ++ (bytesBE 1 code ++ (bytesBE 4 lf ++ (bytesBE 4 lb ++ (bytesBE 2 m ++ planTail p))))

theorem planBytes_eq (p : ScanPlan) :
    planBytes p = match p.policy with
      | .fixedLimits lf lb => planWith p 0 lf lb 0
      | .edgeFollow m => planWith p 1 0 0 m := by
  unfold planBytes planWith planTail
  cases p.policy <;> (generalize bytesBE = f; simp only [List.append_assoc])

theorem planWith_length (p : ScanPlan) (code lf lb m : Nat) : (planWith p code lf lb m).length = 20 := by
  simp [planWith, planTail, flagByte]

theorem planBytes_length (p : ScanPlan) : (planBytes p).length = 20 := by
  rw [planBytes_eq]
  cases p.policy <;> exact planWith_length ..

/-- The fields of a plan's bytes. -/
theorem planWith_fields (p : ScanPlan) (code lf lb m : Nat) :
    let pl := planWith p code lf lb m
    fieldAt pl 0 1 = planModeCode p.mode % 256 ^ 1 ∧ fieldAt pl 1 1 = code % 256 ^ 1 ∧ fieldAt pl 2 4 = lf % 256 ^ 4 ∧
    fieldAt pl 6 4 = lb % 256 ^ 4 ∧ fieldAt pl 10 2 = m % 256 ^ 2 ∧ fieldAt pl 12 2 = p.speed % 256 ^ 2 ∧
    fieldAt pl 14 1 = p.interval % 256 ^ 1 ∧ fieldAt pl 15 4 = p.fixedPos % 256 ^ 4 ∧
    fieldAt pl 19 1 = p.resume.toNat % 256 ^ 1 := by
  simp only [planWith, planTail, flagByte]
  refine ⟨?_, ?_, ?_, ?_, ?_, ?_, ?_, ?_, ?_⟩
  · rw [fieldAt_bytesBE_mod]
  all_goals simp [fieldAt_behind, fieldAt_bytesBE_mod, fieldAt_last]

theorem planModeOfCode_code (m : PlanMode) : planModeOfCode (planModeCode m % 256 ^ 1) = some m := by cases m <;> rfl

theorem flagOfCode_toNat (b : Bool) : flagOfCode (b.toNat % 256 ^ 1) = some b := by cases b <;> rfl

/-- R181: the checks of a plan whose mode and resume flag are known. -/
theorem planOf_known {pl : List Byte} {mode : PlanMode} {resume : Bool} (hm : planModeOfCode (fieldAt pl 0 1) = some mode)
    (hr : flagOfCode (fieldAt pl 19 1) = some resume) :
    planOf pl = (limitPolicyOf pl).bind fun policy =>
      if 50 ≤ fieldAt pl 12 2 ∧ fieldAt pl 12 2 ≤ 600 ∧ fieldAt pl 15 4 ≤ 120000
      then some ⟨mode, policy, fieldAt pl 12 2, fieldAt pl 14 1, fieldAt pl 15 4, resume⟩ else none := by
  unfold planOf
  rw [hm, hr] <;> rfl

/-- R181: the limit policy in range. -/
def policyInRange : LimitPolicy → Prop
  | .fixedLimits lf lb => lf < lb ∧ lb ≤ 120000 ∧ 1000 ≤ lb - lf
  | .edgeFollow m => m ≤ 5000

theorem planInRange_iff (p : ScanPlan) :
    planInRange p ↔ policyInRange p.policy ∧ 50 ≤ p.speed ∧ p.speed ≤ 600 ∧ p.fixedPos ≤ 120000 := by
  unfold planInRange policyInRange
  cases p.policy <;> exact Iff.rfl

/-- The limit policy of a plan's bytes is the plan's, where it is in range. -/
theorem limitPolicyOf_planBytes {p : ScanPlan} (hf : planFits p) :
    (policyInRange p.policy → limitPolicyOf (planBytes p) = some p.policy) ∧
    (¬ policyInRange p.policy → limitPolicyOf (planBytes p) = none) := by
  rw [planBytes_eq]
  unfold planFits at hf
  cases hp : p.policy with
  | fixedLimits lf lb =>
    rw [hp] at hf
    obtain ⟨⟨h1, h2⟩, _⟩ := hf
    obtain ⟨_, f1, f2, f3, f4, _⟩ := planWith_fields p 0 lf lb 0
    rw [Nat.mod_eq_of_lt (by norm_num)] at f1 f4
    rw [Nat.mod_eq_of_lt (by norm_num; omega)] at f2 f3
    simp only [limitPolicyOf, f1, f2, f3, f4, true_and]
    exact ⟨fun h => if_pos h, fun h => if_neg h⟩
  | edgeFollow m =>
    rw [hp] at hf
    obtain ⟨h1, _⟩ := hf
    obtain ⟨_, f1, f2, f3, f4, _⟩ := planWith_fields p 1 0 0 m
    rw [Nat.mod_eq_of_lt (by norm_num)] at f1 f2 f3
    rw [Nat.mod_eq_of_lt (by norm_num; omega)] at f4
    simp only [limitPolicyOf, f1, f2, f3, f4, true_and]
    exact ⟨fun h => if_pos h, fun h => if_neg h⟩

/-- The plan's other fields read back. -/
theorem planBytes_fields {p : ScanPlan} (hf : planFits p) :
    planModeOfCode (fieldAt (planBytes p) 0 1) = some p.mode ∧ flagOfCode (fieldAt (planBytes p) 19 1) = some p.resume ∧
    fieldAt (planBytes p) 12 2 = p.speed ∧ fieldAt (planBytes p) 14 1 = p.interval ∧
    fieldAt (planBytes p) 15 4 = p.fixedPos := by
  obtain ⟨_, h1, h2, h3⟩ := hf
  have hw : ∃ code lf lb m, planBytes p = planWith p code lf lb m := by
    rw [planBytes_eq]
    cases p.policy <;> exact ⟨_, _, _, _, rfl⟩
  obtain ⟨code, lf, lb, m, e⟩ := hw
  obtain ⟨f0, _, _, _, _, f5, f6, f7, f8⟩ := planWith_fields p code lf lb m
  rw [e, f0, f5, f6, f7, f8, planModeOfCode_code, flagOfCode_toNat]
  exact ⟨rfl, rfl, Nat.mod_eq_of_lt (by norm_num; omega), Nat.mod_eq_of_lt (by norm_num; omega),
    Nat.mod_eq_of_lt (by norm_num; omega)⟩

/-- R181: a plan's bytes carry it exactly when it is in range. -/
theorem planOf_planBytes {p : ScanPlan} (hf : planFits p) :
    (planInRange p → planOf (planBytes p) = some p) ∧ (¬ planInRange p → planOf (planBytes p) = none) := by
  obtain ⟨hm, hr, h1, h2, h3⟩ := planBytes_fields hf
  obtain ⟨hin, hout⟩ := limitPolicyOf_planBytes hf
  rw [planOf_known hm hr, h1, h2, h3, planInRange_iff]
  refine ⟨fun ⟨hp, hrest⟩ => ?_, fun h => ?_⟩
  · rw [hin hp]
    exact if_pos hrest
  · by_cases hp : policyInRange p.policy
    · rw [hin hp]
      exact if_neg fun hrest => h ⟨hp, hrest⟩
    · rw [hout hp]
      rfl

end Sys2Proof.Machine
end

section
/-! PROOFS. The motion a carriage takes by its plan, and SET PLAN (R13 … R15, R23, R181 … R183). -/

namespace Sys2Proof.Machine

open Safety

/-! ### The motion of a plan (R13 … R15) -/

/-- R47: no standardization is there to take. -/
def nothingDue (s : State) : Prop := ¬ (s.osq.due = true ∧ s.osq.step = .idle)

theorem nothingDue.not_takes {s : State} (h : nothingDue s) : osqTakes s = false := by
  rw [Bool.eq_false_iff]
  intro k
  simp only [osqTakes, Bool.and_eq_true, beq_iff_eq] at k
  exact h k.1

/-- With no standardization to take and no override the next motion is the plan's. -/
theorem nextMotion_free {n : Nat} {s : State} (hstd : osqTakes s = false) (ho : s.override = false) :
    nextMotion (n + 1) s = match s.cmu.plan.mode with
      | .park => goPark (nextMotion n) s
      | .fixed => goFixed (nextMotion n) s
      | .scan => goLimit s :=
  (if_neg (by rw [hstd]; decide)).trans (if_neg (by simp [State.overrideTaken, ho]))

theorem limitsOf_congr {s t : State} (hp : t.cmu.plan.policy = s.cmu.plan.policy) (hf : t.ebm.ef = s.ebm.ef)
    (hb : t.ebm.eb = s.ebm.eb) (hc : t.rbs.common = s.rbs.common) : limitsOf t = limitsOf s := by
  unfold limitsOf rawLimits
  rw [hp, hf, hb, hc]

/-- R12, R14: TO_LIMIT is entered with the limits computed. -/
theorem goLimit_limits (s : State) : ((goLimit s).cmu.limF, (goLimit s).cmu.limB) = limitsOf s := by
  simp only [goLimit]
  split
  · rfl
  split
  · rfl
  split
  · rfl
  split
  · rfl
  split <;> rfl

theorem goLimit_ebm (s : State) : (goLimit s).ebm = s.ebm ∧ (goLimit s).rbs = s.rbs ∧ (goLimit s).osq = s.osq ∧
    (goLimit s).cmu.hold = s.cmu.hold ∧ (goLimit s).cmu.turnOwed = s.cmu.turnOwed := by
  simp only [goLimit]
  split
  · exact ⟨rfl, rfl, rfl, rfl, rfl⟩
  split
  · exact ⟨rfl, rfl, rfl, rfl, rfl⟩
  split
  · exact ⟨rfl, rfl, rfl, rfl, rfl⟩
  split
  · exact ⟨rfl, rfl, rfl, rfl, rfl⟩
  split <;> exact ⟨rfl, rfl, rfl, rfl, rfl⟩

theorem limitsOf_goLimit (s : State) : limitsOf (goLimit s) = limitsOf s := by
  obtain ⟨he, hr, _⟩ := goLimit_ebm s
  exact limitsOf_congr (congrArg ScanPlan.policy (goLimit_plan s).1) (congrArg Ebm.ef he) (congrArg Ebm.eb he)
    (congrArg Rbs.common hr)

theorem applyPendingPlan_none {s : State} (h : s.cta.pending = none) : applyPendingPlan s = s := by
  rw [applyPendingPlan, h]

/-- A carriage at rest with no plan pending: what the applied grade leaves (R86). -/
theorem applyPending_rested {s : State} (hp : s.cta.pending = none) :
    applyPendingPlan (applyPendingGrade s) = applyPendingGrade s :=
  applyPendingPlan_none (by rw [(applyPendingGrade_keeps s).2.2.2.2.1]; exact hp)

/-- R15: TO_PARK under a plan PARK, with nothing else to do. -/
theorem goPark_free {n : Nat} {s : State} (hp : s.cta.pending = none) (hm : s.cmu.plan.mode = .park) (hstd : nothingDue s)
    (ho : s.override = false) :
    (goPark (nextMotion (n + 1)) s).cmu.state =
      if s.cmu.state = .parked ∨ s.cmu.position = s.rbs.common.parkPos then .parked else .toPark := by
  unfold goPark
  by_cases hst : s.cmu.state = .parked
  · rw [if_pos hst, if_pos (.inl hst), hst]
  · rw [if_neg hst]
    dsimp only
    rw [travel_position]
    by_cases hpos : s.cmu.position = s.rbs.common.parkPos
    · rw [if_pos hpos, if_pos (Or.inr hpos)]
      generalize hr : comeToRest .parked (travel .toPark s.rbs.common.parkPos (toward s.cmu.position s.rbs.common.parkPos)
        .outside s.rbs.common.maxSpeed s) = r
      have hmotion : Motion s r := by rw [← hr]; exact (motion_travel ..).trans (motion_comeToRest ..)
      have hrp : r.cta.pending = none := by rw [← hr]; exact hp
      obtain ⟨hcmu, _, hosq, _⟩ := applyPendingGrade_keeps r
      rw [arriveParked, hr, applyPending_rested hrp]
      have hmode : (applyPendingGrade r).cmu.plan.mode = .park := by rw [hcmu, ← hr]; exact hm
      have hparked : (applyPendingGrade r).cmu.state = .parked := by rw [hcmu, ← hr]; rfl
      have hfree : osqTakes (applyPendingGrade r) = false :=
        nothingDue.not_takes (by unfold nothingDue; rw [hosq, ← hr]; exact hstd)
      rw [nextMotion_free hfree ((hmotion.trans (motion_applyPendingGrade r)).override.trans ho), hmode]
      show (goPark (nextMotion n) (applyPendingGrade r)).cmu.state = .parked
      rw [goPark, if_pos hparked, hparked]
    · rw [if_neg hpos, if_neg (not_or.2 ⟨hst, hpos⟩), travel_state]

/-- R15: TO_FIXED under a plan FIXED, with nothing else to do. -/
theorem goFixed_free {next : State → State} {s : State} (hp : s.cta.pending = none) (hm : s.cmu.plan.mode = .fixed)
    (hstd : nothingDue s) :
    (goFixed next s).cmu.state =
      if s.cmu.position = (min s.cmu.plan.fixedPos s.rbs.common.pMax : Nat) then .fixed else .toFixed := by
  unfold goFixed
  rw [show (min (s.cmu.plan.fixedPos : Int) s.rbs.common.pMax) = (min s.cmu.plan.fixedPos s.rbs.common.pMax : Nat) by omega]
  dsimp only
  rw [travel_position]
  generalize (min s.cmu.plan.fixedPos s.rbs.common.pMax : Nat) = target
  by_cases hpos : s.cmu.position = target
  · rw [if_pos hpos, if_pos hpos]
    generalize hw : travel .toFixed (target : Int) (toward s.cmu.position target) .outside s.scanSpeed s = w
    have hrp : (comeToRest .fixed w).cta.pending = none := by rw [← hw]; exact hp
    obtain ⟨hcmu, _, hosq, _⟩ := applyPendingGrade_keeps (comeToRest .fixed w)
    have hfree : osqTakes (applyPendingGrade (comeToRest .fixed w)) = false :=
      nothingDue.not_takes (by unfold nothingDue; rw [hosq, ← hw]; exact hstd)
    have hplan : (applyPendingGrade (comeToRest .fixed w)).cmu.plan = w.cmu.plan := by rw [hcmu]; rfl
    have hmode : w.cmu.plan.mode = .fixed := by rw [← hw]; exact hm
    rw [arriveFixed, applyPending_rested hrp, if_neg (by rw [hfree]; decide), hplan, if_pos ⟨hmode, rfl⟩, hcmu]
    rfl
  · rw [if_neg hpos, if_neg hpos, travel_state]

/-- Where the next motion sends a carriage by its plan, and no standardization or override. -/
theorem nextMove_free {s : State} (hp : s.cta.pending = none) (hstd : nothingDue s) (ho : s.override = false)
    (hfit : s.cmu.plan.fixedPos ≤ s.rbs.common.pMax) :
    (s.cmu.plan.mode = .park → (nextMove s).cmu.state =
      if s.cmu.state = .parked ∨ s.cmu.position = s.rbs.common.parkPos then .parked else .toPark) ∧
    (s.cmu.plan.mode = .fixed → (nextMove s).cmu.state =
      if s.cmu.position = s.cmu.plan.fixedPos then .fixed else .toFixed) ∧
    (s.cmu.plan.mode = .scan → nextMove s = goLimit s) := by
  have e := nextMotion_free (n := 5) hstd.not_takes ho
  refine ⟨fun hm => ?_, fun hm => ?_, fun hm => ?_⟩
  · rw [hm] at e
    rw [show nextMove s = goPark (nextMotion 5) s from e]
    exact goPark_free hp hm hstd ho
  · rw [hm] at e
    rw [show nextMove s = goFixed (nextMotion 5) s from e]
    rw [goFixed_free hp hm hstd, Nat.min_eq_left hfit]
  · rw [hm] at e
    exact e

/-- With no plan pending a move leaves the due flag. -/
theorem keptByMoves_due (d : Bool) : KeptByMoves fun s => s.cta.pending = none ∧ s.osq.due = d where
  travel _ _ _ _ _ h := h
  turn _ h := h
  limits h := h
  rest _ h := h
  atStd h := h
  openStd h := h
  abort {s} h := by
    have hcta : (abortTraverse s).cta = s.cta := by unfold abortTraverse; split <;> rfl
    rw [hcta, abortTraverse_osq]
    exact h
  grade {s} h := by
    obtain ⟨_, _, hosq, _, hcta, _⟩ := applyPendingGrade_keeps s
    rw [hcta, hosq]
    exact h
  plan {s} h := by rw [applyPendingPlan_none h.1]; exact h

end Sys2Proof.Machine
end

section
/-! PROOFS. SET PLAN: staged, or applied at once with the motion it brings (R23, R181 … R183). -/

namespace Sys2Proof.Machine

open Safety

/-- R44: the OSQ after the interval cause under a plan. -/
def intervalOsq (p : ScanPlan) (o : Osq) : Osq :=
  let due := o.due || (decide (p.interval ≠ 0) && decide (p.interval ≤ o.scanCount))
  { o with due := due, dueAge := if due && !o.due then 0 else o.dueAge }

theorem intervalOsq_eq (p : ScanPlan) (o : Osq) :
    intervalOsq p o = if (p.interval ≠ 0 ∧ p.interval ≤ o.scanCount) ∧ o.due = false then { o with due := true, dueAge := 0 }
      else o := by
  obtain ⟨step, due, requested, renewal, count, age, settle, candidates, overdue⟩ := o
  unfold intervalOsq
  have hb : (decide (p.interval ≠ 0) && decide (p.interval ≤ count)) = decide (p.interval ≠ 0 ∧ p.interval ≤ count) :=
    (Bool.decide_and _ _).symm
  dsimp only
  rw [hb]
  cases due
  · by_cases hi : p.interval ≠ 0 ∧ p.interval ≤ count
    · rw [if_pos (show (p.interval ≠ 0 ∧ p.interval ≤ count) ∧ false = false from ⟨hi, rfl⟩), decide_eq_true hi]
      rfl
    · rw [if_neg (show ¬((p.interval ≠ 0 ∧ p.interval ≤ count) ∧ false = false) from fun h => hi h.1), decide_eq_false hi]
      rfl
  · rw [if_neg (show ¬((p.interval ≠ 0 ∧ p.interval ≤ count) ∧ true = false) from fun h => Bool.false_ne_true h.2.symm),
      Bool.true_or, Bool.not_true, Bool.and_false]
    rfl

theorem intervalCheck_eq (s : State) : intervalCheck s = s.withOsq (intervalOsq s.cmu.plan s.osq) := by
  rw [intervalOsq_eq]
  unfold intervalCheck setDue
  by_cases hi : s.cmu.plan.interval ≠ 0 ∧ s.cmu.plan.interval ≤ s.osq.scanCount
  · cases hd : s.osq.due
    · rw [if_pos hi, if_neg Bool.false_ne_true, if_pos ⟨hi, rfl⟩]
    · rw [if_pos hi, if_pos rfl, if_neg (fun h => Bool.false_ne_true h.2.symm)]
      rfl
  · rw [if_neg hi, if_neg (fun h => hi h.1)]
    rfl

theorem applyPlan_eq (p : ScanPlan) (s : State) :
    applyPlan p s = ((s.withCmu { s.cmu with plan := p }).withCta { s.cta with pending := none }).withOsq
      (intervalOsq p s.osq) := intervalCheck_eq _

/-! ### What a plan made active at once brings (R23) -/

theorem motion_actOnPlan (was : ScanPlan) (s : State) : Motion s (actOnPlan was s) := by
  unfold actOnPlan
  split
  · exact motion_nextMove s
  · split
    · exact motion_osqOccasion s
    · exact motion_nextMove s
  · unfold actHeld
    split
    · exact motion_osqOccasion s
    split
    · exact motion_takeStd s
    · exact ((motion_abortTraverse s).trans (motion_withCmu _ _)).trans (motion_nextMove _)
  all_goals exact Motion.refl s

theorem osqOccasion_kept {P : State → Prop} (h : KeptByMoves P) {s : State} (hs : P s) : P (osqOccasion s) := by
  unfold osqOccasion
  split
  · exact h.takeStd hs
  · exact hs

theorem actOnPlan_due (was : ScanPlan) {s : State} (hp : s.cta.pending = none) :
    (actOnPlan was s).osq.due = s.osq.due := by
  have k := keptByMoves_due s.osq.due
  have h0 : s.cta.pending = none ∧ s.osq.due = s.osq.due := ⟨hp, rfl⟩
  unfold actOnPlan
  split
  · exact (k.nextMove h0).2
  · split
    · exact (osqOccasion_kept k h0).2
    · exact (k.nextMove h0).2
  · unfold actHeld
    split
    · exact (osqOccasion_kept k h0).2
    split
    · exact (k.takeStd h0).2
    · have h1 := k.abort h0
      exact (k.nextMove (s := (abortTraverse s).withCmu { (abortTraverse s).cmu with turnOwed := false }) h1).2
  all_goals rfl

theorem osqOccasion_takes {s : State} (h : osqTakes s = true) (hst : s.cmu.state ∈ [CarriageState.parked, .held, .fixed]) :
    osqOccasion s = takeStd s := by
  unfold osqOccasion
  refine if_pos ?_
  simp only [List.mem_cons, List.not_mem_nil, or_false] at hst
  rcases hst with e | e | e <;> rw [h, e] <;> rfl

theorem osqOccasion_not_takes {s : State} (h : osqTakes s = false) : osqOccasion s = s :=
  if_neg (by rw [h, Bool.false_and]; decide)

theorem nextMove_takes {s : State} (h : osqTakes s = true) : nextMove s = takeStd s := if_pos h

/-- R23, R47: a standardization that is there to take is taken first. -/
theorem actOnPlan_takes (was : ScanPlan) {s : State} (h : osqTakes s = true)
    (hst : s.cmu.state ∈ [CarriageState.parked, .held, .fixed]) : actOnPlan was s = takeStd s := by
  have hocc := osqOccasion_takes h hst
  have hnext := nextMove_takes h
  simp only [List.mem_cons, List.not_mem_nil, or_false] at hst
  rcases hst with e | e | e
  · rw [actOnPlan, e]
    exact hnext
  · rw [actOnPlan, e]
    show actHeld s = _
    rw [actHeld, hocc, if_pos h, ite_self]
  · rw [actOnPlan, e]
    show (if _ then osqOccasion s else nextMove s) = _
    rw [hocc, hnext, ite_self]

/-- R23: where an applied plan leaves the carriage as it stands. -/
theorem actOnPlan_stays (was : ScanPlan) {s : State} :
    (s.cmu.state = .parked → osqTakes s = false → s.overrideTaken = true → actOnPlan was s = s) ∧
    (s.cmu.state = .fixed → s.cmu.plan.mode = .fixed → s.cmu.plan.fixedPos = was.fixedPos → osqTakes s = false →
      actOnPlan was s = s) ∧
    (s.cmu.state = .held → s.cmu.plan.mode = .scan → osqTakes s = false → actOnPlan was s = s) := by
  refine ⟨fun e ht ho => ?_, fun e hm hf ht => ?_, fun e hm ht => ?_⟩
  · rw [actOnPlan, e]
    show nextMotion (5 + 1) s = s
    rw [nextMotion, if_neg (by rw [ht]; decide), if_pos ho, goPark, if_pos e]
  · rw [actOnPlan, e]
    show (if _ then osqOccasion s else nextMove s) = s
    rw [if_pos ⟨hm, hf⟩, osqOccasion_not_takes ht]
  · rw [actOnPlan, e]
    show actHeld s = s
    rw [actHeld, if_pos hm, osqOccasion_not_takes ht]

/-- R23: where an applied plan sends the carriage on by the plan. -/
theorem actOnPlan_moves (was : ScanPlan) {s : State} :
    (s.cmu.state = .parked → actOnPlan was s = nextMove s) ∧
    (s.cmu.state = .fixed → ¬ (s.cmu.plan.mode = .fixed ∧ s.cmu.plan.fixedPos = was.fixedPos) →
      actOnPlan was s = nextMove s) ∧
    (s.cmu.state = .held → s.cmu.plan.mode ≠ .scan → osqTakes s = false →
      actOnPlan was s = nextMove ((abortTraverse s).withCmu { (abortTraverse s).cmu with turnOwed := false })) := by
  refine ⟨fun e => ?_, fun e hn => ?_, fun e hm ht => ?_⟩
  · rw [actOnPlan, e]
  · rw [actOnPlan, e]
    exact if_neg hn
  · rw [actOnPlan, e]
    show actHeld s = _
    rw [actHeld, if_neg hm, if_neg (by rw [ht]; decide)]

theorem keptByMoves_turnOwed : KeptByMoves fun s => s.cmu.turnOwed = false :=
  keptByMoves_cmu (Q := fun c => c.turnOwed = false) (fun _ h => h) (fun _ _ _ h => h) (fun _ h => h) (fun _ _ h => h)
    (fun h => h) (fun _ => rfl) (fun h => h) (fun _ h => h)

theorem planAtOnce_iff (st : CarriageState) :
    planAtOnce st = true ↔ st ∈ [CarriageState.unhomed, .parked, .fixed, .held] := by
  cases st <;> simp [planAtOnce]

/-- The carriage is sent on by a plan (R13, R14, R15): where it goes. -/
def sentBy (p : ScanPlan) (st : CarriageState) (pos : Int) (t : State) : Prop :=
  (p.mode = .park → t.cmu.state = if st = .parked ∨ pos = t.rbs.common.parkPos then .parked else .toPark) ∧
  (p.mode = .fixed → t.cmu.state = if pos = p.fixedPos then .fixed else .toFixed) ∧
  (p.mode = .scan → t.cmu.state ∈ [CarriageState.toLimit, .turning] ∧ (t.cmu.limF, t.cmu.limB) = limitsOf t)

theorem nextMove_sent {s : State} (hp : s.cta.pending = none) (hstd : nothingDue s) (ho : s.override = false)
    (hfit : s.cmu.plan.fixedPos ≤ s.rbs.common.pMax) : sentBy s.cmu.plan s.cmu.state s.cmu.position (nextMove s) := by
  obtain ⟨hpark, hfixed, hscan⟩ := nextMove_free hp hstd ho hfit
  refine ⟨fun hm => ?_, hfixed, fun hm => ?_⟩
  · rw [(motion_nextMove s).common]
    exact hpark hm
  · rw [hscan hm, goLimit_limits, limitsOf_goLimit]
    exact ⟨goLimit_state s, rfl⟩

end Sys2Proof.Machine
end

section
/-! PROOFS. SET PLAN as a request (R181, R182, R183, R23). -/

namespace Sys2Proof.Machine

open Safety

theorem actOnPlan_aside (was : ScanPlan) {s : State} (h : s.cmu.state ∉ [CarriageState.parked, .fixed, .held]) :
    actOnPlan was s = s := by
  unfold actOnPlan
  split
  · next e => exact absurd (by rw [e]; decide) h
  · next e => exact absurd (by rw [e]; decide) h
  · next e => exact absurd (by rw [e]; decide) h
  all_goals rfl

theorem planCode_eq (stored asked : ScanPlan) (applied : Bool) :
    planCode (stored != asked) applied = if stored = asked then (if applied then 0x00 else 0x01) else 0x02 := by
  unfold planCode
  by_cases h : stored = asked
  · rw [if_pos h, h, if_neg (by simp)] <;> rfl
  · rw [if_neg h, if_pos (by simpa using h)] <;> rfl

theorem flagByte_eq (b : Bool) : flagByte b = [if b then 0x01 else 0x00] := by cases b <;> rfl

/-- R23: what a plan made active at once brings, by the carriage state in which it finds the carriage; `a` is the state with the plan
active. -/
structure PlanActed (was : ScanPlan) (a t : State) : Prop where
  takes : (a.osq.due = true ∧ a.osq.step = .idle) →
    (a.cmu.state ∈ [CarriageState.parked, .held] ∨ (a.cmu.state = .fixed ∧ a.osq.requested = true)) →
    t.cmu.state = (if a.cmu.position = a.rbs.common.stdPos then .atStd else .toStd) ∧
    t.osq.step = (if a.cmu.position = a.rbs.common.stdPos then .settle else .travel)
  parked : nothingDue a → a.cmu.state = .parked → a.override = true → t = a
  same : ¬((a.osq.due = true ∧ a.osq.step = .idle) ∧ a.osq.requested = true) → a.cmu.state = .fixed →
    a.cmu.plan.mode = .fixed → a.cmu.plan.fixedPos = was.fixedPos → t = a
  sentParked : nothingDue a → a.override = false → a.cmu.state = .parked →
    sentBy a.cmu.plan a.cmu.state a.cmu.position t
  sentFixed : nothingDue a → a.override = false → a.cmu.state = .fixed →
    ¬(a.cmu.plan.mode = .fixed ∧ a.cmu.plan.fixedPos = was.fixedPos) → sentBy a.cmu.plan a.cmu.state a.cmu.position t
  heldScan : nothingDue a → a.cmu.state = .held → a.cmu.plan.mode = .scan → t = a
  heldSent : nothingDue a → a.override = false → a.cmu.state = .held → a.cmu.plan.mode ≠ .scan →
    sentBy a.cmu.plan a.cmu.state a.cmu.position t ∧ t.cmu.turnOwed = false ∧
    (a.cmu.turnOwed = false → t.pen.window = none ∧ t.cmu.retraverseOwed = true)

theorem osqTakes_of_standing {s : State} (h : s.osq.due = true ∧ s.osq.step = .idle)
    (hst : s.cmu.state ∈ [CarriageState.parked, .held] ∨ (s.cmu.state = .fixed ∧ s.osq.requested = true)) :
    osqTakes s = true := by
  rcases hst with k | ⟨k, hr⟩
  · rcases List.mem_pair.1 k with e | e <;> simp [osqTakes, h.1, h.2, e]
  · simp [osqTakes, h.1, h.2, k, hr]

theorem actOnPlan_acted (was : ScanPlan) {a : State} (hp : a.cta.pending = none) (hw : a.cmu.overrideUntaken = false)
    (hfit : a.cmu.plan.fixedPos ≤ a.rbs.common.pMax) : PlanActed was a (actOnPlan was a) := by
  obtain ⟨hparked, hsame, hscan⟩ := actOnPlan_stays was (s := a)
  obtain ⟨mparked, mfixed, mheld⟩ := actOnPlan_moves was (s := a)
  refine ⟨fun ht hst => ?_, fun hn hst ho => ?_, fun hn hst hm hf => ?_, fun hn ho hst => ?_, fun hn ho hst hne => ?_,
    fun hn hst hm => hscan hst hm hn.not_takes, fun hn ho hst hm => ?_⟩
  · have htakes := osqTakes_of_standing ht hst
    have hmem : a.cmu.state ∈ [CarriageState.parked, .held, .fixed] := by
      rcases hst with k | ⟨k, _⟩
      · rcases List.mem_pair.1 k with e | e <;> rw [e] <;> decide
      · rw [k]; decide
    rw [actOnPlan_takes was htakes hmem]
    obtain ⟨_, _, haway, hthere⟩ := takeStd_goes a
    by_cases hpos : a.cmu.position = a.rbs.common.stdPos
    · rw [if_pos hpos, if_pos hpos]
      exact ⟨(hthere hpos).2.1, (hthere hpos).1⟩
    · rw [if_neg hpos, if_neg hpos]
      exact ⟨(haway hpos).2.1, (haway hpos).1⟩
  · exact hparked hst hn.not_takes (by simp [State.overrideTaken, ho, hw])
  · refine hsame hst hm hf (Bool.eq_false_iff.2 fun k => hn ?_)
    simpa [osqTakes, hst] using k
  · rw [mparked hst]
    exact nextMove_sent hp hn ho hfit
  · rw [mfixed hst hne]
    exact nextMove_sent hp hn ho hfit
  · rw [mheld hst hm hn.not_takes]
    obtain ⟨b, hb⟩ : ∃ b, (abortTraverse a).withCmu { (abortTraverse a).cmu with turnOwed := false } = b := ⟨_, rfl⟩
    have hab : Motion a b := by rw [← hb]; exact (motion_abortTraverse a).trans (motion_withCmu _ _)
    have hplan := hab.plan hp
    have hosq : b.osq = a.osq := by rw [← hb]; exact abortTraverse_osq a
    have hstate : b.cmu.state = a.cmu.state := by
      rw [← hb]
      obtain ⟨_, e⟩ | ⟨_, e, _⟩ := abortTraverse_cases a
      · exact (congrArg (fun t : State => t.cmu.state) e :)
      · exact (congrArg Cmu.state e :)
    have hturn : b.cmu.turnOwed = false := by rw [← hb]; rfl
    rw [hb]
    have hsent := nextMove_sent (s := b) hplan.1 (by unfold nothingDue; rw [hosq]; exact hn) (hab.override.trans ho)
      (by rw [hplan.2, hab.common]; exact hfit)
    rw [hplan.2, hstate, hab.position] at hsent
    refine ⟨hsent, keptByMoves_turnOwed.nextMove hturn, fun hto => ?_⟩
    obtain ⟨hin, _⟩ | ⟨_, hcmu, hpen, _⟩ := abortTraverse_cases a
    · rw [Cmu.inTraverse, hst, hto] at hin
      exact absurd hin (by decide)
    · exact ⟨keptByMoves_window.nextMove (by rw [← hb]; exact congrArg Pen.window hpen),
        keptByMoves_retraverse.nextMove (by rw [← hb]; exact congrArg Cmu.retraverseOwed hcmu)⟩

/-- Settles O46: the plan the payload carries, then its staging or its effect at once. -/
theorem plansAreStagedOrApplied : Obligations.PlansAreStagedOrApplied := by
  intro s p m asked hw hk hh hfits hpl stored atOnce due
  have row : Row s p m 1 (ofKind 15) := Row.of_kind hw hk
    (by rw [hpl]; simp only [lenOk, planBytes_length]; rfl) (by cases p <;> rfl)
  obtain ⟨hparse, hnone⟩ := planOf_planBytes hfits
  obtain ⟨u, hu⟩ : ∃ u, s.updPort p (takenPort m) = u := ⟨_, rfl⟩
  have htaken := withToken_taken (owner := ownSetPlan) m hh
  rw [hu] at htaken
  have hcmu : u.cmu = s.cmu := by rw [← hu]; rfl
  have hrbs : u.rbs = s.rbs := by rw [← hu]; rfl
  have hosq : u.osq = s.osq := by rw [← hu]; rfl
  have hcta : u.cta = s.cta := by rw [← hu]; rfl
  have hown : planInRange asked → s.cmu.overrideUntaken = false → withToken ownSetPlan p m u =
      ((stagePlan stored u).settleDrive, [[planCode (stored != asked) (planAtOnce s.cmu.state)] ++
        flagByte (!planAtOnce s.cmu.state) ++ planBytes stored]) := fun hin hov => by
    rw [htaken, ownSetPlan, hpl, hparse hin]
    dsimp only
    rw [flushOverride_of_taken (by rw [hcmu]; exact hov), hcmu, hrbs]
    rfl
  refine ⟨fun hout => ?_, fun hin hn hd hov => ?_, fun hin hst hd hov => ?_, fun hin hat hov => ?_⟩
  · refine row.exec_answered (owner := withToken ownSetPlan) rfl ?_
    rw [hu, htaken, ownSetPlan, hpl, hnone hout] <;> rfl
  · have hat : planAtOnce s.cmu.state = false := Bool.eq_false_iff.2 fun k => hn ((planAtOnce_iff _).1 k)
    refine row.exec_changed (owner := withToken ownSetPlan) (t := s.withCta { s.cta with pending := some stored }) rfl ?_ (Nat.le_refl 1)
    have hset : stagePlan stored u = u.withCta { u.cta with pending := some stored } :=
      if_neg (by rw [hcmu, hat]; decide)
    rw [hu, hown hin hov, hset, hat, planCode_eq, Bool.not_false, flagByte_eq,
      State.settleDrive_of_settled (s := u.withCta _) (by rw [← hu]; exact hd), ← hu]
    rfl
  · have hat : planAtOnce s.cmu.state = true := by rw [hst]; rfl
    refine row.exec_changed (owner := withToken ownSetPlan) (t := ((s.withCmu { s.cmu with plan := stored }).withCta
      { s.cta with pending := none }).withOsq (intervalOsq stored s.osq)) rfl ?_ (Nat.le_refl 1)
    have hset : stagePlan stored u = applyPlan stored u :=
      (if_pos (by rw [hcmu, hat])).trans (actOnPlan_aside _ (by rw [applyPlan_cmu, hcmu, hst]; decide))
    rw [hu, hown hin hov, hset, hat, planCode_eq, Bool.not_true, flagByte_eq, applyPlan_eq,
      State.settleDrive_of_settled (s := State.withOsq _ _) (by rw [← hu]; exact hd), ← hu]
    rfl
  · have hat : planAtOnce s.cmu.state = true := (planAtOnce_iff _).2 hat
    obtain ⟨a, ha⟩ : ∃ a, applyPlan stored u = a := ⟨_, rfl⟩
    have hset : stagePlan stored u = actOnPlan s.cmu.plan a := by
      rw [← ha, ← hcmu]
      exact if_pos (by rw [hcmu, hat])
    have hown := hown hin hov
    rw [hset, hat, planCode_eq, if_pos rfl] at hown
    obtain ⟨hexec, hreply⟩ := row.exec_replied (owner := withToken ownSetPlan) (c := .setPlan p .whole) rfl
      ((congrArg _ hu).trans hown)
    rw [applyPlan_eq] at ha
    have acmu : a.cmu = { s.cmu with plan := stored } := by rw [← ha, ← hcmu]; rfl
    have acta : a.cta = { s.cta with pending := none } := by rw [← ha, ← hcta]; rfl
    have aosq : a.osq = intervalOsq stored s.osq := by rw [← ha, ← hosq]; rfl
    have arbs : a.rbs = s.rbs := by rw [← ha, ← hrbs]; rfl
    have ahbc : a.hbc = s.hbc := by rw [← ha, ← hu]; rfl
    have amsm : a.msm = s.msm := by rw [← ha, ← hu]; rfl
    have apen : a.pen = s.pen := by rw [← ha, ← hu]; rfl
    have aebm : a.ebm = s.ebm := by rw [← ha, ← hu]; rfl
    have hpend : a.cta.pending = none := by rw [acta]
    have hm := motion_actOnPlan s.cmu.plan a
    have hplan := hm.plan hpend
    have hacted := actOnPlan_acted s.cmu.plan hpend (by rw [acmu]; exact hov)
      (by rw [acmu, arbs]; exact Nat.min_le_right _ _)
    have hdue := actOnPlan_due s.cmu.plan hpend
    generalize actOnPlan s.cmu.plan a = t at hexec hreply hm hplan hacted hdue
    have hcta' : t.cta = { s.cta with pending := none } := by
      rw [show t.cta = ⟨t.cta.holder, t.cta.waiting, t.cta.pending⟩ from rfl, hm.holder, hm.waiting, hplan.1, acta]
    have hover : a.override = s.override := by simp only [State.override, acmu, amsm]
    have hstays : t = a → t.cmu = { s.cmu with plan := stored } ∧ t.pen = s.pen ∧ t.ebm = s.ebm := fun e => by
      rw [e]; exact ⟨acmu, apen, aebm⟩
    obtain ⟨htakes, hparked, hsame, hsp, hsf, hhs, hhm⟩ := hacted
    have hcommon : t.rbs.common = s.rbs.common := hm.common.trans (by rw [arbs])
    simp only [nothingDue, sentBy, hover, aosq, acmu, arbs, hcommon] at htakes hparked hsame hsp hsf hhs hhm
    refine ⟨_, hexec, hreply, hplan.2.trans (by rw [acmu]), hcta', hdue.trans (by rw [aosq]; rfl), hm.hbc.trans ahbc,
      hm.msm.trans amsm, htakes, fun hn hst ho => hstays (hparked hn hst ho), fun hn hst hmd hf => hstays (hsame hn hst hmd hf),
      fun hn ho => ⟨hsp hn ho, hsf hn ho, fun hst => ?_⟩⟩
    split
    · next hmd => exact hstays (hhs hn hst hmd)
    · next hmd => exact hhm hn ho hst hmd

end Sys2Proof.Machine
end

section
/-! PROOFS. The stops of HOLD and STEP, and what the width test may do to a carriage that travels (R18, R19, R151, R153). -/

namespace Sys2Proof.Machine

open Safety

/-! ### Stops (R18, R19) -/

theorem crossings_fwd (m : Option BinMap) : crossings .fwd m = m.elim [] boundaries := rfl

theorem crossings_rev (m : Option BinMap) : crossings .rev m = (m.elim [] boundaries).reverse.map (fun b => b - 1) :=
  (List.map_reverse (l := m.elim [] boundaries) (f := fun b => b - 1)).symm

theorem crossings_none (d : Dir) : crossings d none = [] := by cases d <;> rfl

/-- A boundary point at which a carriage may stop: at the distance or more, and before the compare target. -/
def mayStopAt (c : Cmu) (least b : Int) : Prop :=
  least ≤ ahead c.direction c.position b ∧ ∀ target, c.compareTarget = some target → reached c.direction b target = false

theorem beforeTarget_iff (c : Cmu) (b : Int) :
    beforeTarget c b = true ↔ ∀ target, c.compareTarget = some target → reached c.direction b target = false := by
  unfold beforeTarget
  cases c.compareTarget <;> simp

theorem mayStopAt_iff (c : Cmu) (least b : Int) :
    (decide (least ≤ ahead c.direction c.position b) && beforeTarget c b) = true ↔ mayStopAt c least b := by
  rw [Bool.and_eq_true, decide_eq_true_eq, beforeTarget_iff]
  rfl

/-- R18, R19: the stop is the first of the points at which the carriage may stop. -/
theorem stopBoundary_some (least : Int) (s : State) (b : Int) :
    stopBoundary least s = some b ↔ ∃ i : Nat, (crossings s.cmu.direction s.ebm.map)[i]? = some b ∧ mayStopAt s.cmu least b ∧
      ∀ j a, j < i → (crossings s.cmu.direction s.ebm.map)[j]? = some a → ¬mayStopAt s.cmu least a := by
  unfold stopBoundary
  generalize crossings s.cmu.direction s.ebm.map = l
  rw [List.find?_eq_some_iff_getElem]
  simp only [Bool.not_eq_true', ← Bool.not_eq_true, mayStopAt_iff]
  constructor
  · rintro ⟨hb, i, hi, he, hbefore⟩
    refine ⟨i, by rw [List.getElem?_eq_getElem hi, he], hb, fun j a hj ha => ?_⟩
    rw [List.getElem?_eq_getElem (hj.trans hi)] at ha
    rw [← Option.some.inj ha]
    exact hbefore j hj
  · rintro ⟨i, he, hb, hbefore⟩
    obtain ⟨hi, he⟩ := List.getElem?_eq_some_iff.1 he
    exact ⟨hb, i, hi, he, fun j hj => hbefore j _ hj (List.getElem?_eq_getElem (hj.trans hi))⟩

theorem stopBoundary_none (least : Int) (s : State) :
    stopBoundary least s = none ↔ ∀ b ∈ crossings s.cmu.direction s.ebm.map, ¬mayStopAt s.cmu least b := by
  unfold stopBoundary
  rw [List.find?_eq_none]
  simp only [mayStopAt_iff]

theorem brakingDistance_eq (v : Nat) : brakingDistance v = (v + 1) / 2 := by
  unfold brakingDistance roundHalfUp
  omega

theorem holdStop_eq (s : State) : holdStop s = (stopBoundary (brakingDistance s.scanSpeed) s).map fun x =>
    ⟨x, shortOf s.cmu.direction x (brakingDistance s.scanSpeed)⟩ := rfl

theorem stepStop_eq (s : State) : stepStop s = (stopBoundary 1 s).map fun x =>
    ⟨x, shortOf s.cmu.direction x (min (brakingDistance s.scanSpeed : Int) (ahead s.cmu.direction s.cmu.position x / 2))⟩ := rfl

/-- A stop is a boundary point with its command point. -/
theorem stop_some_iff {o : Option Int} {f : Int → Int} {x : HoldStop} :
    (o.map fun b => (⟨b, f b⟩ : HoldStop)) = some x ↔ o = some x.boundary ∧ x.command = f x.boundary := by
  cases o with
  | none => simp
  | some b =>
    obtain ⟨y, z⟩ := x
    simp only [Option.map_some, Option.some.injEq, HoldStop.mk.injEq]
    constructor
    · rintro ⟨rfl, rfl⟩
      exact ⟨rfl, rfl⟩
    · rintro ⟨rfl, rfl⟩
      exact ⟨rfl, rfl⟩

/-! ### The width test (R151, R153) -/

/-- R21, R153: the plan once the monitor's source is clear, for a carriage that does not stand PARKED. -/
def planFreed (s : State) : ScanPlan :=
  if s.override && !(s.cmu.parkSource || s.cmu.motionFault) then freedPlan s.cmu.plan else s.cmu.plan

/-- The monitor's source cleared for a carriage not PARKED, with no override untaken. -/
theorem clearMsmSource_moving {s : State} (hw : s.cmu.overrideUntaken = false) (hp : s.cmu.state ≠ .parked) :
    clearMsmSource s = (s.withMsm { s.msm with source := false }).withCmu { s.cmu with plan := planFreed s } := by
  obtain ⟨u, hu⟩ : ∃ u, s.withMsm { s.msm with source := false } = u := ⟨_, rfl⟩
  have hcmu : u.cmu = s.cmu := by rw [← hu]; rfl
  have hover : u.override = (s.cmu.parkSource || s.cmu.motionFault) := by rw [← hu]; simp [State.override]
  have hstart : clearMsmSource s = overrideCleared s.override u := by
    rw [clearMsmSource, flushOverride_of_taken hw, ← hu]
  rw [hstart, overrideCleared_eq, parkUnlessResume_freed, hover, hcmu]
  unfold planFreed
  split
  · exact (if_neg (by exact hp)).trans (by rw [hu])
  · rw [hu, ← hcmu]
    rfl

/-- What a generation's width test leaves of a state: all but the monitor, the alarm table, the ports, and the plan's mode. -/
structure WidthTested (s t : State) : Prop where
  held : t.held = s.held
  cmu : t.cmu = { s.cmu with plan := t.cmu.plan }
  plan : t.cmu.plan = s.cmu.plan ∨ (s.msm.state = .thread ∧ s.override = true ∧ t.cmu.plan = freedPlan s.cmu.plan)
  drive : t.drive = s.drive
  hbc : t.hbc = s.hbc
  osq : t.osq = s.osq
  scv : t.scv = s.scv
  rbs : t.rbs = s.rbs
  ebm : t.ebm = s.ebm
  pen : t.pen = s.pen
  azm : t.azm = s.azm
  cta : t.cta = s.cta
  monitor : s.msm.state ≠ .thread → t = s

theorem WidthTested.of_msm {s : State} {x : Msm} (h : s.msm.state = .thread) : WidthTested s (s.withMsm x) :=
  ⟨rfl, rfl, .inl rfl, rfl, rfl, rfl, rfl, rfl, rfl, rfl, rfl, rfl, fun k => absurd h k⟩

/-- A STATE notice changes the ports alone (R154). -/
theorem stateNotice_ports (new old : MachineState) (cause : StateCause) (s : State) :
    ∃ ports, stateNotice new old cause s = s.withPorts ports := ⟨_, State.notifyAll_eq s _ _⟩

theorem widthTested_run {s : State} (cause : StateCause) (o : OverrideOrder) (h : s.msm.state = .thread)
    (hw : s.cmu.overrideUntaken = false) (hp : s.cmu.state ≠ .parked) : WidthTested s (changeState .run cause o s) := by
  obtain ⟨u, hu⟩ : ∃ u, ((stateNotice .run s.msm.state cause (s.withMsm (enteredMsm .run s))).returnAlarm ptBreak).unsuppressAll = u :=
    ⟨_, rfl⟩
  obtain ⟨ports, hports⟩ := stateNotice_ports .run s.msm.state cause (s.withMsm (enteredMsm .run s))
  rw [hports] at hu
  have hcmu : u.cmu = s.cmu := by rw [← hu, State.unsuppressAll_cmu, State.returnAlarm_cmu]; rfl
  have hmsm : u.msm = enteredMsm .run s := by rw [← hu, State.unsuppressAll_msm, State.returnAlarm_msm]; rfl
  have hblocks : u.held = s.held ∧ u.drive = s.drive ∧ u.hbc = s.hbc ∧ u.osq = s.osq ∧ u.scv = s.scv ∧ u.rbs = s.rbs ∧
      u.ebm = s.ebm ∧ u.pen = s.pen ∧ u.azm = s.azm ∧ u.cta = s.cta := by
    rw [← hu]
    simp
  obtain ⟨h1, h2, h3, h4, h5, h6, h7, h8, h9, h10⟩ := hblocks
  rw [changeState_run, hports, hu, clearMsmSource_moving (by rw [hcmu]; exact hw) (by rw [hcmu]; exact hp)]
  refine ⟨h1, by rw [hcmu]; rfl, ?_, h2, h3, h4, h5, h6, h7, h8, h9, h10, fun k => absurd h k⟩
  have hover : u.override = s.override := by
    simp only [State.override, hcmu, hmsm, enteredMsm_source]
  show planFreed u = s.cmu.plan ∨ _
  unfold planFreed
  rw [hover, hcmu]
  split
  · next e =>
    rw [Bool.and_eq_true] at e
    exact .inr ⟨h, e.1, rfl⟩
  · exact .inl rfl

theorem widthTest_tested (g : Generation) {s : State}
    (h : s.msm.state = .thread → s.cmu.overrideUntaken = false ∧ s.cmu.state ≠ .parked) : WidthTested s (widthTest g s) := by
  unfold widthTest
  split
  · next ht =>
    obtain ⟨hw, hp⟩ := h ht.2
    split
    · split
      · exact .of_msm ht.2
      · exact widthTested_run _ _ ht.2 hw hp
    · exact .of_msm ht.2
  · exact ⟨rfl, rfl, .inl rfl, rfl, rfl, rfl, rfl, rfl, rfl, rfl, rfl, rfl, fun _ => rfl⟩

end Sys2Proof.Machine
end

section
/-! PROOFS. The traverse end up to the choice of motion, and HOLD, STEP and RESUME (R17 … R19, R117). -/

namespace Sys2Proof.Machine

open Safety

/-! ### The publication at a traverse end (R117) -/

/-- The state in which a publication's effects on the blocks end, before the push reports. -/
def widthTested (w : Window) (s : State) : State :=
  widthTest (publish w s).1 (beforeWidthTest (publish w s).1 (publish w s).2)

theorem publishTraverse_eq {s : State} {w : Window} (h : s.pen.window = some w) :
    publishTraverse s = (widthTested w s).withPorts
      ((widthTested w s).ports.map (servePort (publish w s).1 (widthTested w s).azm)) := by
  rw [publishTraverse, h] <;> rfl

/-- What the blocks before the width test leave. -/
theorem published_before (w : Window) (s : State) :
    Reported s (beforeWidthTest (publish w s).1 (publish w s).2) ∧
    (beforeWidthTest (publish w s).1 (publish w s).2).msm = s.msm ∧
    (beforeWidthTest (publish w s).1 (publish w s).2).pen = (publish w s).2.pen := by
  obtain ⟨h1, h2, _⟩ := beforeWidthTest_keeps (publish w s).1 (publish w s).2
  exact ⟨(reported_publish w s).trans (reported_beforeWidthTest _ _), h1.trans (publish_keeps w s).1, h2⟩

theorem publish_pen (w : Window) (s : State) : (publish w s).2.pen.window = none ∧
    (publish w s).2.pen.counter = s.pen.counter + 1 ∧ (publish w s).2.pen.lastScan = some s.pen.counter := by
  unfold publish
  dsimp only
  cases s.pen.slots[takeSlot s.pen] <;> exact ⟨rfl, rfl, rfl⟩

/-- R117: what a publication leaves of a travelling carriage with no override untaken in THREAD. -/
theorem widthTested_tested {w : Window} {s : State}
    (h : s.msm.state = .thread → s.cmu.overrideUntaken = false ∧ s.cmu.state ≠ .parked) :
    WidthTested (beforeWidthTest (publish w s).1 (publish w s).2) (widthTested w s) := by
  obtain ⟨hr, hm, _⟩ := published_before w s
  exact widthTest_tested _ (by rw [hm, hr.cmu]; exact h)

theorem publishTraverse_pen {w : Window} {s : State} (hw : s.pen.window = some w)
    (h : s.msm.state = .thread → s.cmu.overrideUntaken = false ∧ s.cmu.state ≠ .parked) :
    (publishTraverse s).pen = (publish w s).2.pen := by
  rw [publishTraverse_eq hw, State.withPorts_pen, (widthTested_tested h).pen, (published_before w s).2.2]

/-! ### The choice at a traverse end (R17) -/

theorem turnaround_state (s : State) : (turnaround s).cmu.state ∈ [CarriageState.turning, .toLimit] := by
  have hg : ∀ u : State, (goLimit u).cmu.state ∈ [CarriageState.turning, .toLimit] := fun u => by
    have h := goLimit_state u
    simp only [List.mem_cons, List.not_mem_nil, or_false] at h ⊢
    exact h.symm
  unfold turnaround
  dsimp only
  split
  · split
    · exact List.mem_cons_self
    · exact hg _
  · split
    · exact List.mem_cons_self
    · exact hg _

/-- R12, R17.5: a turnaround computes the limits and leaves the hold. -/
theorem turnaround_limits (s : State) : ((turnaround s).cmu.limF, (turnaround s).cmu.limB) = limitsOf s ∧
    (turnaround s).cmu.hold = s.cmu.hold ∧ (turnaround s).cmu.turnOwed = s.cmu.turnOwed := by
  have hg : ((goLimit (computeLimits s)).cmu.limF, (goLimit (computeLimits s)).cmu.limB) = limitsOf s ∧
      (goLimit (computeLimits s)).cmu.hold = s.cmu.hold ∧ (goLimit (computeLimits s)).cmu.turnOwed = s.cmu.turnOwed :=
    ⟨goLimit_limits _, (goLimit_ebm _).2.2.2.1, (goLimit_ebm _).2.2.2.2⟩
  unfold turnaround
  dsimp only
  split
  · split
    · exact ⟨rfl, rfl, rfl⟩
    · exact hg
  · split
    · exact ⟨rfl, rfl, rfl⟩
    · exact hg

theorem KeptByMoves.turnaround {P : State → Prop} (h : KeptByMoves P) {s : State} (hs : P s) : P (turnaround s) := by
  unfold Machine.turnaround
  dsimp only
  split
  · split
    · exact h.turn _ (h.limits hs)
    · exact h.goLimit (h.limits hs)
  · split
    · exact h.turn _ (h.limits hs)
    · exact h.goLimit (h.limits hs)

theorem KeptByMoves.chooseAtEnd {P : State → Prop} (h : KeptByMoves P) {s : State} (hh : P (holdAtLimit s)) (hs : P s) :
    P (chooseAtEnd s) := by
  unfold Machine.chooseAtEnd
  split
  · exact h.goStd (h.openStd hs)
  split
  · exact hh
  split
  · exact h.goPark h.nextMove hs
  · exact h.goFixed h.nextMove hs
  · exact h.turnaround hs

/-- R17: a traverse end leads to rest or to another motion. -/
theorem chooseAtEnd_state (s : State) : (chooseAtEnd s).cmu.state ∈ CarriageState.held :: chosenStates := by
  have hmem : ∀ {x : CarriageState}, x ∈ chosenStates → x ∈ CarriageState.held :: chosenStates := List.mem_cons_of_mem _
  have hn : ∀ u : State, u.cmu.state ∈ chosenStates → (nextMove u).cmu.state ∈ chosenStates := fun u _ => nextMove_chosen u
  unfold chooseAtEnd
  split
  · unfold beginStd goStd
    dsimp only
    split
    · exact hmem (show CarriageState.atStd ∈ chosenStates by decide)
    · exact hmem (show CarriageState.toStd ∈ chosenStates by decide)
  split
  · unfold holdAtLimit
    rw [(applyPendingGrade_keeps _).1]
    exact List.mem_cons_self
  split
  · exact hmem (goPark_chosen hn s)
  · exact hmem (goFixed_chosen hn s)
  · have h := turnaround_state s
    refine hmem ?_
    rcases List.mem_pair.1 h with e | e <;> rw [e] <;> decide

/-- The state a traverse end publishes and counts, when the carriage chooses (R17, R44). -/
def endCounted (s : State) : State := countScan (applyPendingPlan (publishTraverse (want 0 s)))

theorem traverseEnd_eq (s : State) : traverseEnd s = chooseAtEnd (computeLimits (endCounted s)) := rfl

theorem countScan_eq (s : State) :
    countScan s = s.withOsq (intervalOsq s.cmu.plan { s.osq with scanCount := satInc 255 s.osq.scanCount }) :=
  intervalCheck_eq _

/-- R117, R118: a traverse end publishes the scan and closes the window. -/
theorem traverseEnd_published {s : State} {w : Window} (hw : s.pen.window = some w)
    (h : s.msm.state = .thread → s.cmu.overrideUntaken = false ∧ s.cmu.state ≠ .parked) :
    (traverseEnd s).cmu.state ≠ .traverse ∧ (traverseEnd s).pen.window = none ∧
    (traverseEnd s).pen.counter = s.pen.counter + 1 ∧ (traverseEnd s).pen.lastScan = some s.pen.counter := by
  obtain ⟨p1, p2, p3⟩ := publish_pen w (want 0 s)
  have hpen : (publishTraverse (want 0 s)).pen = (publish w (want 0 s)).2.pen := publishTraverse_pen hw h
  have hcounted : (endCounted s).pen = (publish w (want 0 s)).2.pen := by
    rw [endCounted, countScan_eq, State.withOsq_pen, (applyPendingPlan_blocks _).1, hpen]
  have hm := motion_chooseAtEnd (computeLimits (endCounted s))
  have hwin : (endCounted s).pen.window = none := by rw [hcounted, p1]
  rw [traverseEnd_eq]
  refine ⟨fun e => ?_, ?_, hm.counter.trans ((congrArg Pen.counter hcounted).trans p2),
    hm.last.trans ((congrArg Pen.lastScan hcounted).trans p3)⟩
  · have hs := chooseAtEnd_state (computeLimits (endCounted s))
    rw [e] at hs
    revert hs
    decide
  · exact keptByMoves_window.chooseAtEnd ((applyPendingGrade_keeps _).2.2.2.2.2.trans hwin) hwin

end Sys2Proof.Machine
end

section
/-! PROOFS. HOLD, STEP and RESUME as requests (R18, R19). -/

namespace Sys2Proof.Machine

open Safety

theorem isArmed_iff (h : Hold) : isArmed h = true ↔ ∃ x, h = .armed x := by
  cases h <;> simp [isArmed]

theorem holdStop_iff (s : State) :
    (∀ x, holdStop s = some x ↔ stopBoundary (brakingDistance s.scanSpeed) s = some x.boundary ∧
      x.command = shortOf s.cmu.direction x.boundary (brakingDistance s.scanSpeed)) ∧
    (holdStop s = none ↔ stopBoundary (brakingDistance s.scanSpeed) s = none) := by
  rw [holdStop_eq]
  exact ⟨fun x => stop_some_iff, Option.map_eq_none_iff⟩

theorem stepStop_iff (s : State) :
    (∀ x, stepStop s = some x ↔ stopBoundary 1 s = some x.boundary ∧ x.command = shortOf s.cmu.direction x.boundary
      (min (brakingDistance s.scanSpeed : Int) (ahead s.cmu.direction s.cmu.position x.boundary / 2))) ∧
    (stepStop s = none ↔ stopBoundary 1 s = none) := by
  rw [stepStop_eq]
  exact ⟨fun x => stop_some_iff, Option.map_eq_none_iff⟩

/-! ### A hold in TRAVERSE (R18) -/

theorem checkCommandPoint_short {s : State}
    (h : ∀ x, s.cmu.hold = .armed (some x) → reached s.cmu.direction s.cmu.position x.command = false) :
    checkCommandPoint s = s := by
  unfold checkCommandPoint
  split
  · next x e => exact if_neg fun k => Bool.false_ne_true ((h x e).symm.trans k.2)
  · rfl

/-- The carriage HELD mid-traverse (R18). -/
def heldMidTraverse (s : State) : State :=
  want 0 (setCarriage .held (s.withCmu { s.cmu with hold := .none, turnOwed := false }))

theorem checkCommandPoint_reached {s : State} {x : HoldStop} (h : s.cmu.hold = .armed (some x)) (hs : s.cmu.state = .traverse)
    (hr : reached s.cmu.direction s.cmu.position x.command = true) (hstd : nothingDue s) :
    checkCommandPoint s = heldMidTraverse s := by
  unfold checkCommandPoint
  rw [h]
  dsimp only
  rw [if_pos ⟨hs, hr⟩]
  exact osqOccasion_not_takes (s := heldMidTraverse s) (nothingDue.not_takes hstd)

/-- The fixed-point period stands while the carriage neither enters nor leaves FIXED. -/
theorem periodAfter_aside {old new : CarriageState} {p : Option FixedPeriod} (ho : old ≠ .fixed) (hn : new ≠ .fixed) :
    periodAfter old new p = p := by
  rw [periodAfter, if_neg hn, if_neg ho]

theorem setCarriage_aside {st : CarriageState} {s : State} (hs : s.cmu.state ≠ .fixed) (hst : st ≠ .fixed) :
    setCarriage st s = s.withCmu { s.cmu with state := st } := by
  unfold setCarriage
  rw [periodAfter_aside hs hst] <;> rfl

theorem heldMidTraverse_eq {s : State} (hs : s.cmu.state = .traverse) : heldMidTraverse s =
    want 0 (s.withCmu { s.cmu with state := .held, hold := .none, turnOwed := false }) := by
  have e : (s.withCmu { s.cmu with hold := .none, turnOwed := false }).cmu.state ≠ .fixed :=
    fun k => nomatch hs.symm.trans k
  rw [heldMidTraverse, setCarriage_aside e (by decide)]
  rfl

/-! ### STEP and RESUME from HELD (R19) -/

/-- The carriage sent on mid-traverse with a hold. -/
def sentOn (h : Hold) (s : State) : State :=
  want (dirSign s.cmu.direction * s.scanSpeed) (s.withCmu { s.cmu with state := .traverse, hold := h })

theorem resumeTraverse_eq (h : Hold) {s : State} (hs : s.cmu.state = .held) :
    resumeTraverse h s = checkTarget (sentOn h s) := by
  have e : (s.withCmu { s.cmu with hold := h }).cmu.state ≠ .fixed := fun k => nomatch hs.symm.trans k
  unfold resumeTraverse
  rw [setCarriage_aside e (by decide)]
  rfl

theorem checkTarget_short {s : State}
    (h : ¬ ∃ target, s.cmu.compareTarget = some target ∧ reached s.cmu.direction s.cmu.position target = true) :
    checkTarget s = s := by
  unfold checkTarget
  split
  · next t e => exact if_neg fun k => h ⟨t, e, k⟩
  · rfl

theorem checkTarget_beyond {s : State} {target : Int} (h : s.cmu.compareTarget = some target)
    (hr : reached s.cmu.direction s.cmu.position target = true) : checkTarget s = traverseEnd s := by
  rw [checkTarget, h]
  exact if_pos hr

/-- R19: the turnaround owed, taken with a hold. -/
theorem resumeTurn_taken (h : Hold) (s : State) :
    (resumeTurn h s).cmu.state ∈ [CarriageState.turning, .toLimit] ∧ (resumeTurn h s).cmu.hold = h ∧
    (resumeTurn h s).cmu.turnOwed = false ∧ ((resumeTurn h s).cmu.limF, (resumeTurn h s).cmu.limB) = limitsOf s := by
  obtain ⟨h1, h2, h3⟩ := turnaround_limits (s.withCmu { s.cmu with hold := h, turnOwed := false })
  exact ⟨turnaround_state _, h2, h3, h1⟩

/-- The command of a row that changes the carriage alone, and answers. -/
theorem Row.exec_cmu {s : State} {p : Port} {m : InMsg} {need : Nat} {accepts : InMsg → Bool} {owner : Owner} {c : Instr}
    (h : Row s p m need accepts) (hc : Machine.exec c s = whenReleased s (request .whole p accepts owner))
    {parts : List (List Byte)} {x : Cmu}
    (ho : owner p m (s.updPort p (takenPort m)) = ((s.updPort p (takenPort m)).withCmu x, parts))
    (hl : parts.length ≤ need := by decide) : Machine.exec c s = .next { answered s p m parts with cmu := x } :=
  h.exec_changed hc (t := s.withCmu x) ho hl

/-- R18: HOLD by the carriage state. -/
theorem takeHold_cases (s : State) :
    (s.cmu.state ∈ [CarriageState.toStd, .atStd] →
      takeHold s = code rcDeferred (s.withCmu { s.cmu with hold := .owed .hold })) ∧
    (s.cmu.state = .traverse → takeHold s = code rcOk (armHold s).settleDrive) ∧
    (s.cmu.state ∉ [CarriageState.toStd, .atStd, .traverse] → takeHold s = code rcWrongState s) := by
  refine ⟨fun h => ?_, fun h => ?_, fun h => ?_⟩
  · unfold takeHold
    rcases List.mem_pair.1 h with e | e <;> rw [e]
  · unfold takeHold
    rw [h]
  · unfold takeHold
    cases e : s.cmu.state <;> simp_all

/-- R19: RESUME by the carriage state. -/
theorem takeResume_cases (s : State) :
    (s.cmu.state = .held → takeResume s =
      code rcOk (if s.cmu.turnOwed then resumeTurn .none s else resumeTraverse .none s).settleDrive) ∧
    (s.cmu.state = .traverse → isArmed s.cmu.hold = true →
      takeResume s = code rcOk (s.withCmu { s.cmu with hold := .none })) ∧
    (s.cmu.state ≠ .held → (s.cmu.state ≠ .traverse ∨ isArmed s.cmu.hold = false) → takeResume s = code rcWrongState s) := by
  refine ⟨fun h => ?_, fun h ha => ?_, fun h1 h2 => ?_⟩
  · unfold takeResume
    rw [h]
  · unfold takeResume
    rw [h, if_pos ha]
  · unfold takeResume
    cases e : s.cmu.state <;> simp_all

/-- Settles O47: the stops, then each request by the carriage state. -/
theorem holdStepAndResume : Obligations.HoldStepAndResume := by
  refine ⟨fun m => ⟨rfl, crossings_rev (some m), crossings_none⟩, ?_⟩
  intro s p m c v brake armed points mayStop first beyond
  have hbrake : (brakingDistance s.scanSpeed : Int) = brake := congrArg Nat.cast (brakingDistance_eq v)
  refine ⟨⟨fun x => ?_, ?_, fun x => ?_, ?_⟩, fun hw hp hh hd hov => ?_⟩
  · rw [(holdStop_iff s).1, stopBoundary_some, hbrake]
    exact Iff.rfl
  · rw [(holdStop_iff s).2, stopBoundary_none, hbrake]
    exact Iff.rfl
  · rw [(stepStop_iff s).1, stopBoundary_some, hbrake]
    exact Iff.rfl
  · rw [(stepStop_iff s).2, stopBoundary_none]
    exact Iff.rfl
  obtain ⟨u, hu⟩ : ∃ u, s.updPort p (takenPort m) = u := ⟨_, rfl⟩
  have hcmu : u.cmu = c := by rw [← hu]; rfl
  have hflush : flushOverride u = u := flushOverride_of_taken (by rw [hcmu]; exact hov)
  have hsettled : driveSettled u := by rw [← hu]; exact hd
  have htaken : ∀ owner, withToken owner p m u = owner p m u := fun owner => by rw [← hu]; exact withToken_taken m hh
  have hstops : holdStop u = holdStop s ∧ stepStop u = stepStop s ∧ limitsOf u = limitsOf s := by rw [← hu]; exact ⟨rfl, rfl, rfl⟩
  have hosq : u.osq = s.osq := by rw [← hu]; rfl
  have hpen : u.pen = s.pen := by rw [← hu]; rfl
  have hebm : u.ebm = s.ebm := by rw [← hu]; rfl
  have hspeed : u.scanSpeed = v := by rw [← hu]; rfl
  have harmed : isArmed u.cmu.hold = true ↔ armed := by rw [hcmu]; exact isArmed_iff _
  have hsent : ∀ h : Hold, c.state = .held → ¬ beyond → resumeTraverse h u = sentOn h u := fun h hs hb => by
    rw [resumeTraverse_eq h (by rw [hcmu]; exact hs)]
    exact checkTarget_short (s := sentOn h u) (by rw [sentOn, hcmu]; exact hb)
  have hsentOn : ∀ h : Hold, let t := (sentOn h u).settleDrive.updPort p (queueReply m [[rcOk]] 1)
      t.cmu = { c with state := .traverse, hold := h } ∧ t.drive.wanted = dirSign c.direction * v ∧ t.pen = s.pen ∧ t.ebm = s.ebm :=
    fun h => ⟨by rw [← hcmu]; rfl, (State.settleDrive_wanted (s := sentOn h u)).trans (by rw [← hcmu, ← hspeed]; rfl), hpen, hebm⟩
  have hturn : ∀ h : Hold, let t := (resumeTurn h u).settleDrive.updPort p (queueReply m [[rcOk]] 1)
      t.cmu.state ∈ [CarriageState.turning, .toLimit] ∧ t.cmu.hold = h ∧ t.cmu.turnOwed = false ∧
      (t.cmu.limF, t.cmu.limB) = limitsOf s := fun h => by
    obtain ⟨h1, h2, h3, h4⟩ := resumeTurn_taken h u
    exact ⟨h1, h2, h3, h4.trans hstops.2.2⟩
  refine ⟨fun hk => ?hold, fun hk => ?step, fun hk => ?resume, fun hs hto hb hwin row hrow => ?beyond⟩
  case hold =>
    have row : Row s p m 1 (ofKind 16) := Row.of_kind hw hk (by rw [hp]; rfl) (by cases p <;> rfl)
    obtain ⟨hdefer, htrav, hwrong⟩ := takeHold_cases u
    rw [hcmu] at hdefer htrav hwrong
    have hown : withToken ownHold p m u = takeHold u := by rw [htaken, ownHold, hflush]
    refine ⟨fun hs => ?_, fun hs ha => ?_, fun hs ha => ⟨fun hshort => ?_, fun x hx hr hstd => ?_⟩, fun hs => ?_⟩
    · refine row.exec_cmu (owner := withToken ownHold) rfl ?_
      rw [hu, hown, hdefer hs]
      rfl
    · refine row.exec_answered (owner := withToken ownHold) rfl ?_
      rw [hu, hown, htrav hs, armHold, if_pos (harmed.2 ha), State.settleDrive_of_settled hsettled]
      rfl
    · refine row.exec_cmu (owner := withToken ownHold) rfl ?_
      have hcheck : armHold u = u.withCmu { c with hold := .armed (holdStop s) } := by
        rw [armHold, if_neg (fun k => ha (harmed.1 k)), hcmu, hstops.1]
        refine checkCommandPoint_short fun x hx => ?_
        exact hshort x (Hold.armed.inj hx)
      rw [hu, hown, htrav hs, hcheck,
        State.settleDrive_of_settled (s := u.withCmu { c with hold := .armed (holdStop s) }) hsettled]
      rfl
    · have hcheck : armHold u = heldMidTraverse (u.withCmu { c with hold := .armed (some x) }) := by
        rw [armHold, if_neg (fun k => ha (harmed.1 k)), hcmu, hstops.1, hx]
        refine checkCommandPoint_reached (x := x) rfl hs hr ?_
        unfold nothingDue
        rw [State.withCmu_osq, hosq]
        rintro ⟨h1, h2⟩
        rcases hstd with e | e
        · rw [e] at h1; cases h1
        · exact e h2
      rw [htrav hs, hcheck, heldMidTraverse_eq (s := u.withCmu { c with hold := .armed (some x) }) hs] at hown
      obtain ⟨hexec, hreply⟩ := row.exec_replied (owner := withToken ownHold) (c := .hold p .whole) rfl
        ((congrArg _ hu).trans hown)
      exact ⟨_, hexec, hreply, rfl, State.settleDrive_wanted _, hpen, hebm⟩
    · refine row.exec_answered (owner := withToken ownHold) rfl ?_
      rw [hu, hown, hwrong hs]
      rfl
  case step =>
    have row : Row s p m 1 (ofKind 17) := Row.of_kind hw hk (by rw [hp]; rfl) (by cases p <;> rfl)
    have hown : withToken ownStep p m u = takeStep u := by rw [htaken, ownStep, hflush]
    rw [takeStep, hcmu] at hown
    refine ⟨fun hs hto hb => ?_, fun hs hto => ?_, fun hs => ?_⟩
    · rw [if_pos hs, if_neg (by rw [hto]; decide), hstops.2.1, hsent _ hs hb] at hown
      obtain ⟨hexec, hreply⟩ := row.exec_replied (owner := withToken ownStep) (c := .step p .whole) rfl
        ((congrArg _ hu).trans hown)
      exact ⟨_, hexec, hreply, hsentOn _⟩
    · rw [if_pos hs, if_pos hto] at hown
      obtain ⟨hexec, hreply⟩ := row.exec_replied (owner := withToken ownStep) (c := .step p .whole) rfl
        ((congrArg _ hu).trans hown)
      exact ⟨_, hexec, hreply, hturn _⟩
    · refine row.exec_answered (owner := withToken ownStep) rfl ?_
      rw [hu, hown, if_neg hs]
      rfl
  case resume =>
    have row : Row s p m 1 (ofKind 18) := Row.of_kind hw hk (by rw [hp]; rfl) (by cases p <;> rfl)
    obtain ⟨hheld, htrav, hwrong⟩ := takeResume_cases u
    rw [hcmu] at hheld htrav hwrong
    have hown : withToken ownResume p m u = takeResume u := by rw [htaken, ownResume, hflush]
    refine ⟨fun hs hto hb => ?_, fun hs hto => ?_, fun hs ha => ?_, fun hs ha => ?_⟩
    · rw [hheld hs, if_neg (by rw [hto]; decide), hsent _ hs hb] at hown
      obtain ⟨hexec, hreply⟩ := row.exec_replied (owner := withToken ownResume) (c := .resume p .whole) rfl
        ((congrArg _ hu).trans hown)
      exact ⟨_, hexec, hreply, hsentOn _⟩
    · rw [hheld hs, if_pos hto] at hown
      obtain ⟨hexec, hreply⟩ := row.exec_replied (owner := withToken ownResume) (c := .resume p .whole) rfl
        ((congrArg _ hu).trans hown)
      exact ⟨_, hexec, hreply, hturn _⟩
    · refine row.exec_cmu (owner := withToken ownResume) rfl ?_
      rw [hu, hown, htrav hs ((isArmed_iff _).2 ha)]
      rfl
    · refine row.exec_answered (owner := withToken ownResume) rfl ?_
      rw [hu, hown, hwrong hs (ha.imp id fun k => Bool.eq_false_iff.2 fun e => k ((isArmed_iff _).1 e))]
      rfl
  case beyond =>
    obtain ⟨target, ht, hr⟩ := hb
    obtain ⟨w, hwin⟩ := Option.ne_none_iff_exists'.1 hwin
    have hend : ∀ h : Hold, let t := (resumeTraverse h u).settleDrive.updPort p (queueReply m [[rcOk]] 1)
        t.cmu.state ≠ .traverse ∧ t.pen.window = none ∧ t.pen.counter = s.pen.counter + 1 ∧
        t.pen.lastScan = some s.pen.counter := fun h => by
      have e : resumeTraverse h u = traverseEnd (sentOn h u) := by
        rw [resumeTraverse_eq h (by rw [hcmu]; exact hs)]
        exact checkTarget_beyond (s := sentOn h u) (target := target) (by rw [sentOn, hcmu]; exact ht)
          (by rw [sentOn, hcmu]; exact hr)
      have hmoving : (sentOn h u).msm.state = .thread →
          (sentOn h u).cmu.overrideUntaken = false ∧ (sentOn h u).cmu.state ≠ .parked :=
        fun _ => ⟨by rw [sentOn, hcmu]; exact hov, by rw [sentOn]; exact nofun⟩
      have hpub := traverseEnd_published (s := sentOn h u) (w := w) (by rw [← hwin, ← hpen]; rfl) hmoving
      rw [← e, show (sentOn h u).pen = s.pen from hpen] at hpub
      exact hpub
    rcases hrow with ⟨hk, rfl⟩ | ⟨hk, rfl⟩
    · have row : Row s p m 1 (ofKind 17) := Row.of_kind hw hk (by rw [hp]; rfl) (by cases p <;> rfl)
      have hown : withToken ownStep p m u = code rcOk (resumeTraverse (.armed (stepStop s)) u).settleDrive := by
        rw [htaken, ownStep, hflush, takeStep, hcmu, if_pos hs, if_neg (by rw [hto]; decide), hstops.2.1]
      obtain ⟨hexec, hreply⟩ := row.exec_replied (owner := withToken ownStep) (c := .step p .whole) rfl
        ((congrArg _ hu).trans hown)
      exact ⟨_, hexec, hreply, hend _⟩
    · have row : Row s p m 1 (ofKind 18) := Row.of_kind hw hk (by rw [hp]; rfl) (by cases p <;> rfl)
      have hown : withToken ownResume p m u = code rcOk (resumeTraverse .none u).settleDrive := by
        rw [htaken, ownResume, hflush, (takeResume_cases u).1 (by rw [hcmu]; exact hs), hcmu, if_neg (by rw [hto]; decide)]
      obtain ⟨hexec, hreply⟩ := row.exec_replied (owner := withToken ownResume) (c := .resume p .whole) rfl
        ((congrArg _ hu).trans hown)
      exact ⟨_, hexec, hreply, hend _⟩

end Sys2Proof.Machine
end

section
/-! PROOFS. An encoder count: the compares and the arrivals (R3, R14 … R18, R48). -/

namespace Sys2Proof.Machine

open Safety

/-! ### A count and what follows it -/

theorem exec_encoderCount {d : Dir} {s : State} (h : s.held = false) : exec (.encoderCount d) s = .next (encoderCount d s) :=
  exec_released (f := encoderCount d) rfl h

theorem countCompares_unhomed {d : Dir} {s : State} (h : s.cmu.homed = false) :
    countCompares d (countPosition d s) = countPosition d s :=
  if_neg (by rw [show (countPosition d s).cmu.homed = s.cmu.homed from rfl, h]; decide)

/-- Inside the window a homed carriage makes its compares (R5). -/
theorem countCompares_inside {d : Dir} {s : State} (hh : s.cmu.homed = true) (h1 : -500 ≤ s.cmu.position + dirSign d)
    (h2 : s.cmu.position + dirSign d ≤ (s.rbs.common.pMax : Int) + 500) :
    countCompares d (countPosition d s) = arrivals d (countPosition d s) := by
  have hin : inWindow (countPosition d s).rbs.common.pMax (countPosition d s).cmu.position = true := by
    show inWindow s.rbs.common.pMax (s.cmu.position + dirSign d) = true
    simp [inWindow, h1, h2]
  exact (if_pos (show (countPosition d s).cmu.homed = true from hh)).trans (if_pos hin)

/-- A count after which no override waits. -/
theorem encoderCount_taken {d : Dir} {s t : State} (ht : countCompares d (countPosition d s) = t)
    (hw : t.cmu.overrideWait = 0) : encoderCount d s = t.settleDrive := by
  unfold encoderCount
  rw [ht, overrideAfterCount_of_taken _ hw]

/-- A count that meets no compare (R3, log entry 7). -/
theorem encoderCount_missed {d : Dir} {s : State} (hw : s.cmu.overrideWait ≠ 1) (hd : driveSettled s)
    (h : countCompares d (countPosition d s) = countPosition d s) :
    encoderCount d s = (countPosition d s).withCmu
      { (countPosition d s).cmu with overrideWait := s.cmu.overrideWait - 1 } := by
  have hover : overrideAfterCount s.cmu.state (countPosition d s) = (countPosition d s).withCmu
      { (countPosition d s).cmu with overrideWait := s.cmu.overrideWait - 1 } := by
    by_cases h0 : s.cmu.overrideWait = 0
    · have e : (countPosition d s).cmu.overrideWait = s.cmu.overrideWait - 1 := by
        show s.cmu.overrideWait = _
        rw [h0]
      rw [overrideAfterCount_of_taken _ (s := countPosition d s) h0, ← e]
      rfl
    · exact overrideAfterCount_of_waits (s := countPosition d s) (by show 2 ≤ s.cmu.overrideWait; omega)
  unfold encoderCount
  rw [h, hover]
  refine State.settleDrive_of_settled (s := (countPosition d s).withCmu _) fun k => hd ?_
  have k : s.drive.dwell.map (fun w => { w with sinceCount := 0 }) = none := k
  exact Option.map_eq_none_iff.1 k

/-! ### The compares by carriage state (R14 … R18) -/

theorem arrivals_rest {d : Dir} {s : State}
    (h : s.cmu.state ∈ [CarriageState.unhomed, .homing, .parked, .held, .fixed, .atStd, .fault]) : arrivals d s = s := by
  unfold arrivals
  simp only [List.mem_cons, List.not_mem_nil, or_false] at h
  rcases h with e | e | e | e | e | e | e <;> simp only [e]

theorem arrivals_short {d : Dir} {s : State} (h : s.cmu.state ∈ [CarriageState.toPark, .toFixed, .toStd, .toLimit])
    (hr : reached s.cmu.travelDir s.cmu.position s.cmu.travelTarget = false) : arrivals d s = s := by
  unfold arrivals
  simp only [List.mem_cons, List.not_mem_nil, or_false] at h
  rcases h with e | e | e | e <;> simp only [e, hr, Bool.false_eq_true, if_false]

theorem arrivals_coasting {d : Dir} {s : State} (h : s.cmu.state = .turning) (hd : d ≠ s.cmu.travelDir) :
    arrivals d s = s := by
  unfold arrivals
  simp only [h, if_neg hd]

theorem arrivals_traverse {d : Dir} {s : State} (h : s.cmu.state = .traverse) :
    arrivals d s = if s.cmu.compareTarget.elim false (reached s.cmu.direction s.cmu.position) then traverseEnd s
      else checkCommandPoint s := by
  unfold arrivals
  simp only [h]

theorem targetMet_iff (s : State) : s.cmu.compareTarget.elim false (reached s.cmu.direction s.cmu.position) = true ↔
    ∃ target, s.cmu.compareTarget = some target ∧ reached s.cmu.direction s.cmu.position target = true := by
  cases s.cmu.compareTarget <;> simp

theorem arrivals_traversing {d : Dir} {s : State} (h : s.cmu.state = .traverse)
    (hm : ¬ ∃ target, s.cmu.compareTarget = some target ∧ reached s.cmu.direction s.cmu.position target = true) :
    arrivals d s = checkCommandPoint s := by
  rw [arrivals_traverse h, if_neg fun k => hm ((targetMet_iff s).1 k)]

theorem arrivals_toPark {d : Dir} {s : State} (h : s.cmu.state = .toPark)
    (hr : reached s.cmu.travelDir s.cmu.position s.cmu.travelTarget = true) : arrivals d s = arriveParked nextMove s := by
  unfold arrivals
  simp only [h, hr, if_true]

theorem arrivals_toFixed {d : Dir} {s : State} (h : s.cmu.state = .toFixed)
    (hr : reached s.cmu.travelDir s.cmu.position s.cmu.travelTarget = true) : arrivals d s = arriveFixed nextMove s := by
  unfold arrivals
  simp only [h, hr, if_true]

theorem arrivals_toStd {d : Dir} {s : State} (h : s.cmu.state = .toStd)
    (hr : reached s.cmu.travelDir s.cmu.position s.cmu.travelTarget = true) : arrivals d s = arriveStd s := by
  unfold arrivals
  simp only [h, hr, if_true]

theorem arrivals_inside {d : Dir} {s : State} (h : s.cmu.state = .toLimit) (ha : s.cmu.approach = .inside)
    (hr : reached s.cmu.travelDir s.cmu.position s.cmu.travelTarget = true) :
    arrivals d s = enterTurning (dirOpp s.cmu.travelDir) s := by
  unfold arrivals
  simp only [h, hr, ha, if_true]

/-! ### Arrivals (R15, R48) -/

/-- R86: no grade is pending once it is applied. -/
theorem applyPendingGrade_none (s : State) : (applyPendingGrade s).rbs.pending = none := by
  unfold applyPendingGrade
  split
  · next h => exact h
  · unfold applyGrade
    split
    · rfl
    · dsimp only
      rw [State.returnAlarms_rbs]
      rfl

theorem keptByMoves_noGrade : KeptByMoves fun s => s.rbs.pending = none where
  travel _ _ _ _ _ h := h
  turn _ h := h
  limits h := h
  rest _ h := h
  atStd h := h
  openStd h := h
  abort {s} h := by
    have e : (abortTraverse s).rbs = s.rbs := by unfold abortTraverse; split <;> rfl
    rw [e]; exact h
  grade {s} _ := applyPendingGrade_none s
  plan {s} h := by rw [(applyPendingPlan_blocks s).2.2.1]; exact h

theorem takeStd_sends (s : State) : (takeStd s).cmu.state ∈ [CarriageState.toStd, .atStd] ∧
    (takeStd s).osq.step ∈ [OsqStep.travel, .settle] := by
  obtain ⟨_, _, haway, hthere⟩ := takeStd_goes s
  by_cases hpos : s.cmu.position = s.rbs.common.stdPos
  · rw [(hthere hpos).2.1, (hthere hpos).1]
    decide
  · rw [(haway hpos).2.1, (haway hpos).1]
    decide

/-- The carriage at rest in a state, with the pending grade and the pending plan applied (R15, R86, R183). -/
def rested (st : CarriageState) (s : State) : State := applyPendingPlan (applyPendingGrade (comeToRest st s))

theorem arriveParked_eq (next : State → State) (s : State) : arriveParked next s = next (rested .parked s) := rfl

theorem motion_rested (st : CarriageState) (s : State) : Motion s (rested st s) :=
  ((motion_comeToRest st s).trans (motion_applyPendingGrade _)).trans (motion_applyPendingPlan _)

theorem rested_cmu (st : CarriageState) (s : State) :
    (rested st s).cmu = { s.cmu with state := st, skipCount := 0, plan := s.cta.pending.getD s.cmu.plan } ∧
    (rested st s).cta.pending = none ∧ (rested st s).rbs.pending = none ∧ (rested st s).osq.step = s.osq.step ∧
    (rested st s).drive.wanted = 0 := by
  obtain ⟨hcmu, hdrive, hosq, _, hcta, _⟩ := applyPendingGrade_keeps (comeToRest st s)
  obtain ⟨pcmu, pcta⟩ := applyPendingPlan_plan (applyPendingGrade (comeToRest st s))
  have hpd : (applyPendingPlan (applyPendingGrade (comeToRest st s))).drive = (applyPendingGrade (comeToRest st s)).drive := by
    unfold applyPendingPlan
    split
    · rfl
    · exact applyPlan_drive _ _
  unfold rested
  refine ⟨?_, by rw [pcta], ?_, ?_, ?_⟩
  · rw [pcmu, hcmu, hcta]
    rfl
  · rw [(applyPendingPlan_blocks _).2.2.1]
    exact applyPendingGrade_none _
  · rw [applyPendingPlan_step, hosq]
    rfl
  · rw [hpd, hdrive]
    rfl

/-- With no plan pending the arrival leaves the OSQ. -/
theorem rested_osq {st : CarriageState} {s : State} (h : s.cta.pending = none) : (rested st s).osq = s.osq := by
  unfold rested
  rw [applyPending_rested (by exact h), (applyPendingGrade_keeps _).2.2.1]
  rfl

end Sys2Proof.Machine
end

section
/-! PROOFS. The counts that meet no compare, and the arrivals of the travels (R3, R14, R15, R18, R48). -/

namespace Sys2Proof.Machine

open Safety

/-- An arrival TO_PARK: PARKED first, then the next motion (R13, R15). -/
theorem arriveParked_nextMove {m : State} (hw : m.cmu.overrideWait = 0) :
    let t := arriveParked nextMove m
    t.cmu.overrideWait = 0 ∧ t.cmu.position = m.cmu.position ∧ t.cmu.plan = m.cta.pending.getD m.cmu.plan ∧
    t.cta.pending = none ∧ t.rbs.pending = none ∧
    (m.osq.due = true → m.osq.step = .idle →
      t.cmu.state ∈ [CarriageState.toStd, .atStd] ∧ t.osq.step ∈ [OsqStep.travel, .settle]) ∧
    (nothingDue m → m.cta.pending = none →
      ((m.override = true ∨ m.cmu.plan.mode = .park) → t = rested .parked m) ∧
      (m.override = false → m.cmu.plan.mode = .fixed → t.cmu.state ∈ [CarriageState.toFixed, .fixed]) ∧
      (m.override = false → m.cmu.plan.mode = .scan → t.cmu.state ∈ [CarriageState.toLimit, .turning])) := by
  intro t
  obtain ⟨r, hr⟩ : ∃ r, rested .parked m = r := ⟨_, rfl⟩
  have ht : t = nextMove r := by rw [← hr]; rfl
  have hmr : Motion m r := by rw [← hr]; exact motion_rested .parked m
  obtain ⟨hcmu, hcta, hrbs, hstep, _⟩ := rested_cmu .parked m
  rw [hr] at hcmu hcta hrbs hstep ⊢
  have hstate : r.cmu.state = .parked := by rw [hcmu]
  have hrw : r.cmu.overrideWait = 0 := by rw [hcmu]; exact hw
  have hmt := motion_nextMove r
  rw [ht]
  refine ⟨Nat.eq_zero_of_le_zero (hrw ▸ hmt.wait), (hmr.trans hmt).position, (hmt.plan hcta).2.trans (by rw [hcmu]),
    (hmt.plan hcta).1, keptByMoves_noGrade.nextMove hrbs, fun hd hs => ?_, fun hn hp => ?_⟩
  · have htakes : osqTakes r = true := by
      simp [osqTakes, hmr.due hd, hstep, hs, hstate]
    rw [nextMove_takes htakes]
    exact takeStd_sends r
  · have hrplan : r.cmu.plan = m.cmu.plan := by rw [hcmu, hp]; rfl
    have hfree : nothingDue r := by unfold nothingDue; rw [← hr, rested_osq hp]; exact hn
    rw [← hmr.override, ← hrplan]
    refine ⟨fun h => ?_, fun ho hm => ?_, fun ho hm => ?_⟩
    · by_cases ho : r.override = true
      · have htaken : r.overrideTaken = true := by simp [State.overrideTaken, ho, Cmu.overrideUntaken, hrw]
        exact (actOnPlan_moves r.cmu.plan).1 hstate ▸ (actOnPlan_stays r.cmu.plan).1 hstate hfree.not_takes htaken
      · have ho : r.override = false := Bool.eq_false_iff.2 ho
        have hm : r.cmu.plan.mode = .park := h.resolve_left (by rw [ho]; decide)
        exact (nextMove_parked hstate ho (by
          by_cases hd : r.osq.due = true
          · exact .inr fun k => hfree ⟨hd, k⟩
          · exact .inl (Bool.eq_false_iff.2 hd))).1 hm
    · have e : nextMove r = goFixed (nextMotion 5) r := by
        have := nextMotion_free (n := 5) hfree.not_takes ho
        rw [hm] at this
        exact this
      rw [e, goFixed_free hcta hm hfree]
      split <;> decide
    · have e : nextMove r = goLimit r := by
        have := nextMotion_free (n := 5) hfree.not_takes ho
        rw [hm] at this
        exact this
      rw [e]
      exact goLimit_state r

/-- R86, R128: a grade applied in FIXED begins the fixed-point period anew. -/
theorem applyPendingGrade_period {s : State} (hs : s.cmu.state = .fixed) (hp : s.pen.period = some fixedPeriodFresh) :
    (applyPendingGrade s).pen.period = some fixedPeriodFresh := by
  unfold applyPendingGrade
  split
  · exact hp
  · unfold applyGrade
    split
    · exact hp
    · dsimp only
      rw [State.returnAlarms_pen]
      show (if s.cmu.state = .fixed then s.pen.period.map (fun _ => fixedPeriodFresh) else s.pen.period) = _
      rw [if_pos hs, hp]
      rfl

/-- An arrival TO_FIXED under an unchanged plan FIXED (R15, R128). -/
theorem arriveFixed_stays {next : State → State} {m : State} (hst : m.cmu.state ≠ .fixed) (hp : m.cta.pending = none)
    (hm : m.cmu.plan.mode = .fixed) (hstd : nothingDue m ∨ m.osq.requested = false) :
    arriveFixed next m = rested .fixed m ∧ (rested .fixed m).pen.period = some fixedPeriodFresh := by
  obtain ⟨hcmu, hcta, _⟩ := rested_cmu .fixed m
  have hosq := rested_osq (st := .fixed) hp
  have htakes : ¬ osqTakes (rested .fixed m) = true := by
    intro k
    have k : (osqTakes m = true ∨ True) ∧ m.osq.due = true ∧ m.osq.step = .idle ∧ m.osq.requested = true := by
      simp only [osqTakes, hosq, hcmu, Bool.and_eq_true, beq_iff_eq, Bool.or_eq_true] at k
      exact ⟨.inr trivial, k.1.1, k.1.2, by simpa using k.2⟩
    rcases hstd with h | h
    · exact h ⟨k.2.1, k.2.2.1⟩
    · rw [h] at k
      exact Bool.false_ne_true k.2.2.2
  have hplan : (rested .fixed m).cmu.plan = m.cmu.plan := by rw [hcmu, hp]; rfl
  refine ⟨?_, ?_⟩
  · unfold arriveFixed
    dsimp only
    rw [show applyPendingPlan (applyPendingGrade (comeToRest .fixed m)) = rested .fixed m from rfl, if_neg htakes, hplan,
      if_pos ⟨hm, rfl⟩]
  · have hrest : (comeToRest .fixed m).pen.period = some fixedPeriodFresh := by
      show periodAfter m.cmu.state .fixed m.pen.period = _
      rw [periodAfter, if_pos rfl, if_neg hst]
    rw [rested, applyPending_rested (by exact hp)]
    exact applyPendingGrade_period rfl hrest

/-- Settles O6: the phase pair, the counts without a compare, and the arrivals. -/
theorem countWithoutArrivalMovesThePosition : Obligations.CountWithoutArrivalMovesThePosition := by
  refine ⟨⟨rfl, rfl, rfl, rfl, fun p => by obtain ⟨a, b⟩ := p; cases a <;> cases b <;> rfl⟩, ?_⟩
  intro d s pos moved inside arrives targetMet osqTakesNone plan hheld
  obtain ⟨m, hm⟩ : ∃ m, countPosition d s = m := ⟨_, rfl⟩
  have hcmu : m.cmu = moved := by rw [← hm]; rfl
  have hcompares : inside → countCompares d m = arrivals d m := fun hin => by
    rw [← hm]; exact countCompares_inside hin.1 hin.2.1 hin.2.2
  have hexec : ∀ {t : State}, inside → arrivals d m = t → t.cmu.overrideWait = 0 →
      exec (.encoderCount d) s = .next t.settleDrive := fun hin ht hw => by
    rw [exec_encoderCount hheld, encoderCount_taken (by rw [hm, hcompares hin, ht]) hw]
  have hstate : m.cmu.state = s.cmu.state := by rw [hcmu]
  have hreach : reached m.cmu.travelDir m.cmu.position m.cmu.travelTarget = arrives := by rw [hcmu]
  have hosq : m.osq = s.osq := by rw [← hm]; rfl
  have hcta : m.cta = s.cta := by rw [← hm]; rfl
  have hrbs : m.rbs = s.rbs := by rw [← hm]; rfl
  have hpen : m.pen = s.pen := by rw [← hm]; rfl
  have hebm : m.ebm = s.ebm := by rw [← hm]; rfl
  have hover : m.override = s.override := by rw [← hm]; rfl
  have hnone : osqTakesNone → nothingDue m := fun h => by
    unfold nothingDue
    rw [hosq]
    rintro ⟨h1, h2⟩
    rcases h with e | e
    · exact Bool.false_ne_true (e.symm.trans h1)
    · exact e h2
  refine ⟨fun hw hd hcase => ?missed, fun hin hov => ⟨fun hs ha => ?toPark, fun hs ha hp ho hmode hstd => ?toFixed,
    fun hs ha => ?toStd, fun hs hap ha => ?toLimit, fun x hs ht hx hr hstd => ?traverse⟩⟩
  case missed =>
    have hmiss : countCompares d (countPosition d s) = countPosition d s := by
      rcases hcase with h | ⟨hin, hcase⟩
      · exact countCompares_unhomed h
      · rw [hm, hcompares hin]
        rcases hcase with h | ⟨h, hr⟩ | ⟨h, hd⟩ | ⟨h, hmet, hx⟩
        · exact arrivals_rest (by rw [hstate]; exact h)
        · exact arrivals_short (by rw [hstate]; exact h) (by rw [hreach]; exact hr)
        · exact arrivals_coasting (by rw [hstate]; exact h) (by rw [hcmu]; exact hd)
        · rw [arrivals_traversing (by rw [hstate]; exact h) (by rw [hcmu]; exact hmet)]
          exact checkCommandPoint_short (by rw [hcmu]; exact hx)
    rw [exec_encoderCount hheld, encoderCount_missed hw hd hmiss]
    rfl
  all_goals
    have hwait : s.cmu.overrideWait = 0 := (overrideUntaken_eq_false _).1 hov
    have hmw : m.cmu.overrideWait = 0 := by rw [hcmu]; exact hwait
  case toPark =>
    obtain ⟨h1, h2, h3, h4, h5, h6, h7⟩ := arriveParked_nextMove (m := m) hmw
    refine ⟨_, hexec hin (arrivals_toPark (by rw [hstate]; exact hs) (by rw [hreach]; exact ha)) h1, ?_, ?_, h4, h5, ?_, ?_⟩
    · exact h2.trans (by rw [hcmu])
    · exact h3.trans (by rw [hcta, hcmu])
    · rw [hosq] at h6; exact h6
    · rw [hcta, hover, hcmu] at h7
      intro hn hp
      obtain ⟨k1, k2, k3⟩ := h7 (hnone hn) hp
      have hplan : plan = s.cmu.plan := by show s.cta.pending.getD _ = _; rw [hp]; rfl
      rw [hplan]
      refine ⟨fun h => ?_, k2, k3⟩
      obtain ⟨r1, _, _, _, r5⟩ := rested_cmu .parked m
      rw [k1 h, State.settleDrive_cmu, State.settleDrive_wanted, r1, r5, hcta, hcmu, hp]
      exact ⟨rfl, rfl⟩
  case toFixed =>
    have hplan : plan = s.cmu.plan := by show s.cta.pending.getD _ = _; rw [hp]; rfl
    obtain ⟨e, hper⟩ := arriveFixed_stays (next := nextMove) (m := m) (by rw [hstate, hs]; decide) (by rw [hcta]; exact hp)
      (by rw [hcmu]; exact hplan ▸ hmode) (hstd.imp hnone fun k => by rw [hosq]; exact k)
    obtain ⟨r1, _, r3, _, r5⟩ := rested_cmu .fixed m
    refine ⟨_, hexec hin ((arrivals_toFixed (by rw [hstate]; exact hs) (by rw [hreach]; exact ha)).trans e) ?_, ?_, ?_, r3, hper⟩
    · rw [r1]; exact hmw
    · rw [State.settleDrive_cmu, r1, hcta, hcmu, hp]; rfl
    · rw [State.settleDrive_wanted, r5]
  case toStd =>
    refine ⟨_, hexec hin (arrivals_toStd (by rw [hstate]; exact hs) (by rw [hreach]; exact ha)) (hmw), ?_,
      State.settleDrive_wanted _, by rw [← hosq]; rfl, hcta, hrbs, ?_⟩
    · rw [← hcmu]; rfl
    · show { m.pen with period := periodAfter m.cmu.state .atStd m.pen.period } = s.pen
      rw [periodAfter_aside (by rw [hstate, hs]; decide) (by decide), hpen]
  case toLimit =>
    have hdir : m.cmu.travelDir = s.cmu.travelDir := by rw [hcmu]
    refine ⟨_, hexec hin (arrivals_inside (by rw [hstate]; exact hs) (by rw [hcmu]; exact hap) (by rw [hreach]; exact ha))
      hmw, ?_, ?_, ?_, hebm⟩
    · rw [← hdir, ← hcmu]; rfl
    · rw [State.settleDrive_wanted, hdir, ← hm]; rfl
    · show { m.pen with period := periodAfter m.cmu.state .turning m.pen.period } = s.pen
      rw [periodAfter_aside (by rw [hstate, hs]; decide) (by decide), hpen]
  case traverse =>
    have e : arrivals d m = heldMidTraverse m := by
      rw [arrivals_traversing (by rw [hstate]; exact hs) (by rw [hcmu]; exact ht)]
      exact checkCommandPoint_reached (x := x) (by rw [hcmu]; exact hx) (by rw [hstate]; exact hs) (by rw [hcmu]; exact hr)
        (hnone hstd)
    rw [heldMidTraverse_eq (by rw [hstate]; exact hs)] at e
    refine ⟨_, hexec hin e (hmw), ?_, State.settleDrive_wanted _, hpen, hebm⟩
    rw [← hcmu]; rfl

end Sys2Proof.Machine
end

section
/-! PROOFS. The traverse start (R16, R91, R100, R101, R107). -/

namespace Sys2Proof.Machine

open Safety

/-- The state at a traverse start with the pending grade applied. -/
def startGraded (d : Dir) (m : State) : State := applyPendingGrade (traverseEntered d m)

/-- The map a traverse start builds (R100). -/
def startedMap (d : Dir) (m : State) : BinMap := buildMap (startGraded d m).rbs.activeBank m.ebm.ef m.ebm.eb

/-- The traverse context a start records (R107). -/
def startedCtx (d : Dir) (m : State) : TraverseCtx :=
  ⟨m.hbc.cycle, d, m.cmu.retraverseOwed, (startGraded d m).rbs.active, m.scv.refs, startedMap d m⟩

/-- The state a traverse start leaves before the holds (R16). -/
def traverseBegun (d : Dir) (m : State) : State :=
  (traverseOpened d m).withMsm { (traverseOpened d m).msm with holeSeen := false }

theorem startMap_eq (d : Dir) (s : State) :
    startMap d s = (s.withEbm { s.ebm with watch := openWatch d, map := some (buildMap s.rbs.activeBank s.ebm.ef s.ebm.eb) }).setAlarm
      ptNarrowMap (!(buildMap s.rbs.activeBank s.ebm.ef s.ebm.eb).valid) := rfl

theorem startWindow_eq {d : Dir} {r : Bool} {s : State} {m : BinMap} (h : s.ebm.map = some m) : startWindow d r s =
    s.withPen { s.pen with window := some (freshWindow ⟨s.hbc.cycle, d, r, s.rbs.active, s.scv.refs, m⟩) } := by
  rw [startWindow, h]

/-- A point set by a condition follows it. -/
theorem setAlarm_follows (s : State) (i : PointNo) (on : Bool) :
    (on = true → alarmActive (s.setAlarm i on) i) ∧
    (on = false → ((s.setAlarm i on).alt.points[i]).state ∈ [PointState.normal, .returnUnack]) := by
  refine ⟨fun h => ?_, fun h => ?_⟩
  · rw [h]
    exact State.activate_active s i
  · rw [h]
    exact State.returnAlarm_over s i

/-- What a traverse start leaves in each block before the holds. -/
structure TraverseBegun (d : Dir) (m o : State) : Prop where
  cmu : o.cmu = { startCmu d m.cmu with state := .traverse }
  wanted : o.drive.wanted = dirSign d * m.scanSpeed
  rbs : o.rbs = (startGraded d m).rbs
  osq : o.osq = m.osq
  scv : o.scv = m.scv
  cta : o.cta = m.cta
  holeSeen : o.msm.holeSeen = false
  ebm : o.ebm = { m.ebm with watch := openWatch d, map := some (startedMap d m) }
  window : o.pen.window = some (freshWindow (startedCtx d m))
  counter : o.pen.counter = m.pen.counter
  slots : o.pen.slots = m.pen.slots
  narrow : (startedMap d m).valid = false → alarmActive o ptNarrowMap
  wide : (startedMap d m).valid = true → (o.alt.points[ptNarrowMap]).state ∈ [PointState.normal, .returnUnack]

theorem traverseBegun_begun (d : Dir) (m : State) : TraverseBegun d m (traverseBegun d m) := by
  obtain ⟨hcmu, hdrive, hosq, hebm, hcta, _⟩ := applyPendingGrade_keeps (traverseEntered d m)
  have ha := (motion_applyPendingGrade (traverseEntered d m)).toAside
  have hg : applyPendingGrade (traverseEntered d m) = startGraded d m := rfl
  rw [hg] at hcmu hdrive hosq hebm hcta ha
  obtain ⟨g, hgd⟩ : ∃ g, startGraded d m = g := ⟨_, rfl⟩
  have hmap : startedMap d m = buildMap g.rbs.activeBank g.ebm.ef g.ebm.eb := by
    rw [← hgd, hebm]
    rfl
  have hctx : startedCtx d m = ⟨g.hbc.cycle, d, m.cmu.retraverseOwed, g.rbs.active, g.scv.refs, startedMap d m⟩ := by
    rw [← hgd, ha.hbc, ha.scv]
    rfl
  rw [hgd] at hcmu hdrive hosq hebm hcta ha
  obtain ⟨q, hq⟩ : ∃ q, (g.withEbm { g.ebm with watch := openWatch d, map := some (startedMap d m) }).setAlarm ptNarrowMap
      (!(startedMap d m).valid) = q := ⟨_, rfl⟩
  have hfollows := setAlarm_follows (g.withEbm { g.ebm with watch := openWatch d, map := some (startedMap d m) }) ptNarrowMap
    (!(startedMap d m).valid)
  have hqeq := State.setAlarm_eq (g.withEbm { g.ebm with watch := openWatch d, map := some (startedMap d m) }) ptNarrowMap
    (!(startedMap d m).valid)
  rw [hq] at hfollows hqeq
  have hqmap : q.ebm.map = some (startedMap d m) := by rw [hqeq]; rfl
  have ho : traverseOpened d m = q.withPen { q.pen with
      window := some (freshWindow ⟨q.hbc.cycle, d, m.cmu.retraverseOwed, q.rbs.active, q.scv.refs, startedMap d m⟩) } := by
    unfold traverseOpened
    rw [hg, hgd, startMap_eq, ← hmap, hq, startWindow_eq hqmap]
  unfold traverseBegun
  rw [ho]
  have hqhbc : q.hbc = g.hbc := by rw [hqeq]; rfl
  have hqrbs : q.rbs = g.rbs := by rw [hqeq]; rfl
  have hqscv : q.scv = g.scv := by rw [hqeq]; rfl
  have hqcmu : q.cmu = g.cmu := by rw [hqeq]; rfl
  have hqosq : q.osq = g.osq := by rw [hqeq]; rfl
  have hqpen : q.pen = g.pen := by rw [hqeq]; rfl
  have hqcta : q.cta = g.cta := by rw [hqeq]; rfl
  have hqebm : q.ebm = { g.ebm with watch := openWatch d, map := some (startedMap d m) } := by rw [hqeq]; rfl
  have hqdrive : q.drive = g.drive := by rw [hqeq]; rfl
  refine ⟨hqcmu.trans hcmu, (congrArg Drive.wanted (hqdrive.trans hdrive)).trans rfl, hqrbs.trans (by rw [hgd]), hqosq.trans hosq,
    hqscv.trans ha.scv, hqcta.trans hcta, rfl, hqebm.trans (by rw [hebm]; rfl), ?_, (congrArg Pen.counter hqpen).trans ha.counter,
    (congrArg Pen.slots hqpen).trans ha.slots, fun h => hfollows.1 (by rw [h]; rfl), fun h => hfollows.2 (by rw [h]; rfl)⟩
  rw [hctx, ← hqhbc, ← hqrbs, ← hqscv]
  rfl

/-! ### The holds of a traverse start (R16, R18) -/

/-- The stop an owed hold is armed with. -/
def owedStop (h : Hold) (t : State) : Option HoldStop :=
  match h with
  | .owed .hold => holdStop t
  | .owed .step => stepStop t
  | _ => none

theorem holdStop_congr {s t : State} (hd : t.cmu.direction = s.cmu.direction) (hp : t.cmu.position = s.cmu.position)
    (hc : t.cmu.compareTarget = s.cmu.compareTarget) (hs : t.scanSpeed = s.scanSpeed) (hm : t.ebm.map = s.ebm.map) :
    holdStop t = holdStop s ∧ stepStop t = stepStop s := by
  have hb : ∀ b, beforeTarget t.cmu b = beforeTarget s.cmu b := fun b => by unfold beforeTarget; rw [hd, hc]
  have hstop : ∀ least, stopBoundary least t = stopBoundary least s := fun least => by
    unfold stopBoundary
    rw [hd, hp, hm]
    simp only [hb]
  rw [holdStop_eq, holdStop_eq, stepStop_eq, stepStop_eq, hstop, hstop, hs, hd, hp]
  exact ⟨rfl, rfl⟩

theorem armOwed_none {s : State} (h : s.cmu.hold = .none) : armOwed s = s := by
  rw [armOwed, h]

theorem armOwed_owed {s : State} {k : HoldKind} (h : s.cmu.hold = .owed k) :
    armOwed s = s.withCmu { s.cmu with hold := .armed (owedStop s.cmu.hold s) } := by
  unfold armOwed owedStop
  cases k <;> rw [h]

/-- R16: what the holds make of a traverse begun: nothing, an armed hold, or HELD at once (log entry 17). -/
theorem begun_holds {o : State} (hst : o.cmu.state = .traverse)
    (hh : o.cmu.hold = .none ∨ ((∃ k, o.cmu.hold = .owed k) ∧ nothingDue o)) :
    let t := checkCommandPoint (armOwed o)
    let stops := ∃ x, owedStop o.cmu.hold o = some x ∧ reached o.cmu.direction o.cmu.position x.command = true
    (¬stops → t = o.withCmu { o.cmu with hold := if o.cmu.hold = .none then .none else .armed (owedStop o.cmu.hold o) }) ∧
    (stops → t = want 0 (o.withCmu { o.cmu with state := .held, hold := .none, turnOwed := false })) := by
  intro t stops
  rcases hh with h | ⟨⟨k, h⟩, hstd⟩
  · have ht : t = o := by
      show checkCommandPoint (armOwed o) = o
      rw [armOwed_none h]
      exact checkCommandPoint_short fun x e => nomatch h.symm.trans e
    refine ⟨fun _ => ?_, fun ⟨x, hx, _⟩ => ?_⟩
    · rw [ht, if_pos h, ← h]
      rfl
    · rw [h] at hx
      cases hx
  · have ha := armOwed_owed h
    obtain ⟨a, hae⟩ : ∃ a, armOwed o = a := ⟨_, rfl⟩
    have ht : t = checkCommandPoint a := by rw [← hae]
    rw [hae] at ha
    have hne : o.cmu.hold ≠ .none := by rw [h]; exact nofun
    refine ⟨fun hn => ?_, fun ⟨x, hx, hr⟩ => ?_⟩
    · rw [if_neg hne, ← ha, ht]
      refine checkCommandPoint_short fun x e => ?_
      rw [ha] at e ⊢
      exact Bool.eq_false_iff.2 fun hr => hn ⟨x, Hold.armed.inj e, hr⟩
    · rw [ht, checkCommandPoint_reached (x := x) (by rw [ha, ← hx]; rfl) (by rw [ha]; exact hst) (by rw [ha]; exact hr)
        (by rw [ha]; exact hstd), heldMidTraverse_eq (by rw [ha]; exact hst), ha]
      rfl

/-! ### The map of a traverse (R100) -/

theorem buildMap_edgeUnset {b : GradeBank} {ef eb : Option Int} (h : ef = none ∨ eb = none) :
    buildMap (some b) ef eb = ⟨some b.n, some b.guard, ef, eb, none, none, none, false, .edgeUnset⟩ := by
  rcases h with rfl | rfl
  · rfl
  · cases ef <;> rfl

theorem buildMap_edges (b : GradeBank) (ef eb : Int) :
    let ok := 10 * (b.n : Int) ≤ (eb - b.guard) - (ef + b.guard)
    buildMap (some b) (some ef) (some eb) = ⟨some b.n, some b.guard, some ef, some eb, some (ef + b.guard), some (eb - b.guard),
      some ((eb - b.guard) - (ef + b.guard)), decide ok, if ok then .none else .narrow⟩ := by
  intro ok
  unfold buildMap
  dsimp only
  by_cases h : ok
  · have hn : ¬ (eb - b.guard) - (ef + b.guard) < 10 * (b.n : Int) := by simp only [ok] at h; omega
    rw [if_pos h, if_neg hn, decide_eq_true h, decide_eq_false hn, Bool.not_false]
  · have hn : (eb - b.guard) - (ef + b.guard) < 10 * (b.n : Int) := by simp only [ok] at h; omega
    rw [if_neg h, if_pos hn, decide_eq_false h, decide_eq_true hn, Bool.not_true]

end Sys2Proof.Machine
end

section
/-! PROOFS. The count that starts a traverse (R16). -/

namespace Sys2Proof.Machine

open Safety

theorem arrivals_outside {d : Dir} {s : State} (h : s.cmu.state = .toLimit) (ha : s.cmu.approach = .outside)
    (hr : reached s.cmu.travelDir s.cmu.position s.cmu.travelTarget = true) :
    arrivals d s = traverseStart s.cmu.travelDir s := by
  unfold arrivals
  simp only [h, hr, ha, if_true]

theorem arrivals_turned {s : State} (h : s.cmu.state = .turning) :
    arrivals s.cmu.travelDir s = traverseStart s.cmu.travelDir s := by
  unfold arrivals
  simp only [h, if_true]

/-- What the holds leave of a traverse begun, in TRAVERSE or HELD. -/
structure BegunKept (o r : State) : Prop where
  position : r.cmu.position = o.cmu.position
  direction : r.cmu.direction = o.cmu.direction
  skipCount : r.cmu.skipCount = o.cmu.skipCount
  target : r.cmu.compareTarget = o.cmu.compareTarget
  retraverse : r.cmu.retraverseOwed = o.cmu.retraverseOwed
  limits : r.cmu.limF = o.cmu.limF ∧ r.cmu.limB = o.cmu.limB
  plan : r.cmu.plan = o.cmu.plan
  wait : r.cmu.overrideWait = o.cmu.overrideWait
  rbs : r.rbs = o.rbs
  scv : r.scv = o.scv
  msm : r.msm = o.msm
  ebm : r.ebm = o.ebm
  pen : r.pen = o.pen
  alt : r.alt = o.alt

theorem begunKept_holds {o : State} (hst : o.cmu.state = .traverse)
    (hh : o.cmu.hold = .none ∨ ((∃ k, o.cmu.hold = .owed k) ∧ nothingDue o)) :
    BegunKept o (checkCommandPoint (armOwed o)) := by
  obtain ⟨hrun, hstop⟩ := begun_holds hst hh
  by_cases h : ∃ x, owedStop o.cmu.hold o = some x ∧ reached o.cmu.direction o.cmu.position x.command = true
  · rw [hstop h]
    exact ⟨rfl, rfl, rfl, rfl, rfl, ⟨rfl, rfl⟩, rfl, rfl, rfl, rfl, rfl, rfl, rfl, rfl⟩
  · rw [hrun h]
    exact ⟨rfl, rfl, rfl, rfl, rfl, ⟨rfl, rfl⟩, rfl, rfl, rfl, rfl, rfl, rfl, rfl, rfl⟩

/-- The stop an owed hold is armed with, read in the state that the start leaves. -/
theorem BegunKept.owedStop {o r : State} (h : BegunKept o r) (k : Hold) : Machine.owedStop k r = Machine.owedStop k o := by
  obtain ⟨h1, h2⟩ := holdStop_congr h.direction h.position h.target
    (show r.scanSpeed = o.scanSpeed by unfold State.scanSpeed; rw [h.plan, h.rbs]) (congrArg Ebm.map h.ebm)
  unfold Machine.owedStop
  rw [h1, h2]

/-- R86: the recipes after a grade applied at a traverse start. -/
theorem startGraded_rbs (d : Dir) (m : State) : (startGraded d m).rbs.pending = none ∧
    (m.rbs.pending = none → (startGraded d m).rbs = m.rbs) ∧
    (∀ k q b, m.rbs.pending = some (k, q) → m.rbs.banks[k] = some b →
      (startGraded d m).rbs = { m.rbs with pending := none, active := some k, settle := b.settle }) := by
  refine ⟨applyPendingGrade_none _, fun h => ?_, fun k q b h hb => ?_⟩
  · unfold startGraded applyPendingGrade
    rw [show (traverseEntered d m).rbs = m.rbs from rfl, h]
    rfl
  · have hk := (applyGrade_fields (k := k) (s := (traverseEntered d m).withRbs { m.rbs with pending := none }) hb).1
    unfold startGraded applyPendingGrade
    rw [show (traverseEntered d m).rbs = m.rbs from rfl, h]
    exact hk

/-- Settles O8: the count that starts a traverse, then what the start leaves in each block. -/
theorem traverseStartOpensTheTraverse : Obligations.TraverseStartOpensTheTraverse := by
  intro d s pos dir hheld hhomed h1 h2 hov hhold hcase
  obtain ⟨m, hm⟩ : ∃ m, countPosition d s = m := ⟨_, rfl⟩
  have hcmu : m.cmu = { s.cmu with phase := stepPhase d s.cmu.phase, position := pos } := by rw [← hm]; rfl
  have hwait : m.cmu.overrideWait = 0 := by rw [hcmu]; exact (overrideUntaken_eq_false _).1 hov
  have hosq : m.osq = s.osq := by rw [← hm]; rfl
  have hrbs : m.rbs = s.rbs := by rw [← hm]; rfl
  have hebm : m.ebm = s.ebm := by rw [← hm]; rfl
  have hscv : m.scv = s.scv := by rw [← hm]; rfl
  have hhbc : m.hbc = s.hbc := by rw [← hm]; rfl
  have hpen : m.pen = s.pen := by rw [← hm]; rfl
  have hspeed : m.scanSpeed = min s.cmu.plan.speed s.rbs.common.maxSpeed := by rw [← hm]; rfl
  have hdir : m.cmu.travelDir = dir := by rw [hcmu]
  have hstart : countCompares d m = traverseStart dir m := by
    rw [← hm, countCompares_inside hhomed h1 h2, hm, ← hdir]
    rcases hcase with ⟨hs, ha, hr⟩ | ⟨hs, hd⟩
    · exact arrivals_outside (by rw [hcmu]; exact hs) (by rw [hcmu]; exact ha) (by rw [hcmu]; exact hr)
    · rw [hd, ← hdir]
      exact arrivals_turned (by rw [hcmu]; exact hs)
  obtain ⟨o, ho⟩ : ∃ o, traverseBegun dir m = o := ⟨_, rfl⟩
  have hb := traverseBegun_begun dir m
  rw [ho] at hb
  have hohold : o.cmu.hold = s.cmu.hold := by rw [hb.cmu, hcmu]; rfl
  have host : o.cmu.state = .traverse := by rw [hb.cmu]
  have hh : o.cmu.hold = .none ∨ ((∃ k, o.cmu.hold = .owed k) ∧ nothingDue o) := by
    rw [hohold]
    refine hhold.imp id fun ⟨hk, hstd⟩ => ⟨hk, ?_⟩
    unfold nothingDue
    rw [hb.osq, hosq]
    rintro ⟨k1, k2⟩
    rcases hstd with e | e
    · exact Bool.false_ne_true (e.symm.trans k1)
    · exact e k2
  obtain ⟨r, hr⟩ : ∃ r, checkCommandPoint (armOwed o) = r := ⟨_, rfl⟩
  have hholds := begun_holds host hh
  have hkept := begunKept_holds host hh
  rw [hr] at hholds hkept
  have hpos : o.cmu.position = pos := by rw [hb.cmu, hcmu]; rfl
  have hodir : o.cmu.direction = dir := by rw [hb.cmu]; rfl
  have hexec : exec (.encoderCount d) s = .next r.settleDrive := by
    rw [exec_encoderCount hheld, encoderCount_taken (t := r) ?_ ?_]
    · rw [hm, hstart, traverseStart_eq, ← hr, ← ho]
      rfl
    · rw [hkept.wait, hb.cmu]; exact hwait
  have hmap : r.ebm.map = some (startedMap dir m) := by rw [hkept.ebm, hb.ebm]
  have hbuilt : startedMap dir m = buildMap r.rbs.activeBank s.ebm.ef s.ebm.eb := by
    rw [hkept.rbs, hb.rbs, ← hebm]
    rfl
  obtain ⟨g1, g2, g3⟩ := startGraded_rbs dir m
  rw [← hb.rbs, ← hkept.rbs] at g1 g2 g3
  rw [hrbs] at g2 g3
  have hrun := hholds.1
  have hstop := hholds.2
  rw [hohold, hpos, hodir, ← hkept.owedStop] at hrun hstop
  refine ⟨r.settleDrive, freshWindow (startedCtx dir m), hexec, hkept.position.trans hpos, hkept.direction.trans hodir,
    ⟨fun hn => ?_, fun hs => ?_⟩, ?_, ?_, ?_, ?_, ?_, g1, ?_, ?_, hmap.trans (congrArg some hbuilt), ?_, ?_, rfl, ?_, ?_, ?_,
    hmap, rfl, fun q => ?_, ?_, ?_, ?_, g2, fun k q b hk hbk => g3 k q b hk hbk, fun hnb => ?_, fun b hbk he => ?_,
    fun b ef eb hbk hf hbe => ?_, fun hv => ?_, fun hv => ?_⟩
  · have e := hrun hn
    rw [State.settleDrive_cmu, State.settleDrive_wanted]
    refine ⟨by rw [e]; exact host, by rw [e]; exact hb.wanted.trans (by rw [hspeed]), ?_⟩
    exact (congrArg (fun t : State => t.cmu.hold) e).trans rfl
  · rw [State.settleDrive_cmu, State.settleDrive_wanted, hstop hs]
    exact ⟨rfl, rfl, rfl, rfl⟩
  · exact hkept.skipCount.trans (by rw [hb.cmu]; rfl)
  · exact hkept.target.trans (by rw [hb.cmu, hcmu]; rfl)
  · exact hkept.retraverse.trans (by rw [hb.cmu]; rfl)
  · exact hkept.limits.1.trans (by rw [hb.cmu, hcmu]; rfl)
  · exact hkept.limits.2.trans (by rw [hb.cmu, hcmu]; rfl)
  · exact (congrArg Msm.holeSeen hkept.msm).trans hb.holeSeen
  · exact (congrArg Ebm.watch hkept.ebm).trans (by rw [hb.ebm]; rfl)
  · exact (congrArg Pen.window hkept.pen).trans hb.window
  · exact congrArg Hbc.cycle hhbc
  · exact (congrArg Cmu.retraverseOwed hcmu :)
  · exact congrArg Rbs.active (hkept.rbs.trans hb.rbs).symm
  · exact congrArg Scv.refs hscv
  · cases q <;> rfl
  · exact (congrArg Pen.counter hkept.pen).trans (hb.counter.trans (by rw [hpen]))
  · exact (congrArg Pen.slots hkept.pen).trans (hb.slots.trans (by rw [hpen]))
  · exact hkept.scv.trans (hb.scv.trans hscv)
  · rw [State.settleDrive_ebm, hmap, hbuilt, show r.rbs.activeBank = none from hnb]
    rfl
  · rw [State.settleDrive_ebm, hmap, hbuilt, show r.rbs.activeBank = some b from hbk, buildMap_edgeUnset he]
  · rw [State.settleDrive_ebm, hmap, hbuilt, show r.rbs.activeBank = some b from hbk, hf, hbe, buildMap_edges]
  · have h := hb.narrow hv
    simp only [alarmActive, State.settleDrive_alt, hkept.alt] at h ⊢
    exact h
  · have h := hb.wide hv
    rw [State.settleDrive_alt, hkept.alt]
    exact h

end Sys2Proof.Machine
end

section
/-! PROOFS. The restarts (R24, R41, R207): what an activation tells the ports, the blocks of a restarted part, and the carriage
sent off the sheet. -/

namespace Sys2Proof.Machine

open Safety

/-! ### What an activation tells the ports (R162, R169) -/

/-- The second port record is the first with ALARM messages queued behind its own. -/
def Alarmed (x y : PortState) : Prop :=
  (∃ l : List OutMsg, y.outbound = x.outbound ++ l ∧ ∀ o ∈ l, o.cls = .notice ∧ o.kind = kAlarm) ∧ y.bad = x.bad

theorem Alarmed.refl (x : PortState) : Alarmed x x := ⟨⟨[], (List.append_nil _).symm, nofun⟩, rfl⟩

theorem Alarmed.trans {x y z : PortState} (h : Alarmed x y) (k : Alarmed y z) : Alarmed x z := by
  obtain ⟨⟨l, el, hl⟩, hb⟩ := h
  obtain ⟨⟨r, er, hr⟩, kb⟩ := k
  refine ⟨⟨l ++ r, by rw [er, el, List.append_assoc], fun o ho => ?_⟩, kb.trans hb⟩
  exact (List.mem_append.mp ho).elim (hl o) (hr o)

theorem Alarmed.notice (payload : List Byte) (x : PortState) : Alarmed x (x.notice kAlarm payload) := by
  unfold PortState.notice
  split
  · exact .refl x
  split
  · exact ⟨⟨_, rfl, fun o ho => by rw [List.mem_singleton.mp ho]; exact ⟨rfl, rfl⟩⟩, rfl⟩
  · exact ⟨⟨[], (List.append_nil _).symm, nofun⟩, rfl⟩

theorem annPass_alarmed (x : AlarmCtx) (n : Nat) (ap : AltPorts) (q : Port) :
    Alarmed (ap.2.get q) ((annPass x n ap).2.get q) := by
  induction n generalizing ap with
  | zero => exact .refl _
  | succ n ih =>
    simp only [annPass]
    cases pickPoint x ap.1 with
    | none => exact .refl _
    | some i =>
      refine Alarmed.trans ?_ (ih _)
      simp only [annunciate, sendAlarm, PerPort.get_map]
      exact .notice _ _

theorem settleAlarms_alarmed (x : AlarmCtx) (ap : AltPorts) (q : Port) :
    Alarmed (ap.2.get q) ((settleAlarms x ap).2.get q) := annPass_alarmed x 30 _ q

theorem activate_other {s : State} {i : PointNo} (hi : i ≠ ptBreak) : s.activate i =
    s.withAlarms (activatePoint s.alarmCtx i s.alarms) := by
  rw [State.activate, if_neg hi]

theorem activate_alarmed (s : State) {i : PointNo} (hi : i ≠ ptBreak) (q : Port) :
    Alarmed (s.ports.get q) ((s.activate i).ports.get q) := by
  rw [activate_other hi]
  show Alarmed _ ((activatePoint s.alarmCtx i s.alarms).2.get q)
  obtain ⟨_, e⟩ | ⟨_, e⟩ | ⟨_, e⟩ := activatePoint_cases s.alarmCtx i s.alarms
  · rw [e]; exact settleAlarms_alarmed _ (_, s.ports) q
  · rw [e]; exact settleAlarms_alarmed _ (_, s.ports) q
  · rw [e]; exact settleAlarms_alarmed _ (_, s.ports) q

/-- An activation leaves the other points' states and counts. -/
theorem activate_others (s : State) {i j : PointNo} (hi : i ≠ ptBreak) (hj : j ≠ i) :
    ((s.activate i).alt.points[j]).state = (s.alt.points[j]).state ∧
    ((s.activate i).alt.points[j]).count = (s.alt.points[j]).count := by
  refine ⟨State.activate_other s hj, ?_⟩
  rw [activate_other hi]
  show ((activatePoint s.alarmCtx i s.alarms).1.points[j]).count = _
  have hset : ∀ p : AlarmPoint, ((s.alt.setPoint i p).points[j]).count = (s.alt.points[j]).count := fun p => by
    rw [Alt.setPoint_get, if_neg hj]
  obtain ⟨_, e⟩ | ⟨_, e⟩ | ⟨_, e⟩ := activatePoint_cases s.alarmCtx i s.alarms
  · rw [e]; exact ((settleAlarms_passed _ _).count j).trans (hset _)
  · rw [e]; exact ((settleAlarms_passed _ _).count j).trans (hset _)
  · rw [e]; exact ((settleAlarms_passed _ _).count j).trans (hset _)

/-! ### The blocks of a restart (R207) -/

theorem abortStdWith_due {told : Hbc → Hbc} {s : State} (h : s.osq.due = true) : (abortStdWith told s).osq.due = true := by
  unfold abortStdWith
  split
  · exact h
  · unfold resetOsqStep mergeRenewal setDue
    split
    · exact h
    · dsimp only
      split
      · assumption
      · rfl

/-- The part once its blocks are restarted, before the carriage moves. -/
theorem restartBlocks_after (s : State) : ∃ o : Osq,
    restartBlocks s = { s with
      cmu := { restartCmu s.cmu with retraverseOwed := s.cmu.retraverseOwed || s.cmu.inTraverse }
      hbc := restartHbc (if s.osq.step = .idle then s.hbc else abandonUntilReset s.hbc)
      osq := o, rbs := restartRbs s.rbs, ebm := ebmPowerOn, pen := restartPen s.pen, azm := restartAzm s.azm
      msm := restartMsm s.msm, alt := restartAlt s.rbs.common.ceiling s.alt, cta := ctaPowerOn
      ports := s.ports.map restartPort } ∧
    (s.osq.due = true → o.due = true) ∧ o.scanCount = s.osq.scanCount := by
  obtain ⟨u, hu⟩ : ∃ u, abortTraverse s = u := ⟨_, rfl⟩
  have hosq : u.osq = s.osq := by rw [← hu]; exact abortTraverse_osq s
  refine ⟨(abortStdWith abandonUntilReset u).osq, ?_, fun h => abortStdWith_due (hosq ▸ h),
    (abortStdWith_keeps _ u).1.trans (congrArg Osq.scanCount hosq)⟩
  rw [restartBlocks_eq, hu, (abortStdWith_eq abandonUntilReset u).1, hosq, ← hu]
  unfold abortTraverse
  by_cases h : s.cmu.inTraverse = true
  · rw [if_pos h, h, Bool.or_true] <;> rfl
  · rw [if_neg h, Bool.eq_false_iff.2 h, Bool.or_false] <;> rfl

/-- What the reactivation of the restarted part's alarms leaves: the alarm table and the ports, and the overdue flag. -/
theorem reactivate_after (s : State) : ∃ ap : AltPorts,
    reactivate s = (s.withOsq { s.osq with overdue := isOverdue s }).withAlarms ap ∧
    (∀ i : PointNo, i ≠ ptMotionFault → i ≠ ptOverdue →
      (ap.1.points[i]).state = (s.alt.points[i]).state ∧ (ap.1.points[i]).count = (s.alt.points[i]).count) ∧
    (s.cmu.state = .fault → (ap.1.points[ptMotionFault]).state = .activeUnack ∨
      (ap.1.points[ptMotionFault]).state = .activeAck) ∧
    (∀ q, Alarmed (s.ports.get q) (ap.2.get q) ∧ Noticed (s.ports.get q) (ap.2.get q)) ∧
    (s.cmu.state ≠ .fault → isOverdue s = false → ap.2 = s.ports) := by
  obtain ⟨u, hu⟩ : ∃ u, (if s.cmu.state = .fault then s.activate ptMotionFault else s) = u := ⟨_, rfl⟩
  obtain ⟨w, hw⟩ : ∃ w, u.withOsq { u.osq with overdue := isOverdue s } = w := ⟨_, rfl⟩
  have eu : u = s.withAlarms u.alarms := by rw [← hu]; split <;> rfl
  have hlate : isOverdue u = isOverdue s := by rw [eu] <;> rfl
  have ew : w = (s.withOsq { s.osq with overdue := isOverdue s }).withAlarms w.alarms := by
    rw [← hw, eu] <;> rfl
  have hwa : w.alt = u.alt ∧ w.ports = u.ports := by rw [← hw]; exact ⟨rfl, rfl⟩
  have e : reactivate s = if isOverdue s then w.activate ptOverdue else w := by
    unfold reactivate
    rw [hu]
    dsimp only
    rw [hlate, hw] <;> rfl
  refine ⟨(reactivate s).alarms, ?_, fun i h1 h2 => ?_, fun hf => ?_, fun q => ?_, fun hf ho => ?_⟩
  · rw [e]
    split
    · exact (show w.activate ptOverdue = w.withAlarms (w.activate ptOverdue).alarms from rfl).trans
        ((congrArg (fun x : State => x.withAlarms (w.activate ptOverdue).alarms) ew).trans rfl)
    · exact ew
  · have k1 : (u.alt.points[i]).state = (s.alt.points[i]).state ∧ (u.alt.points[i]).count = (s.alt.points[i]).count := by
      rw [← hu]
      split
      · exact activate_others s (by decide) h1
      · exact ⟨rfl, rfl⟩
    rw [← hwa.1] at k1
    show ((reactivate s).alt.points[i]).state = _ ∧ ((reactivate s).alt.points[i]).count = _
    rw [e]
    split
    · obtain ⟨a, b⟩ := activate_others w (i := ptOverdue) (by decide) h2
      exact ⟨a.trans k1.1, b.trans k1.2⟩
    · exact k1
  · have k1 : alarmActive u ptMotionFault := by
      rw [← hu, if_pos hf]
      exact State.activate_active s _
    unfold alarmActive at k1
    rw [← hwa.1] at k1
    show ((reactivate s).alt.points[ptMotionFault]).state = _ ∨ ((reactivate s).alt.points[ptMotionFault]).state = _
    rw [e]
    split
    · rw [(activate_others w (i := ptOverdue) (j := ptMotionFault) (by decide) (by decide)).1]
      exact k1
    · exact k1
  · have k1 : Alarmed (s.ports.get q) (u.ports.get q) ∧ Noticed (s.ports.get q) (u.ports.get q) := by
      rw [← hu]
      split
      · exact ⟨activate_alarmed s (by decide) q, activate_ports s _ q⟩
      · exact ⟨.refl _, .refl _⟩
    rw [← hwa.2] at k1
    show Alarmed _ ((reactivate s).ports.get q) ∧ Noticed _ ((reactivate s).ports.get q)
    rw [e]
    split
    · exact ⟨k1.1.trans (activate_alarmed w (by decide) q), k1.2.trans (activate_ports w _ q)⟩
    · exact k1
  · show (reactivate s).ports = _
    rw [e, if_neg (by rw [ho]; decide), hwa.2, ← hu, if_neg hf]

/-! ### The restarted carriage (R24) -/

/-- The second state differs from the first in the carriage, its drive and the sequencer only. -/
def CarriageOnly (s t : State) : Prop := t = { s with cmu := t.cmu, drive := t.drive, osq := t.osq }

theorem CarriageOnly.refl (s : State) : CarriageOnly s s := rfl

theorem CarriageOnly.trans {s t u : State} (h : CarriageOnly s t) (k : CarriageOnly t u) : CarriageOnly s u := by
  unfold CarriageOnly at *
  rw [k, h]

/-- With no fixed-point record being formed a change of the carriage state leaves the profile. -/
theorem setCarriage_unrecorded {s : State} {st : CarriageState} (hp : s.pen.period = none) (hst : st ≠ .fixed) :
    setCarriage st s = s.withCmu { s.cmu with state := st } := by
  have e : periodAfter s.cmu.state st s.pen.period = s.pen.period := by
    rw [periodAfter, if_neg hst, hp, ite_self]
  unfold setCarriage
  rw [e] <;> rfl

theorem carriageOnly_travel {s : State} {st : CarriageState} (hp : s.pen.period = none) (hst : st ≠ .fixed) (x : Int) (d : Dir)
    (a : Approach) (v : Nat) : CarriageOnly s (travel st x d a v s) := by
  unfold travel
  rw [setCarriage_unrecorded hp hst] <;> rfl

theorem carriageOnly_comeToRest {s : State} {st : CarriageState} (hp : s.pen.period = none) (hst : st ≠ .fixed) :
    CarriageOnly s (comeToRest st s) := by
  unfold comeToRest
  rw [setCarriage_unrecorded hp hst] <;> rfl

theorem CarriageOnly.period {s t : State} (h : CarriageOnly s t) (hp : s.pen.period = none) : t.pen.period = none := by
  rw [h]; exact hp

theorem carriageOnly_goStd {s : State} (hp : s.pen.period = none) : CarriageOnly s (goStd s) := by
  unfold goStd
  dsimp only
  have h1 := carriageOnly_travel (st := .toStd) hp (by decide) s.rbs.common.stdPos
    (toward s.cmu.position s.rbs.common.stdPos) .outside s.rbs.common.maxSpeed
  split
  · exact h1.trans ((carriageOnly_comeToRest (st := .atStd) (h1.period hp) (by decide)).trans rfl)
  · exact h1

/-- A carriage sent off the sheet with nothing pending and no record being formed: the carriage, its drive and the sequencer
move alone. -/
theorem carriageOnly_goPark {s : State} (hp : s.pen.period = none) (hplan : s.cta.pending = none)
    (hgrade : s.rbs.pending = none) (ho : s.override = true) (hw : s.cmu.overrideWait = 0) :
    CarriageOnly s (goPark nextMove s) := by
  unfold goPark
  split
  · exact .refl s
  dsimp only
  obtain ⟨u, hu⟩ : ∃ u, travel .toPark s.rbs.common.parkPos (toward s.cmu.position s.rbs.common.parkPos) .outside
    s.rbs.common.maxSpeed s = u := ⟨_, rfl⟩
  have h1 : CarriageOnly s u := hu ▸ carriageOnly_travel hp (by decide) _ _ _ _
  have m1 : Motion s u := hu ▸ motion_travel ..
  rw [hu]
  split
  · obtain ⟨w, hww⟩ : ∃ w, comeToRest .parked u = w := ⟨_, rfl⟩
    have h2 : CarriageOnly s w := h1.trans (hww ▸ carriageOnly_comeToRest (h1.period hp) (by decide))
    have m2 : Motion s w := m1.trans (hww ▸ motion_comeToRest ..)
    have hst : w.cmu.state = .parked := by rw [← hww]; rfl
    have hg : w.rbs.pending = none := by rw [h2]; exact hgrade
    have hc : w.cta.pending = none := by rw [h2]; exact hplan
    have e : arriveParked nextMove u = nextMove w := by
      rw [arriveParked, hww]
      simp only [applyPendingGrade, hg, applyPendingPlan, hc]
    have htaken : w.overrideTaken = true := by
      simp [State.overrideTaken, m2.override.trans ho, Cmu.overrideUntaken, Nat.eq_zero_of_le_zero (hw ▸ m2.wait)]
    have htr : abortTraverse w = w := if_neg (by simp [Cmu.inTraverse, hst])
    rw [e]
    refine h2.trans ?_
    show CarriageOnly w (nextMotion (5 + 1) w)
    by_cases hos : osqTakes w = true
    · rw [nextMotion, if_pos hos, takeStd, htr]
      exact CarriageOnly.trans (t := openStd w) rfl (carriageOnly_goStd (s := openStd w) (h2.period hp))
    · rw [nextMotion, if_neg hos, if_pos htaken, goPark, if_pos hst]
      exact .refl w
  · exact h1

end Sys2Proof.Machine
end

section
/-! PROOFS. The controller restart and the head-bus restart (R41, R207). -/

namespace Sys2Proof.Machine

open Safety

theorem restartMoves_iff (st : CarriageState) : restartMoves st = true ↔
    st ∈ [CarriageState.traverse, .turning, .toLimit, .toFixed, .fixed, .held, .toStd, .atStd] := by
  cases st <;> simp [restartMoves]

theorem CarriageOnly.blocks {s t : State} (h : CarriageOnly s t) : t.hbc = s.hbc ∧ t.scv = s.scv ∧ t.rbs = s.rbs ∧
    t.ebm = s.ebm ∧ t.pen = s.pen ∧ t.azm = s.azm ∧ t.msm = s.msm ∧ t.alt = s.alt ∧ t.cta = s.cta ∧ t.ports = s.ports :=
  ⟨(congrArg State.hbc h :), (congrArg State.scv h :), (congrArg State.rbs h :), (congrArg State.ebm h :),
    (congrArg State.pen h :), (congrArg State.azm h :), (congrArg State.msm h :), (congrArg State.alt h :),
    (congrArg State.cta h :), (congrArg State.ports h :)⟩

/-- The carriage part of a restart: where the carriage goes from the restarted blocks, and what it keeps (R24). -/
theorem carriageRestart_keeps {u : State} (hp : u.pen.period = none) (hplan : u.cta.pending = none) (hgrade : u.rbs.pending = none)
    (ho : u.override = true) (hw : u.cmu.overrideWait = 0) (hskip : u.cmu.skipCount = 0) (hhold : u.cmu.hold = .none)
    (hturn : u.cmu.turnOwed = false) :
    let t := (if restartMoves u.cmu.state then goPark nextMove u else u).settleDrive
    CarriageOnly u t ∧ Motion u (if restartMoves u.cmu.state then goPark nextMove u else u) ∧ t.cmu.skipCount = 0 ∧
    t.cmu.hold = .none ∧ t.cmu.turnOwed = false ∧
    (u.cmu.retraverseOwed = true → t.cmu.retraverseOwed = true) ∧
    (restartMoves u.cmu.state = false → t.cmu.state = u.cmu.state) ∧
    (restartMoves u.cmu.state = true → t.cmu.state ∈ offSheetStates) := by
  intro t
  by_cases hm : restartMoves u.cmu.state = true
  · have e : t = (goPark nextMove u).settleDrive := by
      show (if restartMoves u.cmu.state then goPark nextMove u else u).settleDrive = _
      rw [if_pos hm]
    rw [if_pos hm, e]
    exact ⟨(carriageOnly_goPark hp hplan hgrade ho hw).trans rfl, motion_goPark motion_nextMove u,
      goPark_skipCount (fun _ => nextMotion_skipCount motionBound) hskip,
      keptByMoves_noHold.goPark keptByMoves_noHold.nextMove hhold, keptByMoves_turnOwed.goPark keptByMoves_turnOwed.nextMove hturn,
      keptByMoves_retraverse.goPark keptByMoves_retraverse.nextMove, fun h => absurd (hm.symm.trans h) (by decide),
      fun _ => goPark_overridden ho hw⟩
  · have e : t = u.settleDrive := by
      show (if restartMoves u.cmu.state then goPark nextMove u else u).settleDrive = _
      rw [if_neg hm]
    rw [if_neg hm, e]
    exact ⟨rfl, .refl u, hskip, hhold, hturn, id, fun _ => rfl, fun h => absurd h hm⟩

/-- R117, R130: the filter keeps its bin count, and its bins are emptied. -/
theorem restartPen_filter (x : Pen) (q : Prop4) :
    (restartPen x).filter.bins.get q = List.replicate (x.filter.bins.get q).length none := by
  cases q <;> exact List.map_const' ..

theorem restartPen_slots (x : Pen) (i : Fin 3) : (restartPen x).slots[i] = none := by
  revert i
  show ∀ i : Fin 3, penPowerOn.slots[i] = none
  decide

theorem restartZone_outs (z : ZoneSide) : (restartZone z).outs = List.replicate z.outs.length .none := List.map_const' ..

theorem restartAlt_point (ceiling : Nat) (a : Alt) (i : PointNo) : ((restartAlt ceiling a).points[i]).state = .normal ∧
    ((restartAlt ceiling a).points[i]).count = (a.points[i]).count := by
  simp [restartAlt]

theorem restartHbc_eq (s : State) : restartHbc (if s.osq.step = .idle then s.hbc else abandonUntilReset s.hbc) =
    { s.hbc with
      resetPending := true
      seq := if s.osq.step = .idle then s.hbc.seq else s.hbc.seq.map (fun q => { q with abandoned := true }) } := by
  split <;> rfl

/-- What the restart makes of one port, before its reply. -/
theorem restartPort_alarmed {x y : PortState} (ha : Alarmed (restartPort x) y) (hn : Noticed (restartPort x) y) :
    (∀ o ∈ y.outbound, o.cls = .notice ∧ o.kind = kAlarm) ∧ y.stream = .idle ∧ y.descriptors = x.descriptors ∧
    y.silent = x.silent ∧ y.inbound = x.inbound ∧ y.bad = x.bad := by
  obtain ⟨⟨l, el, hl⟩, hb⟩ := ha
  refine ⟨fun o ho => hl o ?_, hn.stream, hn.descriptors, hn.silent, hn.inbound, hb⟩
  rwa [el] at ho

/-- The whole of a controller restart (R207). -/
structure Restarted (s t : State) : Prop where
  cmu : t.cmu.position = s.cmu.position ∧ t.cmu.homed = s.cmu.homed ∧ t.cmu.plan = s.cmu.plan ∧
    t.cmu.faultCause = s.cmu.faultCause ∧ t.cmu.parkSource = s.cmu.parkSource ∧ t.cmu.skipCount = 0 ∧
    t.cmu.hold = .none ∧ t.cmu.turnOwed = false
  stays : restartMoves s.cmu.state = false → t.cmu.state = s.cmu.state
  goes : restartMoves s.cmu.state = true → t.cmu.state ∈ offSheetStates
  retraverse : s.cmu.inTraverse = true → t.cmu.retraverseOwed = true
  hbc : t.hbc = restartHbc (if s.osq.step = .idle then s.hbc else abandonUntilReset s.hbc)
  scv : t.scv = s.scv
  due : s.osq.due = true → t.osq.due = true
  scanCount : t.osq.scanCount = s.osq.scanCount
  rbs : t.rbs = restartRbs s.rbs
  ebm : t.ebm = ebmPowerOn
  pen : t.pen = restartPen s.pen
  azm : t.azm = restartAzm s.azm
  msm : t.msm = restartMsm s.msm
  cta : t.cta = ctaPowerOn
  points : ∀ i : PointNo, i ≠ ptMotionFault → i ≠ ptOverdue →
    (t.alt.points[i]).state = .normal ∧ (t.alt.points[i]).count = (s.alt.points[i]).count
  fault : s.cmu.state = .fault → alarmActive t ptMotionFault
  ports : ∀ q, Alarmed (restartPort (s.ports.get q)) (t.ports.get q) ∧ Noticed (restartPort (s.ports.get q)) (t.ports.get q)
  unalarmed : s.cmu.state ≠ .fault → t.osq.overdue = false → ∀ q, t.ports.get q = restartPort (s.ports.get q)

theorem controllerRestart_restarted (s : State) : Restarted s (controllerRestart s) := by
  obtain ⟨b, hb⟩ : ∃ b, restartBlocks s = b := ⟨_, rfl⟩
  obtain ⟨o, hblocks, hdue, hcount⟩ := restartBlocks_after s
  rw [hb] at hblocks
  obtain ⟨ap, hreact, hpoints, hfault, hports, hquiet⟩ := reactivate_after b
  obtain ⟨u, hu⟩ : ∃ u, reactivate b = u := ⟨_, rfl⟩
  have hc : u.cmu = { restartCmu s.cmu with retraverseOwed := s.cmu.retraverseOwed || s.cmu.inTraverse } := by
    rw [← hu, hreact, hblocks] <;> rfl
  have hpen : u.pen = restartPen s.pen := by rw [← hu, hreact, hblocks] <;> rfl
  have hcta : u.cta = ctaPowerOn := by rw [← hu, hreact, hblocks] <;> rfl
  have hrbs : u.rbs = restartRbs s.rbs := by rw [← hu, hreact, hblocks] <;> rfl
  have hmsm : u.msm = restartMsm s.msm := by rw [← hu, hreact, hblocks] <;> rfl
  have hosq : u.osq = { o with overdue := isOverdue b } := by rw [← hu, hreact, hblocks] <;> rfl
  have halt : u.alt = ap.1 ∧ u.ports = ap.2 := by rw [← hu, hreact]; exact ⟨rfl, rfl⟩
  have hbalt : b.alt = restartAlt s.rbs.common.ceiling s.alt := congrArg State.alt hblocks
  have hbports : ∀ q, b.ports.get q = restartPort (s.ports.get q) := fun q => by
    rw [hblocks]; exact PerPort.get_map ..
  have hbstate : b.cmu.state = s.cmu.state := by rw [hblocks] <;> rfl
  have hover : u.override = true := by simp [State.override, hmsm, restartMsm]
  have hstate : u.cmu.state = s.cmu.state := by rw [hc] <;> rfl
  obtain ⟨hall, hm, hskip, hhold, hturn, hretr, hstays, hgoes⟩ := carriageRestart_keeps (u := u) (by rw [hpen] <;> rfl)
    (by rw [hcta] <;> rfl) (by rw [hrbs] <;> rfl) hover (by rw [hc] <;> rfl) (by rw [hc] <;> rfl) (by rw [hc] <;> rfl)
    (by rw [hc] <;> rfl)
  obtain ⟨w, hw⟩ : ∃ w, (if restartMoves u.cmu.state then goPark nextMove u else u) = w := ⟨_, rfl⟩
  have e : controllerRestart s = w.settleDrive := by
    rw [← hw, ← hu, ← hb] <;> rfl
  rw [hw] at hall hm hskip hhold hturn hretr hstays hgoes
  rw [hstate] at hstays hgoes
  have hplan := (hm.plan (by rw [hcta] <;> rfl)).2
  rw [e]
  have hk : w.hbc = u.hbc ∧ w.scv = u.scv ∧ w.rbs = u.rbs ∧ w.ebm = u.ebm ∧ w.pen = u.pen ∧ w.azm = u.azm ∧ w.msm = u.msm ∧
      w.alt = u.alt ∧ w.cta = u.cta ∧ w.ports = u.ports :=
    CarriageOnly.blocks (t := w.settleDrive) hall
  obtain ⟨k1, k2, k3, k4, k5, k6, k7, k8, k9, k10⟩ := hk
  constructor
  case cmu =>
    exact ⟨hm.position.trans (by rw [hc] <;> rfl), hm.homed.trans (by rw [hc] <;> rfl), hplan.trans (by rw [hc] <;> rfl),
      hm.faultCause.trans (by rw [hc] <;> rfl), hm.parkSource.trans (by rw [hc] <;> rfl), hskip, hhold, hturn⟩
  case stays => exact hstays
  case goes => exact hgoes
  case retraverse =>
    intro h
    exact hretr (by rw [hc]; show (_ || s.cmu.inTraverse) = true; rw [h, Bool.or_true])
  case hbc => exact k1.trans (by rw [← hu, hreact, hblocks] <;> rfl)
  case scv => exact k2.trans (by rw [← hu, hreact, hblocks] <;> rfl)
  case due => exact fun h => hm.due (by rw [hosq]; exact hdue h)
  case scanCount => exact hm.scanCount.trans (by rw [hosq]; exact hcount)
  case rbs => exact k3.trans hrbs
  case ebm => exact k4.trans (by rw [← hu, hreact, hblocks] <;> rfl)
  case pen => exact k5.trans hpen
  case azm => exact k6.trans (by rw [← hu, hreact, hblocks] <;> rfl)
  case msm => exact k7.trans hmsm
  case cta => exact k9.trans hcta
  case points =>
    intro i h1 h2
    obtain ⟨a1, a2⟩ := hpoints i h1 h2
    obtain ⟨c1, c2⟩ := restartAlt_point s.rbs.common.ceiling s.alt i
    show (w.alt.points[i]).state = _ ∧ (w.alt.points[i]).count = _
    rw [k8, halt.1, a1, a2, hbalt]
    exact ⟨c1, c2⟩
  case fault =>
    intro h
    show (w.alt.points[ptMotionFault]).state = _ ∨ (w.alt.points[ptMotionFault]).state = _
    rw [k8, halt.1]
    exact hfault (hbstate.trans h)
  case ports =>
    intro q
    show Alarmed _ (w.ports.get q) ∧ Noticed _ (w.ports.get q)
    rw [k10, halt.2, ← hbports]
    exact hports q
  case unalarmed =>
    intro h1 h2 q
    have h2' : w.osq.overdue = false := h2
    rw [hm.overdue, hosq] at h2'
    show w.ports.get q = _
    rw [k10, halt.2, hquiet (by rw [hbstate]; exact h1) h2']
    exact hbports q

/-- Settles O53: HEAD RESTART leaves a RESET pending and nothing else; RESTART leaves each block as its table gives it, and the
carriage, its drive and the sequencer are all that the way off the sheet changes then. -/
theorem restartsKeepWhatTheTablesKeep : Obligations.RestartsKeepWhatTheTablesKeep := by
  unfold Obligations.RestartsKeepWhatTheTablesKeep
  intro s p m hwaits hpay moves
  refine ⟨fun hk hp => ?_, fun hk hp => ?_⟩
  · subst hp
    have row := Row.of_kind (k := 27) hwaits hk (by rw [hpay] <;> rfl)
    exact row.exec_changed (c := .headRestart .quality .whole) (owner := ownHeadRestart) rfl
      (t := s.withHbc { s.hbc with resetPending := true }) (parts := [[0x00]]) rfl (Nat.le_refl 1)
  · have row := Row.of_kind (k := 26) hwaits hk (by rw [hpay] <;> rfl) (by revert hp; cases p <;> decide)
    obtain ⟨u, hu⟩ : ∃ u, controllerRestart (s.updPort p (takenPort m)) = u := ⟨_, rfl⟩
    have hR : Restarted (s.updPort p (takenPort m)) u := hu ▸ controllerRestart_restarted _
    obtain ⟨hexec, hreply⟩ := row.exec_replied (c := .restart p .whole) (owner := ownRestart) rfl (rc := 0x00) (rest := [])
      (t := u) (by rw [← hu] <;> rfl) (Nat.le_refl 1)
    obtain ⟨t, ht⟩ : ∃ t, u.updPort p (queueReply m [[0x00]] 1) = t := ⟨_, rfl⟩
    have hsame : (t.ports.get p) = queueReply m [[0x00]] 1 (u.ports.get p) := by rw [← ht, State.updPort_get_same]
    have hother : ∀ q, q ≠ p → t.ports.get q = u.ports.get q := fun q hq => by rw [← ht, State.updPort_get_ne _ _ hq]
    have hqueue := queueReply_eq (m := m) (parts := [[0x00]]) (k := 1) (u.ports.get p) row.kind (Nat.le_refl 1)
    have hfrom : ∀ q, ((s.updPort p (takenPort m)).ports.get q).descriptors = (s.ports.get q).descriptors ∧
        ((s.updPort p (takenPort m)).ports.get q).silent = (s.ports.get q).silent ∧
        ((s.updPort p (takenPort m)).ports.get q).bad = (s.ports.get q).bad ∧
        (q ≠ p → ((s.updPort p (takenPort m)).ports.get q).inbound = (s.ports.get q).inbound) := fun q => by
      by_cases hq : q = p
      · subst hq
        rw [State.updPort_get_same]
        exact ⟨rfl, rfl, rfl, fun h => absurd rfl h⟩
      · rw [State.updPort_get_ne _ _ hq]
        exact ⟨rfl, rfl, rfl, fun _ => rfl⟩
    have hports := fun q => restartPort_alarmed (hR.ports q).1 (hR.ports q).2
    have hmove : moves ↔ restartMoves s.cmu.state = true := (restartMoves_iff _).symm
    obtain ⟨c1, c2, c3, c4, c5, c6, c7, c8⟩ := hR.cmu
    refine ⟨t, ht ▸ hexec, ht ▸ hreply, ?_⟩
    have hb : t = u.withPorts t.ports := by rw [← ht] <;> rfl
    refine ⟨?_, ?_, ?_, ?_, ?_, ?_, ?_, ?_, ?_, ?_, ?_, ?_, ?_, ?_, ?_⟩
    · rw [hb]
      exact ⟨c1, c2, c3, c4, c5, c6, c7, c8, fun h => hR.stays (Bool.eq_false_iff.2 fun k => h (hmove.2 k)),
        fun h => hR.goes (hmove.1 h), hR.retraverse⟩
    · rw [hb]
      exact hR.hbc.trans (restartHbc_eq _)
    · rw [hb]; exact hR.scv
    · rw [hb]; exact hR.due
    · rw [hb]; exact hR.scanCount
    · rw [hb]; exact hR.rbs
    · rw [hb]; exact hR.ebm
    · have hp : t.pen = restartPen s.pen := by rw [hb]; exact hR.pen
      rw [hp]
      exact ⟨rfl, rfl, restartPen_slots s.pen, fun q => by cases q <;> rfl, rfl, rfl, rfl, rfl, rfl, restartPen_filter s.pen⟩
    · have hz : t.azm = restartAzm s.azm := by rw [hb]; exact hR.azm
      rw [hz]
      exact ⟨rfl, rfl, rfl, rfl, rfl, rfl, rfl, rfl, rfl, rfl, restartZone_outs s.azm.a, restartZone_outs s.azm.b⟩
    · rw [hb]; exact hR.msm
    · rw [hb]; exact hR.points
    · rw [hb]; exact hR.fault
    · rw [hb]; exact hR.cta
    · refine ⟨fun q => (u.ports.get q).outbound, fun q o ho => (hports q).1 o ho, fun hf ho q => ?_, ?_, fun q hq => ?_⟩
      · rw [hb] at ho
        show (u.ports.get q).outbound = []
        rw [hR.unalarmed hf ho q] <;> rfl
      · rw [hsame, hqueue] <;> rfl
      · rw [hother q hq]
    · intro q
      obtain ⟨_, p1, p2, p3, p4, p5⟩ := hports q
      obtain ⟨f1, f2, f3, f4⟩ := hfrom q
      have hk : (t.ports.get q).stream = (u.ports.get q).stream ∧
          (t.ports.get q).descriptors = (u.ports.get q).descriptors ∧ (t.ports.get q).silent = (u.ports.get q).silent ∧
          (t.ports.get q).inbound = (u.ports.get q).inbound ∧ (t.ports.get q).bad = (u.ports.get q).bad := by
        by_cases hq : q = p
        · subst hq
          rw [hsame, hqueue]
          exact ⟨rfl, rfl, rfl, rfl, rfl⟩
        · rw [hother q hq]
          exact ⟨rfl, rfl, rfl, rfl, rfl⟩
      obtain ⟨k1, k2, k3, k4, k5⟩ := hk
      exact ⟨k1.trans p1, (k2.trans p2).trans f1, (k3.trans p3).trans f2, fun hq => (k4.trans p4).trans (f4 hq),
        (k5.trans p5).trans f3⟩

end Sys2Proof.Machine
end

section
/-! PROOFS. WRITE COMMON (R78 … R80): the entries of its payload, and what its effects on the machine state leave. -/

namespace Sys2Proof.Machine

open Safety

/-! ### The entries of a payload (R78) -/

theorem commonEntries_past (a l : List Byte) (off k : Nat) :
    commonEntries (a ++ l) (a.length + off) k = commonEntries l off k := by
  induction k generalizing off with
  | zero => rfl
  | succ k ih => rw [commonEntries, commonEntries, fieldAt_past, Nat.add_assoc, fieldAt_past, Nat.add_assoc, ih]

/-- The bytes of one entry. -/
def entryBytes (e : Nat × Nat) : List Byte := bytesBE 1 e.1 ++ bytesBE 3 e.2

theorem entryBytes_length (e : Nat × Nat) : (entryBytes e).length = 4 := by
  simp [entryBytes, bytesBE_length]

/-- The entries read back. -/
theorem commonEntries_flatMap (es : List (Nat × Nat)) (h : ∀ e ∈ es, e.1 < 256 ∧ e.2 < 2 ^ 24) :
    commonEntries (es.flatMap entryBytes) 0 es.length = es := by
  induction es with
  | nil => rfl
  | cons e es ih =>
    obtain ⟨hcode, hval⟩ := h e List.mem_cons_self
    have h1 : fieldAt ((e :: es).flatMap entryBytes) 0 1 = e.1 := by
      rw [List.flatMap_cons, entryBytes, List.append_assoc]
      exact fieldAt_bytesBE hcode _
    have h2 : fieldAt ((e :: es).flatMap entryBytes) (0 + 1) 3 = e.2 := by
      rw [List.flatMap_cons, entryBytes, List.append_assoc, Nat.zero_add]
      exact (fieldAt_bytesBE_past (k := 1) e.1 _ 0 3).trans (fieldAt_bytesBE (by omega) _)
    have h3 : commonEntries ((e :: es).flatMap entryBytes) (0 + 4) es.length = es := by
      have k := commonEntries_past (entryBytes e) (es.flatMap entryBytes) 0 es.length
      rw [entryBytes_length] at k
      rw [List.flatMap_cons]
      exact k.trans (ih fun x hx => h x (List.mem_cons_of_mem _ hx))
    rw [List.length_cons, commonEntries, h1, h2, h3]

theorem flatMap_entryBytes_length (es : List (Nat × Nat)) : (es.flatMap entryBytes).length = 4 * es.length := by
  induction es with
  | nil => rfl
  | cons e es ih =>
    rw [List.flatMap_cons, List.length_append, entryBytes_length, ih, List.length_cons]
    omega

/-- The payload of a WRITE COMMON carries its entries. -/
theorem writeCommon_payload {pl : List Byte} {es : List (Nat × Nat)} (hn : es.length ≤ 62)
    (h : ∀ e ∈ es, e.1 < 256 ∧ e.2 < 2 ^ 24)
    (hpl : pl = bytesBE 1 es.length ++ es.flatMap (fun e => bytesBE 1 e.1 ++ bytesBE 3 e.2)) :
    lenOk 10 pl = true ∧ commonEntries pl 1 (fieldAt pl 0 1) = es := by
  have hcount : fieldAt pl 0 1 = es.length := by
    rw [hpl]; exact fieldAt_bytesBE (by omega) _
  have hlen : pl.length = 1 + 4 * es.length := by
    rw [hpl, List.length_append, bytesBE_length]
    exact congrArg (1 + ·) (flatMap_entryBytes_length es)
  refine ⟨?_, ?_⟩
  · show (decide (1 ≤ pl.length) && pl.length == 1 + 4 * fieldAt pl 0 1) = true
    rw [hcount, hlen]
    simp
  · rw [hcount, hpl]
    have k := commonEntries_past (bytesBE 1 es.length) (es.flatMap entryBytes) 0 es.length
    rw [bytesBE_length] at k
    exact k.trans (commonEntries_flatMap es h)

/-! ### What the effects on the machine state leave (R80, R143, R144, R173) -/

/-- Whether a standardization is overdue is kept by the moves: a due flag they set starts its age from 0 (R44). -/
theorem keptByMoves_late (late : Bool) : KeptByMoves fun s => isOverdue s = late where
  travel _ _ _ _ _ h := h
  turn _ h := h
  limits h := h
  rest _ h := h
  atStd h := h
  openStd h := h
  abort {s} h := by
    unfold isOverdue
    rw [abortTraverse_osq, (motion_abortTraverse s).common]
    exact h
  grade {s} h := by
    unfold isOverdue
    rw [(applyPendingGrade_keeps s).2.2.1, (motion_applyPendingGrade s).common]
    exact h
  plan {s} h := by
    have hset : ∀ u : State, isOverdue (setDue u) = isOverdue u := fun u => by
      unfold setDue
      split
      · rfl
      · next hd =>
        simp only [isOverdue, Bool.eq_false_iff.2 hd]
        simp [dueSeconds]
    unfold applyPendingPlan
    split
    · exact h
    · unfold applyPlan intervalCheck
      split
      · exact (hset _).trans h
      · exact h

/-- What an effect of a write on the machine state leaves: the common bank, the head bus, the converter and the store stay, and
so do the token and the overdue flag; the ports are reached by notices, and no point moves but BREAK and the limit points. -/
structure Stirred (s t : State) : Prop where
  common : t.rbs.common = s.rbs.common
  banks : t.rbs.banks = s.rbs.banks
  hbc : t.hbc = s.hbc
  scv : t.scv = s.scv
  position : t.cmu.position = s.cmu.position
  slots : t.pen.slots = s.pen.slots
  pins : t.pen.pins = s.pen.pins
  holder : t.cta.holder = s.cta.holder
  waiting : t.cta.waiting = s.cta.waiting
  overdue : t.osq.overdue = s.osq.overdue
  late : isOverdue t = isOverdue s
  ports : ∀ p, Noticed (s.ports.get p) (t.ports.get p)
  points : ∀ i : PointNo, i ≠ ptBreak → i ∉ limitPoints → (t.alt.points[i]).state = (s.alt.points[i]).state

theorem Stirred.refl (s : State) : Stirred s s :=
  ⟨rfl, rfl, rfl, rfl, rfl, rfl, rfl, rfl, rfl, rfl, rfl, fun _ => .refl _, fun _ _ _ => rfl⟩

theorem Stirred.trans {s t u : State} (h : Stirred s t) (k : Stirred t u) : Stirred s u :=
  ⟨k.common.trans h.common, k.banks.trans h.banks, k.hbc.trans h.hbc, k.scv.trans h.scv, k.position.trans h.position,
    k.slots.trans h.slots, k.pins.trans h.pins, k.holder.trans h.holder, k.waiting.trans h.waiting,
    k.overdue.trans h.overdue, k.late.trans h.late, fun p => (h.ports p).trans (k.ports p),
    fun i h1 h2 => (k.points i h1 h2).trans (h.points i h1 h2)⟩

theorem Steady.stirred {s t : State} (h : Steady s t) (hl : isOverdue t = isOverdue s) : Stirred s t :=
  ⟨h.common, h.banks, h.hbc, h.scv, h.position, h.slots, h.pins, h.holder, h.waiting, h.overdue, hl, h.ports,
    fun i _ hi => h.points i hi⟩

theorem stirred_withMsm (s : State) (x : Msm) : Stirred s (s.withMsm x) :=
  ⟨rfl, rfl, rfl, rfl, rfl, rfl, rfl, rfl, rfl, rfl, rfl, fun _ => .refl _, fun _ _ _ => rfl⟩

theorem stirred_stateNotice (new old : MachineState) (cause : StateCause) (s : State) :
    Stirred s (stateNotice new old cause s) := by
  refine ⟨rfl, rfl, rfl, rfl, rfl, rfl, rfl, rfl, rfl, rfl, rfl, fun p => ?_, fun _ _ _ => rfl⟩
  unfold stateNotice State.notifyAll
  rw [State.withPorts_ports, PerPort.get_map]
  exact .notice _ _ _

theorem stirred_withAlarms {s : State} {ap : AltPorts} (hp : ∀ p, Noticed (s.ports.get p) (ap.2.get p))
    (hi : ∀ i : PointNo, i ≠ ptBreak → (ap.1.points[i]).state = (s.alt.points[i]).state) : Stirred s (s.withAlarms ap) :=
  ⟨rfl, rfl, rfl, rfl, rfl, rfl, rfl, rfl, rfl, rfl, rfl, hp, fun i h _ => hi i h⟩

theorem stirred_activateBreak (s : State) : Stirred s (s.activate ptBreak) :=
  stirred_withAlarms (activate_ports s ptBreak) fun _ h => State.activate_other s h

theorem stirred_returnBreak (s : State) : Stirred s (s.returnAlarm ptBreak) :=
  stirred_withAlarms (settleAlarms_passed s.alarmCtx (_, s.ports)).ports fun _ h => State.returnAlarm_other s h

theorem stirred_relevel (s : State) : Stirred s s.relevel :=
  stirred_withAlarms (settleAlarms_passed s.alarmCtx s.alarms).ports fun i _ => (settleAlarms_passed s.alarmCtx s.alarms).state i

theorem stirred_takeOverride (s : State) : Stirred s (takeOverride s) := by
  refine (motion_takeOverride s).toSteady.stirred ?_
  unfold takeOverride
  dsimp only
  split
  · have h1 := (keptByMoves_late (isOverdue s)).abort (s := s.withCmu { s.cmu with overrideWait := 0 }) rfl
    exact (keptByMoves_late (isOverdue s)).goPark (keptByMoves_late _).nextMove h1
  · rfl

theorem stirred_setMsmSource (s : State) : Stirred s (setMsmSource .overrideFirst s) :=
  (stirred_withMsm s { s.msm with source := true }).trans (stirred_takeOverride _)

theorem stirred_flushOverride (s : State) : Stirred s (flushOverride s) := by
  unfold flushOverride
  split
  · exact (stirred_takeOverride s).trans ((steady_settleDrive _).stirred rfl)
  · exact .refl s

theorem stirred_overrideCleared (was : Bool) (s : State) : Stirred s (overrideCleared was s) := by
  refine (steady_overrideCleared was s).stirred ?_
  rw [overrideCleared_eq]
  have hp : isOverdue (parkUnlessResume s) = isOverdue s := by unfold parkUnlessResume; split <;> rfl
  split
  · split
    · exact (keptByMoves_late _).nextMove hp
    · exact hp
  · rfl

theorem stirred_clearMsmSource (s : State) : Stirred s (clearMsmSource s) :=
  (stirred_flushOverride s).trans ((stirred_withMsm _ { (flushOverride s).msm with source := false }).trans
    (stirred_overrideCleared _ _))

theorem stirred_unsuppressAll (s : State) : Stirred s s.unsuppressAll := by
  have h := settleAlarms_passed s.alarmCtx
    ({ s.alt with points := s.alt.points.map (fun p => { p with suppressed := false }) }, s.ports)
  exact stirred_withAlarms h.ports fun i _ => (h.state i).trans (by simp)

/-- A change of the machine state, with the override taken at once. -/
theorem stirred_changeState (new : MachineState) (cause : StateCause) (s : State) :
    Stirred s (changeState new cause .overrideFirst s) := by
  have h := (stirred_withMsm s (enteredMsm new s)).trans (stirred_stateNotice new s.msm.state cause _)
  cases new with
  | down =>
    rw [changeState_down]
    exact h.trans ((stirred_returnBreak _).trans (stirred_setMsmSource _))
  | brk =>
    rw [changeState_brk]
    exact h.trans ((stirred_activateBreak _).trans (stirred_setMsmSource _))
  | thread =>
    rw [changeState_thread]
    exact h.trans (stirred_clearMsmSource _)
  | run =>
    rw [changeState_run]
    exact h.trans ((stirred_returnBreak _).trans ((stirred_unsuppressAll _).trans (stirred_clearMsmSource _)))

theorem stirred_ite {s t u : State} {c : Prop} [Decidable c] (ht : Stirred s t) (hu : Stirred s u) :
    Stirred s (if c then t else u) := by
  split
  · exact ht
  · exact hu

theorem stirred_testLines (s : State) : Stirred s (testLines s) := stirred_ite (stirred_changeState ..) (.refl s)

theorem stirred_takeCause (kind : CauseKind) (pos : Int) (c : Cycle) (cause : StateCause) (s : State) :
    Stirred s (takeCause kind pos c cause .overrideFirst s) := by
  unfold takeCause
  split
  · exact (stirred_withMsm s _).trans (stirred_changeState ..)
  · exact (stirred_withMsm s _).trans (stirred_changeState ..)
  · exact stirred_withMsm s _
  · exact .refl s

theorem stirred_crawlEffect (old : CommonBank) (s : State) : Stirred s (crawlEffect old s) := by
  unfold crawlEffect compareSpeed
  refine stirred_ite (.refl s) (stirred_ite (stirred_ite (.refl s) ?_) (stirred_ite (stirred_changeState ..) (.refl s)))
  exact (stirred_changeState ..).trans (stirred_testLines _)

theorem stirred_levelEffect (old : CommonBank) (s : State) : Stirred s (levelEffect old s) :=
  stirred_ite (.refl s) (stirred_relevel s)

theorem stirred_lineEffect (old : CommonBank) (s : State) (l : BreakLine) : Stirred s (lineEffect old s l) :=
  stirred_ite (stirred_takeCause ..) (.refl s)

theorem stirred_lineEffects (old : CommonBank) (ls : List BreakLine) (s : State) : Stirred s (ls.foldl (lineEffect old) s) := by
  induction ls generalizing s with
  | nil => exact .refl s
  | cons l ls ih => exact (stirred_lineEffect old s l).trans (ih _)

theorem stirred_linesEffect (old : CommonBank) (was : MachineState) (s : State) : Stirred s (linesEffect old was s) :=
  have h := stirred_lineEffects old allLines s
  stirred_ite (.refl s) (stirred_ite (h.trans (stirred_testLines _)) h)

end Sys2Proof.Machine
end

section
/-! PROOFS. The ports a written silent time silences and the overdue time written (R56, R80, R179, R197). -/

namespace Sys2Proof.Machine

open Safety

/-! ### A port gone SILENT -/

/-- The port has given up its queues, its stream and its pin, and its point is active. -/
def Gone (q : Port) (s : State) : Prop :=
  (s.ports.get q).silent = true ∧ (s.ports.get q).stream = .idle ∧ (s.ports.get q).inbound = [] ∧
  (s.ports.get q).outbound = [] ∧ s.pen.pins.get q = none ∧ alarmActive s (ptPortSilent q)

/-- The port neither holds the token nor waits for it. -/
def TokenFree (q : Port) (c : Cta) : Prop := c.holder ≠ some q ∧ q ∉ c.waiting

theorem Gone.later {q : Port} {s t : State} (h : Gone q s) (hp : Noticed (s.ports.get q) (t.ports.get q))
    (hpin : t.pen.pins.get q = s.pen.pins.get q)
    (hpoint : (t.alt.points[ptPortSilent q]).state = (s.alt.points[ptPortSilent q]).state) : Gone q t := by
  obtain ⟨h1, h2, h3, h4, h5, h6⟩ := h
  have e := hp.of_silent h1
  refine ⟨by rw [e]; exact h1, by rw [e]; exact h2, by rw [e]; exact h3, by rw [e]; exact h4, hpin.trans h5, ?_⟩
  unfold alarmActive
  rw [hpoint]
  exact h6

theorem ptPortSilent_not_limit (q : Port) : ptPortSilent q ∉ limitPoints := by cases q <;> decide
theorem ptPortSilent_ne_ptBreak (q : Port) : ptPortSilent q ≠ ptBreak := by cases q <;> decide
theorem ptPortSilent_ne_ptOverdue (q : Port) : ptPortSilent q ≠ ptOverdue := by cases q <;> decide
theorem ptPortSilent_injective {p q : Port} (h : ptPortSilent p = ptPortSilent q) : p = q := by
  revert h
  cases p <;> cases q <;> decide

theorem Gone.stirred {q : Port} {s t : State} (h : Gone q s) (k : Stirred s t) : Gone q t :=
  h.later (k.ports q) (by rw [k.pins]) (k.points _ (ptPortSilent_ne_ptBreak q) (ptPortSilent_not_limit q))

theorem TokenFree.silenced {q : Port} {s : State} (p : Port) (h : TokenFree q s.cta) : TokenFree q (silenceToken p s).cta := by
  obtain ⟨hh, hw⟩ := h
  unfold silenceToken
  split
  · rw [(leaveToken_fields p true s).1]
    exact pass_apart hw
  · exact ⟨hh, fun k => hw (List.mem_of_mem_erase k)⟩

theorem waitingOk_silenceToken {s : State} (p : Port) (h : waitingOk s.cta) : waitingOk (silenceToken p s).cta := by
  unfold silenceToken
  split
  · rw [(leaveToken_fields p true s).1]
    exact waitingOk_pass h _
  · exact waitingOk_erase h p

/-! ### What a port's silence leaves of the others -/

/-- What the silence of ports leaves. -/
structure Hushed (s t : State) : Prop where
  rbs : t.rbs = s.rbs
  hbc : t.hbc = s.hbc
  scv : t.scv = s.scv
  position : t.cmu.position = s.cmu.position
  slots : t.pen.slots = s.pen.slots
  osq : t.osq = s.osq
  points : ∀ i : PointNo, (∀ q, i ≠ ptPortSilent q) → (t.alt.points[i]).state = (s.alt.points[i]).state
  waiting : waitingOk s.cta → waitingOk t.cta
  gone : ∀ q, Gone q s → Gone q t
  free : ∀ q, TokenFree q s.cta → TokenFree q t.cta

theorem Hushed.refl (s : State) : Hushed s s :=
  ⟨rfl, rfl, rfl, rfl, rfl, rfl, fun _ _ => rfl, id, fun _ => id, fun _ => id⟩

theorem Hushed.trans {s t u : State} (h : Hushed s t) (k : Hushed t u) : Hushed s u :=
  ⟨k.rbs.trans h.rbs, k.hbc.trans h.hbc, k.scv.trans h.scv, k.position.trans h.position, k.slots.trans h.slots,
    k.osq.trans h.osq, fun i hi => (k.points i hi).trans (h.points i hi), fun x => k.waiting (h.waiting x),
    fun q x => k.gone q (h.gone q x), fun q x => k.free q (h.free q x)⟩

theorem clearOwedHold_position (c : Cmu) : (clearOwedHold c).position = c.position := by
  unfold clearOwedHold
  split <;> rfl

theorem silenceToken_frame (p : Port) (s : State) : (silenceToken p s).rbs = s.rbs ∧ (silenceToken p s).scv = s.scv ∧
    (silenceToken p s).cmu.position = s.cmu.position ∧ (silenceToken p s).alt = s.alt := by
  unfold silenceToken
  split
  · obtain ⟨_, hcmu, _, _, _, halt, hrbs, _⟩ := leaveToken_fields p true s
    refine ⟨hrbs, ?_, ?_, halt⟩
    · rw [leaveToken_eq]; split <;> rfl
    · rw [hcmu, clearOwedHold_position]
  · exact ⟨rfl, rfl, rfl, rfl⟩

theorem becomeSilent_others (p : Port) {q : Port} (s : State) (hq : q ≠ p) :
    Noticed (s.ports.get q) ((becomeSilent p s).ports.get q) ∧
    (becomeSilent p s).pen.pins.get q = s.pen.pins.get q := by
  obtain ⟨_, hpen, _⟩ := becomeSilent_fields p s
  refine ⟨?_, ?_⟩
  · have h0 : (silencedPort p s).ports.get q = s.ports.get q := by rw [silencedPort_get, if_neg hq]
    have h1 := (silenceToken_blocks p (silencedPort p s)).2.2.2.2.2.2 q
    rw [h0] at h1
    rw [becomeSilent_eq, silenceAzm_eq]
    exact h1.trans (activate_ports _ _ q)
  · rw [hpen]
    exact PerPort.get_set_ne _ _ hq

theorem becomeSilent_points (p : Port) (s : State) {i : PointNo} (hi : i ≠ ptPortSilent p) :
    ((becomeSilent p s).alt.points[i]).state = (s.alt.points[i]).state := by
  rw [becomeSilent_eq, silenceAzm_eq]
  refine (State.activate_other _ hi).trans ?_
  rw [(silenceToken_frame p (silencedPort p s)).2.2.2] <;> rfl

theorem gone_becomeSilent (p : Port) (s : State) : Gone p (becomeSilent p s) := by
  obtain ⟨hport, hpen, halarm, _⟩ := becomeSilent_fields p s
  refine ⟨by rw [hport] <;> rfl, by rw [hport] <;> rfl, by rw [hport] <;> rfl, by rw [hport] <;> rfl, ?_, halarm⟩
  rw [hpen]
  exact PerPort.get_set_same ..

theorem hushed_becomeSilent (p : Port) (s : State) : Hushed s (becomeSilent p s) := by
  obtain ⟨hport, hpen, halarm, hcta, hcmu, _, hhbc, hosq, _, _⟩ := becomeSilent_fields p s
  obtain ⟨frbs, fscv, fpos, falt⟩ := silenceToken_frame p (silencedPort p s)
  constructor
  case rbs => rw [becomeSilent_eq, silenceAzm_eq]; exact frbs
  case scv => rw [becomeSilent_eq, silenceAzm_eq]; exact fscv
  case position => rw [hcmu]; exact fpos
  case slots => rw [hpen]
  case hbc => exact hhbc
  case osq => exact hosq
  case points => exact fun i hi => becomeSilent_points p s (hi p)
  case waiting => intro h; rw [hcta]; exact waitingOk_silenceToken p (s := silencedPort p s) h
  case gone =>
    intro q hq
    by_cases e : q = p
    · rw [e]; exact gone_becomeSilent p s
    · obtain ⟨hn, hpin⟩ := becomeSilent_others p s e
      exact hq.later hn hpin (becomeSilent_points p s fun k => e (ptPortSilent_injective k))
  case free => intro q hq; rw [hcta]; exact TokenFree.silenced (s := silencedPort p s) p hq

/-! ### The silent time written -/

/-- One port's turn. -/
def hush (s : State) (p : Port) : State := if timerOver s p then becomeSilent p s else s

theorem hushed_hush (p : Port) (s : State) : Hushed s (hush s p) := by
  unfold hush
  split
  · exact hushed_becomeSilent p s
  · exact .refl s

theorem hush_others {p q : Port} (s : State) (hq : q ≠ p) : Noticed (s.ports.get q) ((hush s p).ports.get q) := by
  unfold hush
  split
  · exact (becomeSilent_others p s hq).1
  · exact .refl _

theorem Noticed.silentTimer {x y : PortState} (h : Noticed x y) : y.silentTimer = x.silentTimer := h.field (by simp)

theorem timerOver_congr {s t : State} {q : Port} (h : Noticed (s.ports.get q) (t.ports.get q))
    (hc : t.rbs.common.silentTime = s.rbs.common.silentTime) : timerOver t q = timerOver s q := by
  simp only [timerOver, h.silent, h.silentTimer, hc]

theorem foldl_hush (ps : List Port) (hn : ps.Nodup) (s : State) : let t := ps.foldl hush s
    Hushed s t ∧ (∀ q ∈ ps, timerOver s q = true → Gone q t ∧ (waitingOk s.cta → TokenFree q t.cta)) ∧
    ∀ q, (q ∉ ps ∨ timerOver s q = false) → Noticed (s.ports.get q) (t.ports.get q) := by
  induction ps generalizing s with
  | nil => exact ⟨.refl s, nofun, fun _ _ => .refl _⟩
  | cons p ps ih =>
    obtain ⟨hp, hps⟩ := List.nodup_cons.1 hn
    obtain ⟨hrest, hgone, hkept⟩ := ih hps (hush s p)
    have h1 := hushed_hush p s
    have hover : ∀ q, q ≠ p → timerOver (hush s p) q = timerOver s q := fun q hq =>
      timerOver_congr (hush_others s hq) (by rw [h1.rbs])
    refine ⟨h1.trans hrest, fun q hq ho => ?_, fun q hq => ?_⟩
    · by_cases e : q = p
      · subst e
        have e1 : hush s q = becomeSilent q s := if_pos ho
        refine ⟨hrest.gone q (e1 ▸ gone_becomeSilent q s), fun hw => hrest.free q ?_⟩
        rw [e1, (becomeSilent_fields q s).2.2.2.1]
        exact silenceToken_apart q (s := silencedPort q s) hw
      · obtain ⟨g1, g2⟩ := hgone q ((List.mem_cons.1 hq).resolve_left e) ((hover q e).trans ho)
        exact ⟨g1, fun hw => g2 (h1.waiting hw)⟩
    · by_cases e : q = p
      · subst e
        have ho : timerOver s q = false := hq.resolve_left fun k => k List.mem_cons_self
        have e1 : hush s q = s := if_neg (by rw [ho]; decide)
        have k := hkept q (.inl hp)
        rw [e1] at k
        rw [List.foldl_cons, e1]
        exact k
      · refine (hush_others s e).trans (hkept q ?_)
        rcases hq with h | h
        · exact .inl fun k => h (List.mem_cons_of_mem _ k)
        · exact .inr ((hover q e).trans h)

theorem silenceEffect_leaves (named : Bool) (s : State) : let t := silenceEffect named s
    Hushed s t ∧
    (∀ q, named = true → timerOver s q = true → Gone q t ∧ (waitingOk s.cta → TokenFree q t.cta)) ∧
    ∀ q, (named = false ∨ timerOver s q = false) → Noticed (s.ports.get q) (t.ports.get q) := by
  obtain ⟨h, hgone, hkept⟩ := foldl_hush allPorts (by decide) s
  cases named with
  | false => exact ⟨.refl s, nofun, fun _ _ => .refl _⟩
  | true =>
    refine ⟨h, fun q _ ho => hgone q (by cases q <;> decide) ho, fun q hq => hkept q (.inr ?_)⟩
    exact hq.resolve_left (by decide)

/-! ### The overdue time written (R56) -/

/-- What the comparison with the overdue time leaves. -/
theorem overdueEffect_leaves (s : State) : let t := overdueEffect s
    t = (s.withOsq { s.osq with overdue := isOverdue s }).withAlarms t.alarms ∧
    (∀ q, Noticed (s.ports.get q) (t.ports.get q)) ∧
    (∀ i : PointNo, i ≠ ptOverdue → (t.alt.points[i]).state = (s.alt.points[i]).state) ∧
    (s.osq.overdue = false → isOverdue s = true → alarmActive t ptOverdue) ∧
    (s.osq.overdue = true → isOverdue s = false → (t.alt.points[ptOverdue]).state ∈ [PointState.normal, .returnUnack]) := by
  intro t
  by_cases ho : s.osq.overdue = isOverdue s
  · have e : t = s := by
      show overdueEffect s = s
      unfold overdueEffect
      rw [ho]
      cases isOverdue s <;> rfl
    rw [e, ← ho]
    exact ⟨rfl, fun _ => .refl _, fun _ _ => rfl, fun h k => absurd (h.symm.trans k) (by decide),
      fun h k => absurd (h.symm.trans k) (by decide)⟩
  · obtain ⟨u, hu⟩ : ∃ u, s.withOsq { s.osq with overdue := isOverdue s } = u := ⟨_, rfl⟩
    have halt : u.alt = s.alt ∧ u.ports = s.ports := by rw [← hu]; exact ⟨rfl, rfl⟩
    cases hv : isOverdue s with
    | true =>
      have hf : s.osq.overdue = false := by rw [hv] at ho; exact Bool.eq_false_iff.2 ho
      have e : t = u.activate ptOverdue := by
        show overdueEffect s = _
        unfold overdueEffect
        rw [if_pos ⟨hv, by rw [hf]; rfl⟩, ← hu, hv]
      rw [e, ← hv, hu]
      refine ⟨rfl, fun q => ?_, fun i hi => ?_, fun _ _ => State.activate_active u _, fun _ k => absurd (hv.symm.trans k) (by decide)⟩
      · rw [← halt.2]; exact activate_ports u _ q
      · rw [← halt.1]; exact State.activate_other u hi
    | false =>
      have hf : s.osq.overdue = true := by rw [hv] at ho; simpa using ho
      have e : t = u.returnAlarm ptOverdue := by
        show overdueEffect s = _
        unfold overdueEffect
        rw [if_neg (by rw [hv]; simp), if_pos ⟨hf, by rw [hv]; rfl⟩, ← hu, hv]
      rw [e, ← hv, hu]
      refine ⟨rfl, fun q => ?_, fun i hi => ?_, fun _ k => absurd (hv.symm.trans k) (by decide), fun _ _ => ?_⟩
      · rw [← halt.2]; exact (settleAlarms_passed u.alarmCtx (_, u.ports)).ports q
      · rw [← halt.1]; exact State.returnAlarm_other u hi
      · exact State.returnAlarm_over u ptOverdue

end Sys2Proof.Machine
end

section
/-! PROOFS. The fields a WRITE COMMON leaves, the effects it has no cause for, the end of the annunciation pass (R168), and the
lines a write turns absent (R80, R143). -/

namespace Sys2Proof.Machine

open Safety

/-! ### The fields written (R78) -/

/-- A field that no written code names stays. -/
theorem writeEntries_keeps {α : Type} (f : CommonBank → α) {es : List (Nat × Nat)} (b : CommonBank)
    (h : ∀ e ∈ es, ∀ b : CommonBank, f (setCommonField b e.1 e.2) = f b) : f (writeEntries b es) = f b := by
  unfold writeEntries
  induction es generalizing b with
  | nil => rfl
  | cons e es ih =>
    exact (ih _ fun x hx => h x (List.mem_cons_of_mem _ hx)).trans (h e List.mem_cons_self b)

/-- The fields whose writing has an effect beside the store. -/
structure EffectFields where
  crawl : Nat
  levels : Vector Nat 30
  ceiling : Nat
  overdueTime : Nat
  enable : PerLine Bool
  low : PerLine Bool

/-- Those fields of a common bank. -/
def effectFields (b : CommonBank) : EffectFields := ⟨b.crawl, b.levels, b.ceiling, b.overdueTime, b.lineEnable, b.lineLow⟩

theorem setCommonField_quiet {n : Nat} (h : n ∈ [0, 1, 2, 3, 4, 6, 7, 8, 9, 51]) (b : CommonBank) (v : Nat) :
    effectFields (setCommonField b n v) = effectFields b := by
  simp only [List.mem_cons, List.not_mem_nil, or_false] at h
  rcases h with rfl | rfl | rfl | rfl | rfl | rfl | rfl | rfl | rfl | rfl <;> rfl

theorem setCommonField_crawl (b : CommonBank) (v : Nat) :
    effectFields (setCommonField b 5 v) = { effectFields b with crawl := v } := rfl

theorem setCommonField_level {n : Nat} (h1 : 10 ≤ n) (h2 : n ≤ 40) (b : CommonBank) (v : Nat) :
    { effectFields (setCommonField b n v) with levels := b.levels, ceiling := b.ceiling } = effectFields b := by
  interval_cases n <;> rfl

theorem setCommonField_line {n : Nat} (h : n ∈ [43, 44, 45, 46, 47, 48, 49, 50]) (b : CommonBank) (v : Nat) :
    { effectFields (setCommonField b n v) with enable := b.lineEnable, low := b.lineLow } = effectFields b := by
  simp only [List.mem_cons, List.not_mem_nil, or_false] at h
  rcases h with rfl | rfl | rfl | rfl | rfl | rfl | rfl | rfl <;> rfl

/-- A group of codes without the silent time names no silent time. -/
theorem unnamed_silentTime {es : List (Nat × Nat)} (h : ∀ e ∈ es, e.1 ≠ 41) : (es.map Prod.fst).contains 41 = false := by
  rw [Bool.eq_false_iff]
  intro k
  obtain ⟨e, he, e41⟩ := List.mem_map.1 (List.contains_iff_mem.1 k)
  exact h e he e41

/-! ### Effects without a cause (R80) -/

theorem crawlEffect_same {old : CommonBank} {s : State} (h : s.rbs.common.crawl = old.crawl) : crawlEffect old s = s := if_pos h

theorem levelEffect_same {old : CommonBank} {s : State} (h1 : s.rbs.common.levels = old.levels)
    (h2 : s.rbs.common.ceiling = old.ceiling) : levelEffect old s = s := if_pos ⟨h1, h2⟩

theorem overdueEffect_same {s : State} (h : isOverdue s = s.osq.overdue) : overdueEffect s = s := by
  unfold overdueEffect
  rw [h]
  cases s.osq.overdue <;> rfl

theorem linesEffect_same {old : CommonBank} {s : State} (was : MachineState) (h1 : s.rbs.common.lineEnable = old.lineEnable)
    (h2 : s.rbs.common.lineLow = old.lineLow) : linesEffect old was s = s := if_pos ⟨h1, h2⟩

/-- An accepted write, effect by effect, from the state with the bank stored. -/
theorem applyCommon_eq (es : List (Nat × Nat)) (s w : State)
    (hw : w = s.withRbs { s.rbs with common := writeEntries s.rbs.common es }) : applyCommon es s =
    (linesEffect s.rbs.common s.msm.state (overdueEffect (silenceEffect ((es.map Prod.fst).contains 41)
      (levelEffect s.rbs.common (crawlEffect s.rbs.common w))))).settleDrive := by
  rw [hw] <;> rfl

/-! ### The end of the annunciation pass (R168) -/

theorem foldl_pick_mem {α : Type} {f : Option α → α → Option α} (hf : ∀ b i, f b i = some i ∨ f b i = b) {l : List α}
    {b : Option α} {k : α} (h : l.foldl f b = some k) : k ∈ l ∨ b = some k := by
  induction l generalizing b with
  | nil => exact .inr h
  | cons i l ih =>
    rcases ih h with hm | he
    · exact .inl (List.mem_cons_of_mem _ hm)
    · rcases hf b i with e | e
      · exact .inl (by rw [Option.some.inj (e.symm.trans he)]; exact List.mem_cons_self)
      · exact .inr (e.symm.trans he)

theorem foldl_pick_none {α : Type} {f : Option α → α → Option α} (hf : ∀ b i, (f b i).isSome = true) {l : List α}
    {b : Option α} (h : l.foldl f b = none) : l = [] := by
  induction l generalizing b with
  | nil => rfl
  | cons i l ih =>
    have e : l = [] := ih h
    subst e
    exact absurd (hf b i) (by rw [show f b i = none from h]; exact nofun)

theorem pickPoint_eligible {x : AlarmCtx} {a : Alt} {i : PointNo} (h : pickPoint x a = some i) : eligible x a i = true := by
  have k := foldl_pick_mem (fun b j => by
    cases b with
    | none => exact .inl rfl
    | some c => dsimp only; split <;> simp) h
  rcases k with k | k
  · exact (List.mem_filter.1 k).2
  · cases k

theorem pickPoint_none {x : AlarmCtx} {a : Alt} (h : pickPoint x a = none) {i : PointNo} (hi : i ∈ a.order) :
    eligible x a i = false := by
  have k := foldl_pick_none (fun b j => by
    cases b with
    | none => rfl
    | some c => dsimp only; split <;> rfl) h
  rw [Bool.eq_false_iff]
  exact fun e => List.not_mem_nil (k ▸ List.mem_filter.2 ⟨hi, e⟩)

/-- The points not annunciated. -/
def quietPoints (a : Alt) : Finset PointNo := Finset.univ.filter fun i => (a.points[i]).annunciated = false

theorem quietPoints_annunciate (x : AlarmCtx) {i : PointNo} {ap : AltPorts} (h : (ap.1.points[i]).annunciated = false) :
    (quietPoints (annunciate x i ap).1).card < (quietPoints ap.1).card := by
  refine Finset.card_lt_card ⟨fun j hj => ?_, fun hsub => ?_⟩
  · rw [quietPoints, Finset.mem_filter] at hj ⊢
    refine ⟨hj.1, Bool.eq_false_iff.2 fun e => ?_⟩
    exact absurd ((annunciate_passed x i ap).kept j e) (by rw [hj.2]; decide)
  · have hi : i ∈ quietPoints (annunciate x i ap).1 := hsub (Finset.mem_filter.2 ⟨Finset.mem_univ _, h⟩)
    have e : ((annunciate x i ap).1.points[i]).annunciated = true := by
      show ((ap.1.setPoint i _).points[i]).annunciated = true
      rw [Alt.setPoint_get, if_pos rfl]
    rw [quietPoints, Finset.mem_filter, e] at hi
    exact absurd hi.2 (by decide)

/-- The pass ends with no point of the entry order eligible. -/
theorem annPass_exhausts (x : AlarmCtx) (n : Nat) (ap : AltPorts) (h : (quietPoints ap.1).card ≤ n) :
    pickPoint x (annPass x n ap).1 = none := by
  induction n generalizing ap with
  | zero =>
    cases hp : pickPoint x ap.1 with
    | none => exact hp
    | some i =>
      have he := pickPoint_eligible hp
      have hq : i ∈ quietPoints ap.1 := Finset.mem_filter.2 ⟨Finset.mem_univ _, by simp [eligible] at he; exact he.1.1.1.2⟩
      exact absurd (Finset.card_pos.2 ⟨i, hq⟩) (by omega)
  | succ n ih =>
    have e : annPass x (n + 1) ap = (pickPoint x ap.1).elim ap (fun k => annPass x n (annunciate x k ap)) := by
      simp only [annPass]; cases pickPoint x ap.1 <;> rfl
    rw [e]
    cases hp : pickPoint x ap.1 with
    | none => exact hp
    | some i =>
      have he := pickPoint_eligible hp
      have hq : (ap.1.points[i]).annunciated = false := by simp [eligible] at he; exact he.1.1.1.2
      have := quietPoints_annunciate x hq
      exact ih _ (by omega)

/-- At the end of an event no waiting point of the entry order lies below F unannunciated. -/
theorem settleAlarms_level (x : AlarmCtx) (ap : AltPorts) {i : PointNo} (hi : i ∈ ap.1.order) :
    let b := (settleAlarms x ap).1
    (b.points[i]).state = .activeUnack → (b.points[i]).annunciated = false → (b.points[i]).suppressed = false →
    levelOf x.levels i ≤ 6 → b.floor ≤ levelOf x.levels i := by
  intro b h1 h2 h3 h4
  have hnone : pickPoint x b = none := annPass_exhausts x 30 _ ((Finset.card_le_univ _).trans (by simp))
  have hord : b.order = ap.1.order := (settleAlarms_passed x ap).order
  have he := pickPoint_none hnone (i := i) (hord ▸ hi)
  by_contra hlt
  simp only [eligible, h1, h2, h3] at he
  simp [h4] at he
  omega

/-! ### The lines a write turns absent (R143) -/

/-- The write turns the line's reading absent. -/
abbrev TurnedAbsent (old : CommonBank) (s : State) (l : BreakLine) : Prop :=
  lineReading s.rbs.common s.msm l = .absent ∧ lineReading old s.msm l ≠ .absent

theorem lineReading_congr (b : CommonBank) {m n : Msm} (h : m.lines = n.lines) (l : BreakLine) :
    lineReading b m l = lineReading b n l := by
  simp only [lineReading, h]

theorem foldl_lineEffect_none {old : CommonBank} {s : State} {ls : List BreakLine} (h : ∀ l ∈ ls, ¬ TurnedAbsent old s l) :
    ls.foldl (lineEffect old) s = s := by
  induction ls with
  | nil => rfl
  | cons l ls ih =>
    rw [List.foldl_cons, show lineEffect old s l = s from if_neg (h l List.mem_cons_self)]
    exact ih fun k hk => h k (List.mem_cons_of_mem _ hk)

theorem lineEffect_down {old : CommonBank} {s : State} (h : s.msm.state = .down) (l : BreakLine) : lineEffect old s l = s := by
  unfold lineEffect
  split
  · exact takeCause_down _ _ _ _ _ h
  · rfl

theorem foldl_lineEffect_down {old : CommonBank} {s : State} (h : s.msm.state = .down) (ls : List BreakLine) :
    ls.foldl (lineEffect old) s = s := by
  induction ls with
  | nil => rfl
  | cons l ls ih => rw [List.foldl_cons, lineEffect_down h, ih]

/-- One line turned absent in RUN or THREAD is the one cause. -/
theorem foldl_lineEffect_one {old : CommonBank} {s : State} {l : BreakLine} (hs : s.msm.state = .run ∨ s.msm.state = .thread)
    (hl : TurnedAbsent old s l) (hone : ∀ k, TurnedAbsent old s k → k = l) :
    allLines.foldl (lineEffect old) s = takeCause (.line l) s.cmu.position s.hbc.cycle (.line l) .overrideFirst s := by
  obtain ⟨pre, post, hsplit⟩ := List.append_of_mem (mem_allLines l)
  have hn : (pre ++ l :: post).Nodup := hsplit ▸ (by decide : allLines.Nodup)
  have hpre : l ∉ pre := fun k => (List.nodup_append.1 hn).2.2 l k l List.mem_cons_self rfl
  have hpost : l ∉ post := (List.nodup_cons.1 (List.nodup_append.1 hn).2.1).1
  obtain ⟨v, hv⟩ : ∃ v, takeCause (.line l) s.cmu.position s.hbc.cycle (.line l) .overrideFirst s = v := ⟨_, rfl⟩
  have hlines : v.msm.lines = s.msm.lines := hv ▸ (takeCause_enters _ _ _ _ _ hs).2.2.1
  have hcommon : v.rbs.common = s.rbs.common := hv ▸ (stirred_takeCause _ _ _ _ s).common
  have hturned : ∀ k, TurnedAbsent old v k → TurnedAbsent old s k := fun k hk => by
    unfold TurnedAbsent at hk ⊢
    rw [hcommon, lineReading_congr _ hlines, lineReading_congr _ hlines] at hk
    exact hk
  rw [hsplit, List.foldl_append, foldl_lineEffect_none fun k hk h => hpre (hone k h ▸ hk), List.foldl_cons,
    show lineEffect old s l = v from (if_pos hl).trans hv, foldl_lineEffect_none fun k hk h => hpost (hone k (hturned k h) ▸ hk), hv]

end Sys2Proof.Machine
end

section
/-! PROOFS. WRITE COMMON (R78 … R80): what every accepted write leaves, and its effects by field group. -/

namespace Sys2Proof.Machine

open Safety

theorem restForWrite_iff (st : CarriageState) :
    restForWrite st = true ↔ st ∈ [CarriageState.parked, .unhomed, .fault] := by
  cases st <;> simp [restForWrite]

theorem fieldsOk_iff (s : State) (es : List (Nat × Nat)) : fieldsOk s es = true ↔
    (es.map Prod.fst).Nodup ∧ (∀ e ∈ es, commonFieldOk (writeEntries s.rbs.common es).pMax e.1 e.2 = true) ∧
    (writeEntries s.rbs.common es).parkPos ≤ (writeEntries s.rbs.common es).pMax ∧
    (writeEntries s.rbs.common es).stdPos ≤ (writeEntries s.rbs.common es).pMax ∧
    (s.cmu.homed = true → -500 ≤ s.cmu.position ∧
      s.cmu.position ≤ ((writeEntries s.rbs.common es).pMax : Int) + 500) := by
  have hw : ((!s.cmu.homed || inWindow (writeEntries s.rbs.common es).pMax s.cmu.position) = true) ↔
      (s.cmu.homed = true → -500 ≤ s.cmu.position ∧
        s.cmu.position ≤ ((writeEntries s.rbs.common es).pMax : Int) + 500) := by
    cases s.cmu.homed <;> simp [inWindow]
  rw [fieldsOk, Bool.and_eq_true, hw]
  simp only [commonWriteOk, Bool.and_eq_true, decide_eq_true_eq, List.all_eq_true, and_assoc]

/-- A WRITE COMMON of the holder of the token, with its entries read. -/
structure WriteRow (s : State) (p : Port) (m : InMsg) (es : List (Nat × Nat)) : Prop where
  row : Row s p m 1 (ofKind 10)
  entries : commonEntries m.payload 1 (fieldAt m.payload 0 1) = es
  holder : s.cta.holder = some p

section
variable {s : State} {p : Port} {m : InMsg} {es : List (Nat × Nat)}

theorem WriteRow.owner (h : WriteRow s p m es) :
    withToken ownWriteCommon p m (s.updPort p (takenPort m)) =
      if !restForWrite s.cmu.state then code rcWrongState (s.updPort p (takenPort m))
      else if !fieldsOk (s.updPort p (takenPort m)) es then code rcBadField (s.updPort p (takenPort m))
      else code rcOk (applyCommon es (s.updPort p (takenPort m))) := by
  rw [withToken_taken m h.holder, ownWriteCommon, h.entries] <;> rfl

theorem WriteRow.refused_state (h : WriteRow s p m es) (hr : ¬ restForWrite s.cmu.state = true) :
    exec (.writeCommon p .whole) s = .next (answered s p m [[0x15]]) :=
  h.row.exec_answered (c := .writeCommon p .whole) (owner := withToken ownWriteCommon) rfl (parts := [[0x15]])
    (h.owner.trans (if_pos (by simpa using hr))) (Nat.le_refl 1)

theorem WriteRow.refused_field (h : WriteRow s p m es) (hr : restForWrite s.cmu.state = true)
    (hf : ¬ fieldsOk (s.updPort p (takenPort m)) es = true) :
    exec (.writeCommon p .whole) s = .next (answered s p m [[0x12]]) :=
  h.row.exec_answered (c := .writeCommon p .whole) (owner := withToken ownWriteCommon) rfl (parts := [[0x12]])
    ((h.owner.trans (if_neg (by simpa using hr))).trans (if_pos (by simpa using hf))) (Nat.le_refl 1)

/-- The state with the bank stored, before any effect. -/
def storedCommon (s : State) (p : Port) (m : InMsg) (es : List (Nat × Nat)) : State :=
  (s.updPort p (takenPort m)).withRbs { s.rbs with common := writeEntries s.rbs.common es }

/-- An accepted write runs its effects and is answered OK. -/
theorem WriteRow.accepted (h : WriteRow s p m es) (hr : restForWrite s.cmu.state = true)
    (hf : fieldsOk (s.updPort p (takenPort m)) es = true) {t : State}
    (ht : (linesEffect s.rbs.common s.msm.state (overdueEffect (silenceEffect ((es.map Prod.fst).contains 41)
      (levelEffect s.rbs.common (crawlEffect s.rbs.common (storedCommon s p m es)))))).settleDrive = t) :
    exec (.writeCommon p .whole) s = .next (t.updPort p (queueReply m [[0x00]] 1)) ∧
    repliedWith (t.updPort p (queueReply m [[0x00]] 1)) p m 0x00 := by
  refine h.row.exec_replied (c := .writeCommon p .whole) (owner := withToken ownWriteCommon) rfl ?_ (Nat.le_refl 1)
  rw [h.owner, if_neg (by simpa using hr), if_neg (by simpa using hf), applyCommon_eq es _ (storedCommon s p m es) rfl]
  exact congrArg (code rcOk) ht

/-- A write with no effect beside the store. -/
theorem WriteRow.stored (h : WriteRow s p m es) (hr : restForWrite s.cmu.state = true)
    (hf : fieldsOk (s.updPort p (takenPort m)) es = true) (hd : driveSettled s)
    (ht : linesEffect s.rbs.common s.msm.state (overdueEffect (silenceEffect ((es.map Prod.fst).contains 41)
      (levelEffect s.rbs.common (crawlEffect s.rbs.common (storedCommon s p m es))))) = storedCommon s p m es) :
    exec (.writeCommon p .whole) s =
      .next { answered s p m [[0x00]] with rbs := { s.rbs with common := writeEntries s.rbs.common es } } := by
  refine h.row.exec_changed (c := .writeCommon p .whole) (owner := withToken ownWriteCommon) rfl
    (t := s.withRbs { s.rbs with common := writeEntries s.rbs.common es }) (parts := [[0x00]]) ?_ (Nat.le_refl 1)
  rw [h.owner, if_neg (by simpa using hr), if_neg (by simpa using hf), applyCommon_eq es _ (storedCommon s p m es) rfl]
  refine congrArg (code rcOk) ((congrArg State.settleDrive ht).trans ?_)
  exact State.settleDrive_of_settled (by exact hd)

end

/-- A write with none of the effects' fields changed leaves the store alone. -/
theorem effects_none {s : State} {p : Port} {m : InMsg} {es : List (Nat × Nat)}
    (hf : effectFields (writeEntries s.rbs.common es) = effectFields s.rbs.common) (h41 : ∀ e ∈ es, e.1 ≠ 41)
    (hl : isOverdue s = s.osq.overdue) :
    linesEffect s.rbs.common s.msm.state (overdueEffect (silenceEffect ((es.map Prod.fst).contains 41)
      (levelEffect s.rbs.common (crawlEffect s.rbs.common (storedCommon s p m es))))) = storedCommon s p m es := by
  obtain ⟨w, hw⟩ : ∃ w, storedCommon s p m es = w := ⟨_, rfl⟩
  have hc : w.rbs.common = writeEntries s.rbs.common es := by rw [← hw] <;> rfl
  have hlate : isOverdue w = w.osq.overdue := by
    have e : isOverdue w = isOverdue s := by
      rw [isOverdue, hc, show (writeEntries s.rbs.common es).overdueTime = s.rbs.common.overdueTime from
        congrArg EffectFields.overdueTime hf, ← hw] <;> rfl
    rw [e, hl, ← hw] <;> rfl
  rw [hw, crawlEffect_same (by rw [hc]; exact congrArg EffectFields.crawl hf),
    levelEffect_same (by rw [hc]; exact congrArg EffectFields.levels hf) (by rw [hc]; exact congrArg EffectFields.ceiling hf),
    unnamed_silentTime h41]
  show linesEffect s.rbs.common s.msm.state (overdueEffect w) = w
  rw [overdueEffect_same hlate]
  exact linesEffect_same _ (by rw [hc]; exact congrArg EffectFields.enable hf) (by rw [hc]; exact congrArg EffectFields.low hf)

end Sys2Proof.Machine
end

section
/-! PROOFS. What every accepted WRITE COMMON leaves, and its effects by field group (R80). -/

namespace Sys2Proof.Machine

open Safety

/-- What the effects of a write leave, from the state with the bank stored; `named` tells whether the silent time is written. -/
structure Written (named : Bool) (w t : State) : Prop where
  common : t.rbs.common = w.rbs.common
  banks : t.rbs.banks = w.rbs.banks
  hbc : t.hbc = w.hbc
  scv : t.scv = w.scv
  position : t.cmu.position = w.cmu.position
  slots : t.pen.slots = w.pen.slots
  kept : ∀ q, ¬ (named = true ∧ timerOver w q = true) → (t.ports.get q).silent = (w.ports.get q).silent
  gone : ∀ q, named = true → timerOver w q = true → Gone q t ∧ (waitingOk w.cta → TokenFree q t.cta)
  overdue : t.osq.overdue = isOverdue w
  raised : w.osq.overdue = false → t.osq.overdue = true → alarmActive t ptOverdue
  returned : w.osq.overdue = true → t.osq.overdue = false → (t.alt.points[ptOverdue]).state ∈ [PointState.normal, .returnUnack]

theorem waitingOk_congr {c d : Cta} (hh : d.holder = c.holder) (hw : d.waiting = c.waiting) (h : waitingOk c) : waitingOk d := by
  unfold waitingOk
  rw [hh, hw]
  exact h

theorem effects_written (old : CommonBank) (was : MachineState) (named : Bool) (w : State) :
    Written named w (linesEffect old was (overdueEffect (silenceEffect named
      (levelEffect old (crawlEffect old w))))).settleDrive := by
  obtain ⟨a, ha⟩ : ∃ a, levelEffect old (crawlEffect old w) = a := ⟨_, rfl⟩
  have h1 : Stirred w a := ha ▸ (stirred_crawlEffect old w).trans (stirred_levelEffect old _)
  obtain ⟨b, hb⟩ : ∃ b, silenceEffect named a = b := ⟨_, rfl⟩
  obtain ⟨h2, hgone, hkept⟩ := silenceEffect_leaves named a
  obtain ⟨c, hc⟩ : ∃ c, overdueEffect b = c := ⟨_, rfl⟩
  obtain ⟨hceq, hcports, hcpoints, hcraised, hcreturned⟩ := overdueEffect_leaves b
  obtain ⟨d, hd⟩ : ∃ d, linesEffect old was c = d := ⟨_, rfl⟩
  have h4 : Stirred c d.settleDrive := (hd ▸ stirred_linesEffect old was c).trans ((steady_settleDrive d).stirred rfl)
  rw [hb] at h2 hgone hkept
  rw [hc] at hceq hcports hcpoints hcraised hcreturned
  have hover : ∀ q, timerOver a q = timerOver w q := fun q =>
    timerOver_congr (h1.ports q) (by rw [h1.common])
  have hlate : isOverdue b = isOverdue w := by
    have e : isOverdue b = isOverdue a := by rw [isOverdue, h2.osq, h2.rbs] <;> rfl
    exact e.trans h1.late
  have hcosq : c.osq.overdue = isOverdue w := by rw [hceq, ← hlate] <;> rfl
  have hbosq : b.osq.overdue = w.osq.overdue := by rw [h2.osq]; exact h1.overdue
  have hcb : c.rbs = b.rbs ∧ c.hbc = b.hbc ∧ c.scv = b.scv ∧ c.cmu = b.cmu ∧ c.pen = b.pen ∧ c.cta = b.cta := by
    rw [hceq]; exact ⟨rfl, rfl, rfl, rfl, rfl, rfl⟩
  obtain ⟨k1, k2, k3, k4, k5, k6⟩ := hcb
  have hdout : d.settleDrive.osq.overdue = isOverdue w := h4.overdue.trans hcosq
  have hpoint : (d.settleDrive.alt.points[ptOverdue]).state = (c.alt.points[ptOverdue]).state :=
    h4.points ptOverdue (by decide) (by decide)
  rw [ha, hb, hc, hd]
  constructor
  case common => exact h4.common.trans (by rw [k1, h2.rbs]; exact h1.common)
  case banks => exact h4.banks.trans (by rw [k1, h2.rbs]; exact h1.banks)
  case hbc => exact h4.hbc.trans (k2.trans (h2.hbc.trans h1.hbc))
  case scv => exact h4.scv.trans (k3.trans (h2.scv.trans h1.scv))
  case position => exact h4.position.trans ((congrArg Cmu.position k4).trans (h2.position.trans h1.position))
  case slots => exact h4.slots.trans ((congrArg Pen.slots k5).trans (h2.slots.trans h1.slots))
  case kept =>
    intro q hq
    have hq' : named = false ∨ timerOver a q = false := by
      rw [hover]
      cases named
      · exact .inl rfl
      · exact .inr (Bool.eq_false_iff.2 fun e => hq ⟨rfl, e⟩)
    exact (((h1.ports q).trans (hkept q hq')).trans ((hcports q).trans (h4.ports q))).silent
  case gone =>
    intro q hn hq
    obtain ⟨g, f⟩ := hgone q hn ((hover q).trans hq)
    have gc : Gone q c := g.later (hcports q) (by rw [k5]) (hcpoints _ (ptPortSilent_ne_ptOverdue q))
    refine ⟨gc.stirred h4, fun hw => ?_⟩
    have fb := f (waitingOk_congr h1.holder h1.waiting hw)
    unfold TokenFree
    rw [h4.holder, h4.waiting, k6]
    exact fb
  case overdue => exact hdout
  case raised =>
    intro hw ht
    unfold alarmActive
    rw [hpoint]
    exact hcraised (hbosq.trans hw) (hlate.trans (hdout.symm.trans ht))
  case returned =>
    intro hw ht
    rw [hpoint]
    exact hcreturned (hbosq.trans hw) (hlate.trans (hdout.symm.trans ht))

/-! ### The reply leaves what the effects left -/

theorem queueReply_kept {m : InMsg} (hk : m.kind.toNat < 128) (x : PortState) :
    (queueReply m [[0x00]] 1 x).silent = x.silent ∧ (queueReply m [[0x00]] 1 x).stream = x.stream := by
  rw [queueReply_eq (parts := [[0x00]]) (k := 1) x hk (Nat.le_refl 1)]
  exact ⟨rfl, rfl⟩

theorem replied_kept {m : InMsg} (hk : m.kind.toNat < 128) (t : State) (p q : Port) :
    ((t.updPort p (queueReply m [[0x00]] 1)).ports.get q).silent = (t.ports.get q).silent ∧
    ((t.updPort p (queueReply m [[0x00]] 1)).ports.get q).stream = (t.ports.get q).stream := by
  by_cases hq : q = p
  · subst hq
    rw [State.updPort_get_same]
    exact queueReply_kept hk _
  · rw [State.updPort_get_ne _ _ hq]
    exact ⟨rfl, rfl⟩

theorem storedCommon_ports (s : State) (p : Port) (m : InMsg) (es : List (Nat × Nat)) (q : Port) :
    ((storedCommon s p m es).ports.get q).silent = (s.ports.get q).silent ∧
    ((storedCommon s p m es).ports.get q).silentTimer = (s.ports.get q).silentTimer := by
  show ((s.updPort p (takenPort m)).ports.get q).silent = _ ∧ ((s.updPort p (takenPort m)).ports.get q).silentTimer = _
  by_cases hq : q = p
  · subst hq
    rw [State.updPort_get_same]
    exact ⟨rfl, rfl⟩
  · rw [State.updPort_get_ne _ _ hq]
    exact ⟨rfl, rfl⟩

theorem timerOver_stored (s : State) (p : Port) (m : InMsg) (es : List (Nat × Nat)) (q : Port) :
    timerOver (storedCommon s p m es) q = true ↔
      (writeEntries s.rbs.common es).silentTime ≠ 0 ∧ (s.ports.get q).silent = false ∧
      (writeEntries s.rbs.common es).silentTime * 2000 ≤ (s.ports.get q).silentTimer := by
  obtain ⟨h1, h2⟩ := storedCommon_ports s p m es q
  simp only [timerOver, h1, h2]
  show (!(s.ports.get q).silent && (writeEntries s.rbs.common es).silentTime != 0 &&
    decide ((writeEntries s.rbs.common es).silentTime * 2000 ≤ (s.ports.get q).silentTimer)) = true ↔ _
  simp only [Bool.and_eq_true, Bool.not_eq_true', bne_iff_ne, ne_eq, decide_eq_true_eq]
  tauto

/-! ### Levels, the crawl speed and the lines alone -/

/-- A write of levels and the ceiling alone: the table is settled anew, or nothing has changed (R173). -/
theorem effects_levels {s w : State} {es : List (Nat × Nat)} (h : ∀ e ∈ es, 10 ≤ e.1 ∧ e.1 ≤ 40)
    (hc : w.rbs.common = writeEntries s.rbs.common es) (hl : isOverdue w = w.osq.overdue) :
    linesEffect s.rbs.common s.msm.state (overdueEffect (silenceEffect ((es.map Prod.fst).contains 41)
      (levelEffect s.rbs.common (crawlEffect s.rbs.common w)))) = levelEffect s.rbs.common w := by
  have hf := writeEntries_keeps (fun b => (b.crawl, b.lineEnable, b.lineLow)) s.rbs.common fun e he b => by
    obtain ⟨h1, h2⟩ := h e he
    have k := setCommonField_level h1 h2 b e.2
    exact congrArg (fun f : EffectFields => (f.crawl, f.enable, f.low)) k
  rw [← hc] at hf
  have h1 := stirred_levelEffect s.rbs.common w
  rw [crawlEffect_same (congrArg Prod.fst hf :), unnamed_silentTime fun e he => by have := h e he; omega]
  show linesEffect s.rbs.common s.msm.state (overdueEffect (levelEffect s.rbs.common w)) = _
  rw [overdueEffect_same (h1.late.trans (hl.trans h1.overdue.symm))]
  refine linesEffect_same _ ?_ ?_
  · rw [h1.common]; exact (congrArg (fun x => x.2.1) hf :)
  · rw [h1.common]; exact (congrArg (fun x => x.2.2) hf :)

/-- A write of the crawl speed alone: the comparison of R144 is its one effect. -/
theorem effects_crawl {s w : State} {es : List (Nat × Nat)} (h : ∀ e ∈ es, e.1 ∈ [5])
    (hc : w.rbs.common = writeEntries s.rbs.common es) (hl : isOverdue w = w.osq.overdue) :
    linesEffect s.rbs.common s.msm.state (overdueEffect (silenceEffect ((es.map Prod.fst).contains 41)
      (levelEffect s.rbs.common (crawlEffect s.rbs.common w)))) = crawlEffect s.rbs.common w := by
  have hf := writeEntries_keeps (fun b => (b.levels, b.ceiling, b.lineEnable, b.lineLow)) s.rbs.common fun e he b => by
    rw [List.mem_singleton.1 (h e he)]
    rfl
  rw [← hc] at hf
  have h1 := stirred_crawlEffect s.rbs.common w
  rw [levelEffect_same (by rw [h1.common]; exact (congrArg Prod.fst hf :))
    (by rw [h1.common]; exact (congrArg (fun x => x.2.1) hf :)),
    unnamed_silentTime fun e he => by rw [List.mem_singleton.1 (h e he)]; decide]
  show linesEffect s.rbs.common s.msm.state (overdueEffect (crawlEffect s.rbs.common w)) = _
  rw [overdueEffect_same (h1.late.trans (hl.trans h1.overdue.symm))]
  refine linesEffect_same _ ?_ ?_
  · rw [h1.common]; exact (congrArg (fun x => x.2.2.1) hf :)
  · rw [h1.common]; exact (congrArg (fun x => x.2.2.2) hf :)

/-- A write of enables and polarities alone: the readings are its one effect. -/
theorem effects_lines {s w : State} {es : List (Nat × Nat)} (h : ∀ e ∈ es, e.1 ∈ [43, 44, 45, 46, 47, 48, 49, 50])
    (hc : w.rbs.common = writeEntries s.rbs.common es) (hl : isOverdue w = w.osq.overdue) :
    linesEffect s.rbs.common s.msm.state (overdueEffect (silenceEffect ((es.map Prod.fst).contains 41)
      (levelEffect s.rbs.common (crawlEffect s.rbs.common w)))) = linesEffect s.rbs.common s.msm.state w := by
  have hf := writeEntries_keeps (fun b => (b.crawl, b.levels, b.ceiling)) s.rbs.common fun e he b =>
    congrArg (fun f : EffectFields => (f.crawl, f.levels, f.ceiling)) (setCommonField_line (h e he) b e.2)
  rw [← hc] at hf
  rw [crawlEffect_same (congrArg Prod.fst hf :), levelEffect_same (congrArg (fun x => x.2.1) hf :)
    (congrArg (fun x => x.2.2) hf :), unnamed_silentTime fun e he e41 => by have := h e he; rw [e41] at this; exact absurd this (by decide)]
  show linesEffect s.rbs.common s.msm.state (overdueEffect w) = _
  rw [overdueEffect_same hl]

/-- Whether a standardization is overdue is read from the sequencer and the overdue time. -/
theorem isOverdue_stored {s : State} {p : Port} {m : InMsg} {es : List (Nat × Nat)}
    (h : ∀ e ∈ es, ∀ b : CommonBank, (setCommonField b e.1 e.2).overdueTime = b.overdueTime) :
    isOverdue (storedCommon s p m es) = isOverdue s := by
  show (s.osq.due && decide (60 * (writeEntries s.rbs.common es).overdueTime < dueSeconds s.osq)) = _
  rw [writeEntries_keeps CommonBank.overdueTime s.rbs.common h] <;> rfl

/-- R144, R153: BREAK stays active when the line condition takes the machine on to THREAD. -/
theorem compareSpeed_wakes_break {s : State} (cause : StateCause) (o : OverrideOrder) (hd : s.msm.state = .down)
    (h : s.rbs.common.crawl ≤ s.msm.speed) :
    ((compareSpeed cause o s).alt.points[ptBreak]).state = .activeUnack ∧
    (compareSpeed cause o s).msm.state = if lineCondition s.rbs.common s.msm then .thread else .brk := by
  obtain ⟨hbrk, hthread⟩ := compareSpeed_wakes cause o hd h
  obtain ⟨hmsm, hstate, _⟩ := changeState_brk_left cause o s
  cases hc : lineCondition s.rbs.common s.msm with
  | false =>
    obtain ⟨h1, h2, _⟩ := hbrk hc
    exact ⟨h2, by rw [h1] <;> rfl⟩
  | true =>
    refine ⟨?_, (hthread hc).1⟩
    rw [compareSpeed_runs cause o hd h, testLines]
    split
    · rw [changeState_thread]
      refine ((quiet_clearMsmSource _).state ptBreak (by decide)).trans ?_
      rw [stateNotice_alt]
      exact hstate
    · exact hstate

end Sys2Proof.Machine
end

section
/-! PROOFS. WRITE COMMON settled (R78 … R80). -/

namespace Sys2Proof.Machine

open Safety

/-- R143, R150: what a changed enable or polarity does, by the machine state and the readings. -/
theorem linesEffect_cases {old : CommonBank} {w : State} :
    let changed := w.rbs.common.lineEnable ≠ old.lineEnable ∨ w.rbs.common.lineLow ≠ old.lineLow
    let present := w.msm.state = .brk ∧ changed ∧ lineCondition w.rbs.common w.msm = true
    ((w.msm.state = .down ∨ ((∀ l, ¬ TurnedAbsent old w l) ∧ ¬present)) → linesEffect old w.msm.state w = w) ∧
    (∀ l, (w.msm.state = .run ∨ w.msm.state = .thread) → TurnedAbsent old w l → (∀ k, TurnedAbsent old w k → k = l) →
      linesEffect old w.msm.state w = takeCause (.line l) w.cmu.position w.hbc.cycle (.line l) .overrideFirst w) ∧
    ((∀ l, ¬ TurnedAbsent old w l) → present → linesEffect old w.msm.state w = testLines w) := by
  intro changed present
  have hdiff : changed → linesEffect old w.msm.state w = (let v := allLines.foldl (lineEffect old) w
      if w.msm.state = .brk ∧ v.msm.state = .brk then testLines v else v) := fun hc =>
    if_neg fun ⟨e1, e2⟩ => hc.elim (· e1) (· e2)
  refine ⟨fun h => ?_, fun l hs hl hone => ?_, fun hnone hp => ?_⟩
  · by_cases hc : changed
    · have hfold : allLines.foldl (lineEffect old) w = w := by
        rcases h with h | h
        · exact foldl_lineEffect_down h _
        · exact foldl_lineEffect_none fun l _ => h.1 l
      rw [hdiff hc]
      dsimp only
      rw [hfold]
      split
      · next hb =>
        refine if_neg fun k => ?_
        rcases h with h | h
        · exact nomatch h.symm.trans hb.1
        · exact h.2 ⟨hb.1, hc, k⟩
      · rfl
    · obtain ⟨e1, e2⟩ := not_or.1 hc
      exact linesEffect_same _ (not_not.1 e1) (not_not.1 e2)
  · have hc : changed := by
      by_contra hc
      obtain ⟨e1, e2⟩ := not_or.1 hc
      refine hl.2 ?_
      rw [← hl.1]
      simp only [lineReading, not_not.1 e1, not_not.1 e2]
    rw [hdiff hc]
    dsimp only
    rw [foldl_lineEffect_one hs hl hone]
    refine if_neg fun k => ?_
    rcases hs with hs | hs <;> exact nomatch hs.symm.trans k.1
  · obtain ⟨hb, hc, _⟩ := hp
    rw [hdiff hc]
    dsimp only
    rw [foldl_lineEffect_none fun l _ => hnone l]
    exact if_pos ⟨hb, hb⟩

/-- What the settled table leaves of a write of levels and the ceiling (R173). -/
theorem levelEffect_leaves (old : CommonBank) (w : State) : let t := levelEffect old w
    t = w.withAlarms t.alarms ∧
    (∀ i : PointNo, (t.alt.points[i]).state = (w.alt.points[i]).state ∧
      (t.alt.points[i]).suppressed = (w.alt.points[i]).suppressed ∧ (t.alt.points[i]).count = (w.alt.points[i]).count ∧
      ((w.alt.points[i]).annunciated = true → (t.alt.points[i]).annunciated = true)) ∧
    ((w.rbs.common.levels ≠ old.levels ∨ w.rbs.common.ceiling ≠ old.ceiling) → floorOk t ∧
      ∀ i ∈ w.alt.order, (t.alt.points[i]).state = .activeUnack → (t.alt.points[i]).annunciated = false →
        (t.alt.points[i]).suppressed = false → levelOf w.rbs.common.levels i ≤ 6 →
        t.alt.floor ≤ levelOf w.rbs.common.levels i) := by
  intro t
  by_cases hc : w.rbs.common.levels = old.levels ∧ w.rbs.common.ceiling = old.ceiling
  · have e : t = w := if_pos hc
    rw [e]
    exact ⟨rfl, fun i => ⟨rfl, rfl, rfl, id⟩, fun h => absurd h (by rw [hc.1, hc.2]; simp)⟩
  · have e : t = w.relevel := if_neg hc
    have hp := settleAlarms_passed w.alarmCtx w.alarms
    rw [e]
    exact ⟨rfl, fun i => ⟨hp.state i, hp.suppressed i, hp.count i, hp.kept i⟩, fun _ => ⟨floorOk_relevel w, fun i hi =>
      settleAlarms_level w.alarmCtx w.alarms hi⟩⟩

/-- Settles O43: the checks in their order; then every accepted write by the state with the bank stored and the relation each
effect keeps, and the groups of fields by the one effect each has. -/
theorem commonBankIsWritten : Obligations.CommonBankIsWritten := by
  unfold Obligations.CommonBankIsWritten
  intro s p m es hwaits hk hp hholder hn hbytes hpl atRest b ok
  obtain ⟨hlen, hentries⟩ := writeCommon_payload hn hbytes hpl
  have row : Row s p m 1 (ofKind 10) := Row.of_kind hwaits hk hlen (by cases p; rfl; rfl; exact absurd rfl hp)
  have hw : WriteRow s p m es := ⟨row, hentries, hholder⟩
  have hrest : restForWrite s.cmu.state = true ↔ atRest := restForWrite_iff _
  have hok : fieldsOk (s.updPort p (takenPort m)) es = true ↔ ok := fieldsOk_iff (s.updPort p (takenPort m)) es
  refine ⟨fun hr => hw.refused_state (mt hrest.1 hr), fun hr hf => hw.refused_field (hrest.2 hr) (mt hok.1 hf), fun hr hf => ?_⟩
  have hr' := hrest.2 hr
  have hf' := hok.2 hf
  obtain ⟨w, hweq⟩ : ∃ w, storedCommon s p m es = w := ⟨_, rfl⟩
  have hc : w.rbs.common = b := by rw [← hweq] <;> rfl
  refine ⟨?_, fun hlate => ?_⟩
  · obtain ⟨t, ht⟩ : ∃ t, (linesEffect s.rbs.common s.msm.state (overdueEffect (silenceEffect ((es.map Prod.fst).contains 41)
      (levelEffect s.rbs.common (crawlEffect s.rbs.common (storedCommon s p m es)))))).settleDrive = t := ⟨_, rfl⟩
    obtain ⟨hexec, hreply⟩ := hw.accepted hr' hf' ht
    have h : Written ((es.map Prod.fst).contains 41) (storedCommon s p m es) t := ht ▸ effects_written ..
    refine ⟨_, hexec, hreply, h.common, h.banks, h.hbc, h.scv, h.position, h.slots, ?_, h.overdue, h.raised, h.returned⟩
    intro q ps timedOut
    obtain ⟨k1, k2⟩ := replied_kept row.kind t p q
    have hover : timedOut ↔ (es.map Prod.fst).contains 41 = true ∧ timerOver (storedCommon s p m es) q = true := by
      rw [timerOver_stored]
      exact and_congr_left' List.contains_iff_mem.symm
    refine ⟨fun hno => ?_, fun hyes => ?_⟩
    · exact (k1.trans (h.kept q (mt hover.2 hno))).trans (storedCommon_ports s p m es q).1
    · obtain ⟨⟨g1, g2, g3, g4, g5, g6⟩, hfree⟩ := h.gone q (hover.1 hyes).1 (hover.1 hyes).2
      refine ⟨k1.trans g1, k2.trans g2, g5, hfree, g6, fun hq => ?_⟩
      rw [State.updPort_get_ne _ _ hq]
      exact ⟨g3, g4⟩
  · intro only stored st
    have hover : (∀ e ∈ es, ∀ b : CommonBank, (setCommonField b e.1 e.2).overdueTime = b.overdueTime) →
        isOverdue w = w.osq.overdue := fun h => by
      have e : isOverdue w = isOverdue s := hweq ▸ isOverdue_stored h
      rw [e, hlate, ← hweq] <;> rfl
    have accepted := fun (t : State) => hw.accepted (t := t) hr' hf'
    have storedAlone := fun hd => hw.stored hr' hf' hd
    rw [hweq] at accepted storedAlone
    have hstate : w.msm = s.msm := by rw [← hweq] <;> rfl
    refine ⟨fun hd honly => ?_, fun hlevels hd => ?_, fun honly => ?_, fun honly => ?_⟩
    · have hquiet := writeEntries_keeps effectFields s.rbs.common fun e he b => setCommonField_quiet (honly e he) b e.2
      have h41 : ∀ e ∈ es, e.1 ≠ 41 := fun e he e41 => absurd (e41 ▸ honly e he) (by decide)
      exact storedAlone hd (hweq ▸ effects_none hquiet h41 hlate)
    · have hl := hover fun e he b => by
        obtain ⟨h1, h2⟩ := hlevels e he
        exact congrArg EffectFields.overdueTime (setCommonField_level h1 h2 b e.2)
      obtain ⟨heq, hpoints, hfloor⟩ := levelEffect_leaves s.rbs.common w
      obtain ⟨v, hv⟩ : ∃ v, levelEffect s.rbs.common w = v := ⟨_, rfl⟩
      rw [hv] at heq hpoints hfloor
      have hvd : v.settleDrive = v := State.settleDrive_of_settled (by
        rw [heq, ← hweq]; exact hd)
      obtain ⟨hexec, _⟩ := accepted v (by rw [effects_levels hlevels hc hl, hv, hvd])
      have hvb : v.cmu = s.cmu ∧ v.msm = s.msm ∧ v.osq = s.osq := by rw [heq, ← hweq]; exact ⟨rfl, rfl, rfl⟩
      have halt : w.alt = s.alt := by rw [← hweq] <;> rfl
      rw [halt] at hpoints hfloor
      rw [hc] at hfloor
      exact ⟨_, hexec, hvb.1, hvb.2.1, hvb.2.2, hpoints, fun hch => ⟨floorOk_congr rfl rfl rfl (hfloor hch).1, (hfloor hch).2⟩⟩
    · have hl := hover fun e he b => by
        rw [List.mem_singleton.1 (honly e he)] <;> rfl
      have heff := effects_crawl honly hc hl
      intro below
      have hbelow : w.msm.speed < w.rbs.common.crawl ↔ below := by rw [hc, hstate]
      refine ⟨fun h hd => storedAlone hd (heff.trans ?_), fun hch hst hb => ?_, fun hch hst hb => ?_⟩
      · by_cases e : b.crawl = s.rbs.common.crawl
        · exact crawlEffect_same (by rw [hc]; exact e)
        · refine (if_neg (by rw [hc]; exact e)).trans (compareSpeed_stays _ _ ?_)
          rw [hbelow, hstate]
          exact h.resolve_left e
      · obtain ⟨hexec, _⟩ := accepted _ rfl
        have e : crawlEffect s.rbs.common w = changeState .down .crawlChange .overrideFirst w :=
          (if_neg (by rw [hc]; exact hch)).trans (compareSpeed_slow _ _ (by rw [hstate]; exact hst) (hbelow.2 hb))
        obtain ⟨hmsm, hbreak, _⟩ := changeState_down_left .crawlChange .overrideFirst w
        rw [heff, e] at hexec
        refine ⟨_, hexec, (congrArg Msm.state hmsm :), (congrArg Msm.source hmsm :), ?_, hbreak⟩
        exact (congrArg Msm.log hmsm :).trans (by rw [← hstate])
      · obtain ⟨hexec, _⟩ := accepted _ rfl
        have e : crawlEffect s.rbs.common w = compareSpeed .crawlChange .overrideFirst w :=
          if_neg (by rw [hc]; exact hch)
        obtain ⟨hbreak, hnext⟩ := compareSpeed_wakes_break .crawlChange .overrideFirst (s := w) (by rw [hstate]; exact hst)
          (Nat.le_of_not_lt (mt hbelow.1 hb))
        rw [heff, e] at hexec
        rw [hc, hstate] at hnext
        exact ⟨_, hexec, hbreak, hnext⟩
    · have hl := hover fun e he b => congrArg EffectFields.overdueTime (setCommonField_line (honly e he) b e.2)
      have heff := effects_lines honly hc hl
      obtain ⟨hsame, hone, hpresent⟩ := linesEffect_cases (old := s.rbs.common) (w := w)
      unfold TurnedAbsent at hsame hone hpresent
      rw [hc, hstate] at hsame hone hpresent
      intro turned changed present
      refine ⟨fun h hd => storedAlone hd (heff.trans (hsame h)), fun l hst hl hk => ?_, fun hnone hp => ?_⟩
      · have hst' : w.msm.state = .run ∨ w.msm.state = .thread := by
          rw [hstate]; simpa using hst
        obtain ⟨hexec, _⟩ := accepted _ rfl
        rw [heff, hone l (hstate ▸ hst') hl hk] at hexec
        have hbroke := (takeCause_enters (.line l) w.cmu.position w.hbc.cycle (.line l) .overrideFirst hst').1
        refine ⟨_, hexec, ?_⟩
        have hws : w.cmu = s.cmu ∧ w.hbc = s.hbc := by rw [← hweq]; exact ⟨rfl, rfl⟩
        obtain ⟨k1, k2, k3, k4, k5, k6, k7, k8, k9⟩ := hbroke
        rw [hstate] at k4 k5 k6
        have hpen : w.pen.counter = s.pen.counter := by rw [← hweq] <;> rfl
        have halt : w.alt = s.alt := by rw [← hweq] <;> rfl
        rw [hpen] at k4
        rw [halt] at k9
        rw [hws.1, hws.2] at *
        exact ⟨k1, k2, k3, k4, k5, k6, k7, k8, k9⟩
      · obtain ⟨hexec, _⟩ := accepted _ rfl
        rw [heff, hpresent hnone hp] at hexec
        obtain ⟨h1, h2, _, h4, _⟩ := testLines_left (s := w) (by rw [hc, hstate]; exact hp.2.2)
        exact ⟨_, hexec, h1, h2, h4.trans (by rw [hstate])⟩

end Sys2Proof.Machine
end

section
/-! PROOFS. The forms and encodings of a chunk (R201, R202), the push reports (R205, R206), and the sending of messages and chunks
(R188, R201, R203). -/

namespace Sys2Proof.Machine

open Safety

/-! ### The values of a chunk (R202) -/

theorem formValue_bin (g : Generation) (q : Prop4) {i : Nat} {b : BinOut} (h : (g.bins.get q)[i]? = some b) :
    formValue g q .raw i = b.value.map (fun v => (v : Int)) ∧
    formValue g q .deviation i = match b.value, (g.stats.get q).avg with
      | some v, some a => some ((v : Int) - a)
      | _, _ => none := by
  simp only [formValue, h, Option.bind_some]
  refine ⟨trivial, ?_⟩
  cases b.value <;> cases (g.stats.get q).avg <;> rfl

theorem statusBytes_bin (g : Generation) (q : Prop4) {i : Nat} {b : BinOut} (h : (g.bins.get q)[i]? = some b) :
    statusBytes g q i = [BitVec.ofNat 8 ((match b.status with | .valid => 0 | .held => 1 | .invalid => 2) +
      if ((g.filter.map (fun c => c.get q)).bind (fun c => (c.bins[i]?).join)).isSome then 16 else 0),
      BitVec.ofNat 8 (min b.clamp 255)] := by
  simp only [statusBytes, h, Option.getD_some, bytesBE_one, List.singleton_append]
  cases b.status <;> rfl

theorem formValue_filtered (g : Generation) (q : Prop4) {i : Nat} {c : FilterCopy} {x : Option Nat}
    (hc : g.filter.map (fun c => c.get q) = some c) (hx : c.bins[i]? = some x) :
    formValue g q .filtered i = x.map (fun v : Nat => (v : Int)) ∧
    formValue g q .filteredDeviation i = x.bind (fun v => c.avg.map (fun a => (v : Int) - a)) := by
  simp only [formValue, hc, Option.bind_some, hx, id]
  exact ⟨by cases x <;> rfl, trivial⟩

theorem formValue_unfiltered (g : Generation) (q : Prop4) (h : g.filter.map (fun c => c.get q) = none) (i : Nat) :
    formValue g q .filtered i = none ∧ formValue g q .filteredDeviation i = none := by
  simp only [formValue, h]
  exact ⟨rfl, rfl⟩

/-- The AVERAGE ABSENT flag of a chunk. -/
theorem averageAbsent_iff (g : Generation) (q : Prop4) (f : Form) : averageAbsent g q f = true ↔
    (f = .deviation ∧ (g.stats.get q).avg = none) ∨
    (f = .filteredDeviation ∧ (g.filter.map (fun c => c.get q)).bind FilterCopy.avg = none) := by
  cases f <;> simp [averageAbsent]

theorem chunkPayload_eq (g : Generation) (q : Prop4) (f : Form) (e : Encoding) (shift first n : Nat) (last : Bool) :
    chunkPayload g q f e shift first n last = bytesBE 4 g.scan.toNat ++
      [BitVec.ofNat 8 (propCode q * 8 + formCode f), BitVec.ofNat 8 (if f = .status then 0 else encCode e * 8 + shift)] ++
      bytesBE 2 first ++ [BitVec.ofNat 8 n, BitVec.ofNat 8 ((if last then 1 else 0) +
        (if (g.stats.get q).frozen then 4 else 0) + (if (g.stats.get q).poor then 8 else 0) +
        (if averageAbsent g q f = true then 16 else 0))] ++
      (List.range n).flatMap (fun i => if f = .status then statusBytes g q (first + i)
        else encodeValue f e shift (formValue g q f (first + i))) := by
  simp only [chunkPayload, bytesBE_one, List.range'_eq_map_range, List.flatMap_map, List.append_assoc, List.cons_append,
    List.nil_append, flagVal]

/-! ### The encodings (R202) -/

theorem clampInt_within {lo hi x : Int} (h1 : lo ≤ x) (h2 : x ≤ hi) : clampInt lo hi x = x := by
  rw [clampInt, min_eq_right h2, max_eq_right h1]

/-- A number that fits its bytes needs no complement. -/
theorem intBE_nat {k v : Nat} (h : v < 256 ^ k) : intBE k (v : Int) = bytesBE k v := by
  have e : ((v : Int) % 256 ^ k).toNat = v := by
    have : ((v : Int) % ((256 ^ k : Nat) : Int)).toNat = v := by
      rw [← Int.natCast_mod, Int.toNat_natCast, Nat.mod_eq_of_lt h]
    simpa using this
  rw [intBE, e]

theorem intBE_one (x : Int) : intBE 1 x = [BitVec.ofInt 8 x] := by
  rw [intBE, bytesBE_one]
  refine congrArg (fun b => [b]) (BitVec.eq_of_toNat_eq ?_)
  rw [BitVec.toNat_ofNat, BitVec.toNat_ofInt]
  omega

/-- RAW and FILTERED values. -/
theorem encodeValue_plain {f : Form} (hf : isDeviation f = false) (shift : Nat) :
    encodeValue f .wide shift none = [0xFF, 0xFF, 0xFF, 0xFF] ∧ encodeValue f .narrow shift none = [0xFF, 0xFF] ∧
    encodeValue f .coarse shift none = [0xFF] ∧
    ∀ v : Nat, v ≤ 65535 → encodeValue f .wide shift (some (v : Int)) = bytesBE 4 v ∧
      encodeValue f .narrow shift (some (v : Int)) = bytesBE 2 v ∧
      encodeValue f .coarse shift (some (v : Int)) = [BitVec.ofNat 8 (min 255 (v / 2 ^ shift))] := by
  simp only [encodeValue, hf, Option.elim_none, Option.elim_some]
  refine ⟨by decide, by decide, by decide, fun v hv => ⟨intBE_nat (by omega), intBE_nat (by omega), ?_⟩⟩
  have e : clampInt 0 255 ((v : Int) / 2 ^ shift) = ((min 255 (v / 2 ^ shift) : Nat) : Int) := by
    have hq : (v : Int) / 2 ^ shift = ((v / 2 ^ shift : Nat) : Int) := by push_cast; rfl
    rw [hq, clampInt]
    generalize v / 2 ^ shift = k
    omega
  rw [e, intBE_nat (by omega), bytesBE_one]

/-- The deviations. -/
theorem encodeValue_deviation {f : Form} (hf : isDeviation f = true) (shift : Nat) :
    encodeValue f .wide shift none = [0x80, 0, 0, 0] ∧ encodeValue f .narrow shift none = [0x80, 0] ∧
    encodeValue f .coarse shift none = [0x80] ∧
    ∀ v : Int, encodeValue f .wide shift (some v) = bytesBE 4 (v % 2 ^ 32).toNat ∧
      encodeValue f .narrow shift (some v) = bytesBE 2 (max (-32768) (min 32767 v) % 2 ^ 16).toNat ∧
      encodeValue f .coarse shift (some v) = [BitVec.ofInt 8 (max (-128) (min 127 (v / 2 ^ shift)))] := by
  simp only [encodeValue, hf, Option.elim_none, Option.elim_some]
  exact ⟨by decide, by decide, by decide, fun v => ⟨rfl, rfl, intBE_one _⟩⟩

/-! ### What a queue admits (R196, R205) -/

theorem admitsChunk_iff (x : PortState) : x.admitsChunk = true ↔ x.outbound.length + x.reserved ≤ 30 := by
  rw [PortState.admitsChunk, decide_eq_true_eq]
  show 2 ≤ 32 - (x.outbound.length + x.reserved) ↔ _
  omega

theorem admitsPush_iff (x : PortState) : x.admitsPush = true ↔
    x.outbound.length + x.reserved ≤ 24 ∧ x.outbound.countP (fun m => m.cls == .push) < 24 := by
  rw [PortState.admitsPush, Bool.and_eq_true, decide_eq_true_eq, decide_eq_true_eq]
  exact Iff.rfl

/-! ### The push reports of a publication (R205, R206) -/

theorem servePort_silent {g : Generation} {a : Azm} {x : PortState} (h : x.silent = true) : servePort g a x = x := if_pos h

theorem servePort_active {g : Generation} {a : Azm} {x : PortState} (h : x.silent = false) : servePort g a x =
    serveDescriptor g a (serveDescriptor g a (serveDescriptor g a (serveDescriptor g a x 0) 1) 2) 3 :=
  if_neg (by rw [h]; decide)

/-- The report of a descriptor, as a message. -/
def reportMessage (g : Generation) (a : Azm) (i : Fin 4) (d : Descriptor) : OutMsg :=
  ⟨.push, (reportOf g a d).1, 0, [BitVec.ofNat 8 i.val, BitVec.ofNat 8 d.missed] ++ (reportOf g a d).2⟩

section
variable {g : Generation} {a : Azm} {x : PortState} {i : Fin 4}

theorem serveDescriptor_inactive (h : (x.descriptors[i]).active = false) : serveDescriptor g a x i = x := by
  unfold serveDescriptor
  exact if_pos (by rw [h]; rfl)

theorem serveDescriptor_missed (h : (x.descriptors[i]).active = true) (ha : ¬ x.admitsPush = true) :
    serveDescriptor g a x i = { x with
      descriptors := x.descriptors.set i { x.descriptors[i] with missed := min 255 ((x.descriptors[i]).missed + 1) } } := by
  unfold serveDescriptor
  exact (if_neg (by rw [h]; decide)).trans (if_neg ha)

theorem serveDescriptor_sent (h : (x.descriptors[i]).active = true) (ha : x.admitsPush = true)
    (hr : (x.descriptors[i]).remaining ≠ 1) : serveDescriptor g a x i = { x with
      outbound := x.outbound ++ [reportMessage g a i x.descriptors[i]]
      descriptors := x.descriptors.set i { x.descriptors[i] with missed := 0, remaining := (x.descriptors[i]).remaining - 1 } } := by
  unfold serveDescriptor
  refine (if_neg (by rw [h]; decide)).trans ((if_pos ha).trans ?_)
  generalize x.descriptors[i] = d at h hr
  obtain ⟨active, form, prop, pform, enc, shift, first, last, remaining, missed⟩ := d
  subst h
  have hne : (remaining == 1) = false := by simpa using hr
  simp [hne, reportMessage, bytesBE_one]

theorem serveDescriptor_ended (h : (x.descriptors[i]).active = true) (ha : x.admitsPush = true)
    (hr : (x.descriptors[i]).remaining = 1) (hs : x.silent = false) : serveDescriptor g a x i = { x with
      outbound := x.outbound ++ [reportMessage g a i x.descriptors[i], ⟨.notice, kEnd, 0, [BitVec.ofNat 8 i.val]⟩]
      descriptors := x.descriptors.set i { x.descriptors[i] with missed := 0, remaining := 0, active := false } } := by
  have hocc := ((admitsPush_iff x).1 ha).1
  unfold serveDescriptor
  refine (if_neg (by rw [h]; decide)).trans ((if_pos ha).trans ?_)
  simp only [hr, beq_self_eq_true, if_true, bytesBE_one, PortState.notice, hs]
  rw [if_neg (by decide), if_pos]
  · simp [reportMessage, kEnd]
  · show 1 ≤ 32 - ((x.outbound ++ [_]).length + x.reserved)
    rw [List.length_append, List.length_singleton]
    omega

end

theorem reportMessage_eq (g : Generation) (a : Azm) (i : Fin 4) (d : Descriptor) :
    let bins := g.map.n.getD 0
    let count := if d.first < bins then min d.last (bins - 1) + 1 - d.first else 0
    let body : List Byte := match d.form with
      | .summary => summaryBody g
      | .zoneA => zoneBody g.scan .a a.a
      | .zoneB => zoneBody g.scan .b a.b
      | .profile => chunkPayload g d.prop d.pform d.enc d.shift d.first count true
    reportMessage g a i d = ⟨.push, match d.form with | .summary => 0x48 | .zoneA => 0x49 | .zoneB => 0x49 | .profile => 0x4A,
      0, [BitVec.ofNat 8 i.val, BitVec.ofNat 8 d.missed] ++ body⟩ := by
  intro bins count body
  unfold reportMessage reportOf
  cases hf : d.form <;> simp only [body, hf] <;> rfl

/-! ### Messages and chunks sent (R188, R201, R203) -/

theorem readChunk_full {s : State} {p : Port} (h : ¬ (s.ports.get p).admitsChunk = true) : readChunk p s = s := by
  unfold readChunk
  split
  · split
    · exact if_neg h
    · rfl
  · rfl
  · rfl

theorem supersededChunk_full {s : State} {p : Port} (h : ¬ (s.ports.get p).admitsChunk = true) : supersededChunk p s = s := by
  unfold supersededChunk
  split
  · exact if_neg h
  · rfl
  · rfl

theorem readChunk_running {s : State} {p : Port} {r : Stream} {g : Generation} (hr : (s.ports.get p).stream = .running r)
    (hg : heldScan s.pen r.scan = some g) (ha : (s.ports.get p).admitsChunk = true) : readChunk p s =
      if chunkLast r then unpin p (s.updPort p (afterChunk g r)) else s.updPort p (afterChunk g r) := by
  unfold readChunk
  simp only [hr, hg, if_pos ha]

/-- Settles O36: the codes, the values of each form, the encodings, the descriptors in turn, and the sending commands. -/
theorem portsSendAndStream : Obligations.PortsSendAndStream := by
  refine ⟨⟨fun q => by cases q <;> rfl, fun f => by cases f <;> rfl, fun e => by cases e <;> rfl⟩, fun g q => ?_,
    fun f shift => ?_, fun g azm ps => ?_, fun s p hs => ?_⟩
  · intro st copy
    refine ⟨fun i b hb => ?_, fun i c x hc hx => ?_, formValue_unfiltered g q, ?_⟩
    · obtain ⟨h1, h2⟩ := formValue_bin g q hb
      exact ⟨h1, h2, statusBytes_bin g q hb⟩
    · obtain ⟨h1, h2⟩ := formValue_filtered g q hc hx
      rw [h1, h2]
      cases x with
      | none => exact ⟨rfl, rfl⟩
      | some v => cases c.avg <;> exact ⟨rfl, rfl⟩
    · intro f e shift first n last noAverage flags
      have hflag : (if averageAbsent g q f = true then 16 else 0) = if noAverage then 16 else 0 :=
        if_congr (averageAbsent_iff g q f) rfl rfl
      rw [chunkPayload_eq, hflag]
  · refine ⟨fun hf => encodeValue_plain ?_ shift, fun hf => ?_⟩
    · revert hf
      cases f <;> decide
    · obtain ⟨h1, h2, h3, h4⟩ := encodeValue_deviation (f := f) (by revert hf; cases f <;> decide) shift
      exact ⟨h1, h2, h3, fun v _ _ => h4 v⟩
  · intro serve
    refine ⟨servePort_silent, servePort_active, fun i => ?_⟩
    intro d admits bins count body report
    have hadmits : admits ↔ ps.admitsPush = true := (admitsPush_iff ps).symm
    have hreport : reportMessage g azm i d = report := reportMessage_eq g azm i d
    refine ⟨serveDescriptor_inactive, fun h ha => serveDescriptor_missed h (mt hadmits.2 ha), fun h ha hr => ?_,
      fun h ha hr hsil => ?_⟩
    · rw [← hreport]
      exact serveDescriptor_sent h (hadmits.1 ha) hr
    · rw [← hreport]
      exact serveDescriptor_ended h (hadmits.1 ha) hr hsil
  · intro ps put
    refine ⟨?_, fun r g hr hin hscan hroom => ?_, fun r hr hroom => ?_, fun hfull => ?_⟩
    · rw [exec_released (f := messageSent p) rfl hs, messageSent, State.updPort_eq, List.drop_one] <;> rfl
    · intro n chunk
      have hg : heldScan s.pen r.scan = some g := hscan ▸ heldScan_of_inSlot hin
      have hexec : exec (.readChunk p) s = .next (readChunk p s) := exec_released (f := readChunk p) rfl hs
      rw [hexec, readChunk_running hr hg ((admitsChunk_iff _).2 hroom)]
      refine ⟨fun hmore => ?_, fun hlast => ?_⟩
      · have hl : chunkLast r = false := decide_eq_false (Nat.not_lt.2 hmore)
        rw [if_neg (by rw [hl]; decide), State.updPort_eq, afterChunk, chunkMessage, hl] <;> rfl
      · have hl : chunkLast r = true := decide_eq_true hlast
        rw [if_pos hl, State.updPort_eq, afterChunk, chunkMessage, hl] <;> rfl
    · have hexec : exec (.supersededChunk p) s = .next (supersededChunk p s) := exec_released (f := supersededChunk p) rfl hs
      have e : supersededChunk p s = s.updPort p (fun x => { x with outbound := x.outbound ++ [supersededMessage r], stream := .idle }) := by
        unfold supersededChunk
        simp only [show (s.ports.get p).stream = .ending r from hr]
        exact if_pos ((admitsChunk_iff _).2 hroom)
      rw [hexec, e, State.updPort_eq] <;> rfl
    · have hno : ¬ (s.ports.get p).admitsChunk = true := fun h => absurd ((admitsChunk_iff _).1 h) (Nat.not_le.2 hfull)
      rw [exec_released (f := readChunk p) rfl hs, exec_released (f := supersededChunk p) rfl hs, readChunk_full hno,
        supersededChunk_full hno]
      exact ⟨rfl, rfl⟩

end Sys2Proof.Machine
end

section
/-! PROOFS. A sequence that is abandoned (R40), the reports it makes (R37, R39), and the head a slot loses (R33). -/

namespace Sys2Proof.Machine

open Safety

/-! ### An abandoned sequence (R40) -/

/-- R40: the channels the abort finishes. -/
abbrev Waiting (e : SeqEntry) : Prop := e.phase = .doneSeen ∨ e.phase = .fetchWaiting

theorem abandonEntry_eq (e : SeqEntry) : abandonEntry e = if Waiting e then { e with phase := .finished } else e := by
  unfold abandonEntry Waiting
  cases h : e.phase <;> simp

theorem abandonReadies_iff (o : Option SeqEntry) : abandonReadies o = true ↔ ∃ e, o = some e ∧ Waiting e := by
  cases o <;> simp [abandonReadies, Waiting]

/-- The heads after the channels named are made READY. -/
theorem foldl_ready_chan (p : RefChan → Bool) (hs : PerChan Head) (k : RefChan) :
    (allRefChans.foldl (fun hs c => if p c then setHeadReady hs c.chan else hs) hs).get k.chan =
      if p k then { hs.get k.chan with state := .ready } else hs.get k.chan := by
  simp only [allRefChans, List.foldl_cons, List.foldl_nil]
  cases k <;> cases p .beta <;> cases p .irw <;> cases p .cal <;> rfl

theorem foldl_ready_rest (p : RefChan → Bool) (hs : PerChan Head) :
    (allRefChans.foldl (fun hs c => if p c then setHeadReady hs c.chan else hs) hs).edge = hs.edge ∧
    (allRefChans.foldl (fun hs c => if p c then setHeadReady hs c.chan else hs) hs).temp = hs.temp := by
  simp only [allRefChans, List.foldl_cons, List.foldl_nil]
  cases p .beta <;> cases p .irw <;> cases p .cal <;> exact ⟨rfl, rfl⟩

/-- The heads and the entries of an abandoned sequence. -/
def abandonedHeads (h : Hbc) (q : Sequence) : PerChan Head :=
  allRefChans.foldl (fun hs c => if abandonReadies (q.entries.get c) then setHeadReady hs c.chan else hs) h.heads

def abandonedSeq (q : Sequence) : Sequence := { q with abandoned := true, entries := q.entries.map (Option.map abandonEntry) }

theorem abandonSeq_of {h : Hbc} {q : Sequence} (hq : h.seq = some q) : abandonSeq h =
    { h with heads := abandonedHeads h q, seq := if (abandonedSeq q).ended then none else some (abandonedSeq q) } := by
  unfold abandonSeq
  rw [hq] <;> rfl

theorem ended_iff (q : Sequence) : q.ended = true ↔ ∀ k e, q.entries.get k = some e → e.phase = .finished := by
  rw [Sequence.ended, PerRef.all_iff]
  refine forall_congr' fun k => ?_
  cases q.entries.get k <;> simp [entryFinished]

theorem abandoned_get (q : Sequence) (k : RefChan) : (abandonedSeq q).entries.get k =
    (q.entries.get k).map (fun e => if Waiting e then { e with phase := .finished } else e) := by
  rw [abandonedSeq, PerRef.get_map, show abandonEntry = _ from funext abandonEntry_eq]

/-! ### The reports (R37, R39) -/

theorem reportPhase_stays {s : State} {q : Sequence} (hq : s.hbc.seq = some q)
    (h : q.abandoned = true ∨ q.reported = true ∨ q.entries.all phaseOver = false) : reportPhase s = s := by
  unfold reportPhase
  rw [hq]
  refine if_neg fun k => ?_
  simp only [Bool.and_eq_true, Bool.not_eq_true'] at k
  obtain ⟨⟨k1, k2⟩, k3⟩ := k
  rcases h with h | h | h
  · exact absurd (k1.symm.trans h) (by decide)
  · exact absurd (k2.symm.trans h) (by decide)
  · exact absurd (k3.symm.trans h) (by decide)

theorem endSequence_stays {s : State} {q : Sequence} (hq : s.hbc.seq = some q) (h : q.ended = false) : endSequence s = s := by
  unfold endSequence
  rw [hq]
  exact if_neg (by rw [h]; decide)

theorem reports_stay {s : State} {q : Sequence} (hq : s.hbc.seq = some q)
    (h : q.abandoned = true ∨ q.reported = true ∨ q.entries.all phaseOver = false) (he : q.ended = false) : reports s = s := by
  rw [reports, reportPhase_stays hq h, endSequence_stays hq he]

theorem endSequence_abandoned {s : State} {q : Sequence} (hq : s.hbc.seq = some q) (ha : q.abandoned = true) (he : q.ended = true) :
    endSequence s = s.withHbc { s.hbc with seq := none } := by
  unfold endSequence
  rw [hq]
  exact (if_pos he).trans (if_pos ha)

theorem endSequence_done {s : State} {q : Sequence} (hq : s.hbc.seq = some q) (ha : q.abandoned = false) (he : q.ended = true) :
    endSequence s = headStepsDone (s.withHbc { s.hbc with seq := none }) := by
  unfold endSequence
  rw [hq]
  exact (if_pos he).trans (if_neg (by rw [ha]; decide))

/-- The reports leave HEAD ABSENT of every channel as it stands. -/
theorem reports_absentPoint (s : State) (ch : Channel) :
    ((reports s).alt.points[ptHeadAbsent ch]).state = (s.alt.points[ptHeadAbsent ch]).state := by
  have hphase : (reportPhase s).alt = s.alt := by
    unfold reportPhase
    split
    · rfl
    split
    · split
      · unfold takeReport
        dsimp only
        split <;> rfl
      · rfl
    · rfl
  have hdone : ∀ u : State, ((headStepsDone u).alt.points[ptHeadAbsent ch]).state = (u.alt.points[ptHeadAbsent ch]).state := fun u => by
    unfold headStepsDone
    split
    · have hm := (motion_applyPendingPlan ((commit u).withOsq { (commit u).osq with step := .idle })).trans (motion_nextMove _)
      refine (hm.points _ (ptHeadAbsent_not_limit ch)).trans ?_
      show ((commit u).alt.points[ptHeadAbsent ch]).state = _
      rw [(commit_blocks u).1, (committedState_points u).2 _ (ptHeadAbsent_ne_ptOverdue ch)]
      exact commitChannels_points allRefChans u (ptHeadAbsent_ne_ptStdDrift ch)
    · rfl
  have hend : ∀ u : State, ((endSequence u).alt.points[ptHeadAbsent ch]).state = (u.alt.points[ptHeadAbsent ch]).state := fun u => by
    unfold endSequence
    split
    · rfl
    split
    · dsimp only
      split
      · rfl
      · exact hdone _
    · rfl
  rw [reports, hend, hphase]

/-- A FINISHED channel stays so through the reports, with its outcome. -/
theorem reports_finished {s : State} {q : Sequence} {k : RefChan} {e : SeqEntry} (hq : s.hbc.seq = some q)
    (he : q.entries.get k = some e) (hf : e.phase = .finished) {q' : Sequence} (hq' : (reports s).hbc.seq = some q') :
    ∃ e', q'.entries.get k = some e' ∧ e'.phase = .finished ∧ e'.outcome = e.outcome := by
  have hphase : ∀ q1, (reportPhase s).hbc.seq = some q1 →
      ∃ e', q1.entries.get k = some e' ∧ e'.phase = .finished ∧ e'.outcome = e.outcome := by
    intro q1 h1
    unfold reportPhase at h1
    rw [hq] at h1
    dsimp only at h1
    split at h1
    · split at h1
      · have hseq : (takeReport q s).hbc.seq = some { q with reported := true, entries := q.entries.map (Option.map askDone) } := by
          unfold takeReport
          dsimp only
          split <;> rfl
        obtain rfl := Option.some.inj (hseq.symm.trans h1)
        exact ⟨askDone e, by rw [PerRef.get_map, he] <;> rfl, hf, rfl⟩
      · rw [State.withHbc_hbc, abandonSeq_of hq] at h1
        have h1' : (if (abandonedSeq q).ended then none else some (abandonedSeq q)) = some q1 := h1
        split at h1'
        · cases h1'
        · obtain rfl := Option.some.inj h1'
          refine ⟨e, ?_, hf, rfl⟩
          rw [abandoned_get, he, Option.map_some, if_neg (by simp [Waiting, hf])]
    · obtain rfl := Option.some.inj (hq.symm.trans h1)
      exact ⟨e, he, hf, rfl⟩
  rcases (endSequence_kept (reportPhase s)).2 with h | h
  · exact hphase q' ((congrArg Hbc.seq h).symm.trans hq')
  · exact nomatch (congrArg Hbc.seq h).symm.trans hq'

/-! ### An examined slot of a head in service -/

theorem inService_iff (st : HeadState) : st ∈ [HeadState.probing, .ready, .busy] ↔ st ≠ .absent ∧ st ≠ .off := by
  cases st <;> simp

theorem uplinkSlot_examined {ch : Channel} {w : Option UplinkWord} {s : State} (hopen : s.hbc.slot < slotOf ch)
    (hon : (s.hbc.heads.get ch).state ≠ .off) : uplinkSlot ch w s = examinedSlot ch w s := by
  rw [uplinkSlot, if_neg (by simp [slotOpen, hopen]), if_neg hon]

/-- The slot of a channel before the reports, for a head that does not become READY out of PROBING. -/
theorem examinedSlot_eq {ch : Channel} {w : Option UplinkWord} {s : State} {x : Exam} (hx : examineSlot s.hbc ch w = x)
    (hr : x.readied = false) : examinedSlot ch w s = (reports (handValue ch x.value
      (absentAlarm ch (s.hbc.heads.get ch).state x.head.state (s.withHbc (applyExam s.hbc ch w x))))).settleDrive := by
  have e : examinedSlot ch w s = (endSequence (reportPhase (if x.readied then headReadyEvent ch (handValue ch x.value
      (absentAlarm ch (s.hbc.heads.get ch).state x.head.state (s.withHbc (applyExam s.hbc ch w x))))
      else handValue ch x.value (absentAlarm ch (s.hbc.heads.get ch).state x.head.state
        (s.withHbc (applyExam s.hbc ch w x)))))).settleDrive := by
    rw [← hx] <;> rfl
  rw [e, if_neg (by rw [hr]; decide)] <;> rfl

theorem entryOf_chan {q : Sequence} {k : RefChan} : entryOf (some q) k.chan = q.entries.get k := by
  rw [entryOf, refChanOf_chan] <;> rfl

theorem setEntry_chan {q : Sequence} {k : RefChan} {o : Option SeqEntry} :
    setEntry (some q) k.chan o = some { q with entries := q.entries.set k o } := by
  rw [setEntry, refChanOf_chan] <;> rfl

/-! ### A lost head (R33) -/

theorem loseEntry_lost {e : SeqEntry} (h : e.phase ≠ .finished) : (loseEntry e).outcome = some .lost := by
  rw [loseEntry, if_neg h]

/-- A channel of the sequence is out of it, LOST. -/
def OutOfSequence (ch : Channel) (s t : State) : Prop :=
  ∀ k q e, ch = RefChan.chan k → s.hbc.seq = some q → q.entries.get k = some e → e.phase ≠ .finished →
    ∀ q', t.hbc.seq = some q' → ∃ e', q'.entries.get k = some e' ∧ e'.phase = .finished ∧ e'.outcome = some .lost

/-- What the slot that loses a head leaves. -/
theorem uplinkSlot_lost {ch : Channel} {w : Option UplinkWord} {s : State} {cause : AbsentCause} {hd : Head}
    (hopen : s.hbc.slot < slotOf ch) (hst : (s.hbc.heads.get ch).state ∈ [HeadState.probing, .ready, .busy])
    (hx : examineSlot s.hbc ch w = absentExam cause hd (entryOf s.hbc.seq ch)) :
    headLost (uplinkSlot ch w s) ch cause ∧ ((uplinkSlot ch w s).hbc.heads.get ch).missing = hd.missing ∧
    OutOfSequence ch s (uplinkSlot ch w s) := by
  obtain ⟨habs, hoff⟩ := (inService_iff _).1 hst
  obtain ⟨u, hu⟩ : ∃ u, absentAlarm ch (s.hbc.heads.get ch).state .absent
    (s.withHbc (applyExam s.hbc ch w (absentExam cause hd (entryOf s.hbc.seq ch)))) = u := ⟨_, rfl⟩
  have ht : uplinkSlot ch w s = (reports u).settleDrive := by
    rw [uplinkSlot_examined hopen hoff, examinedSlot_eq hx rfl, ← hu]
    show (reports (handValue ch none _)).settleDrive = _
    rw [handValue_none] <;> rfl
  have hub : u.hbc = applyExam s.hbc ch w (absentExam cause hd (entryOf s.hbc.seq ch)) := by rw [← hu, absentAlarm_hbc] <;> rfl
  have huhead : u.hbc.heads.get ch = goAbsent cause hd := by rw [hub]; exact PerChan.get_set_same _ _ _
  have hualarm : alarmActive u (ptHeadAbsent ch) := by
    rw [← hu, absentAlarm, if_pos ⟨habs, rfl⟩]
    exact State.activate_active _ _
  have hfin : ∀ c e, ch = RefChan.chan c → inSequence u.hbc c e → e.phase = .finished := by
    intro c e hc ⟨q, hq, he⟩
    rw [hub] at hq
    have hq' : setEntry s.hbc.seq ch ((entryOf s.hbc.seq ch).map loseEntry) = some q := hq
    cases hs : s.hbc.seq with
    | none => rw [hs, setEntry_idle] at hq'; cases hq'
    | some q0 =>
      rw [hs, hc, setEntry_chan, entryOf_chan] at hq'
      obtain rfl := Option.some.inj hq'
      rw [PerRef.get_set_same] at he
      obtain ⟨e0, _, rfl⟩ := Option.map_eq_some_iff.1 he
      exact loseEntry_finished e0
  have hhead : (reports u).hbc.heads.get ch = goAbsent cause hd := by
    rcases (reports_kept u).2.heads ch with h | ⟨c, e, hc, hin, hne⟩
    · exact h.trans huhead
    · exact absurd (hfin c e hc hin) hne
  rw [ht]
  refine ⟨⟨?_, ?_, ?_⟩, ?_, ?_⟩
  · show ((reports u).hbc.heads.get ch).state = _
    rw [hhead] <;> rfl
  · show ((reports u).hbc.heads.get ch).cause = _
    rw [hhead] <;> rfl
  · show ((reports u).alt.points[ptHeadAbsent ch]).state = _ ∨ ((reports u).alt.points[ptHeadAbsent ch]).state = _
    rw [reports_absentPoint]
    exact hualarm
  · show ((reports u).hbc.heads.get ch).missing = _
    rw [hhead] <;> rfl
  · intro k q e hc hq he hne q' hq'
    have huq : u.hbc.seq = some { q with entries := q.entries.set k (some (loseEntry e)) } := by
      rw [hub]
      show setEntry s.hbc.seq ch ((entryOf s.hbc.seq ch).map loseEntry) = _
      rw [hq, hc, entryOf_chan, he, setEntry_chan] <;> rfl
    obtain ⟨e', h1, h2, h3⟩ := reports_finished huq (PerRef.get_set_same _ _ _) (loseEntry_finished e) hq'
    exact ⟨e', h1, h2, h3.trans (loseEntry_lost hne)⟩

/-- The command of a cause whose slot loses the head for it. -/
theorem losingSlot_lost {ch : Channel} {w : Option UplinkWord} {s : State} {cause : AbsentCause} {hd : Head}
    (hst : (s.hbc.heads.get ch).state ∈ [HeadState.probing, .ready, .busy])
    (hx : examineSlot s.hbc ch w = absentExam cause hd (entryOf s.hbc.seq ch)) :
    losingSlot cause ch w s = uplinkSlot ch w s := by
  obtain ⟨habs, hoff⟩ := (inService_iff _).1 hst
  refine if_pos ?_
  simp [slotLoses, hx, absentExam, goAbsent, habs, hoff]

end Sys2Proof.Machine
end

section
/-! PROOFS. The answer windows of a sequence in flight (R36 … R40). -/

namespace Sys2Proof.Machine

open Safety

/-! ### The good sample of a head in a sequence -/

theorem strayBusy_busy (w : UplinkWord) : strayBusy .busy w = false := by
  cases h : w.busy <;> simp [strayBusy, h]

/-- The slot of a head in READY or BUSY with a good sample goes by the windows of its sequence. -/
theorem examineSlot_window {s : State} {k : RefChan} {q : Sequence} {e : SeqEntry} {w : UplinkWord}
    (hst : (s.hbc.heads.get k.chan).state = .ready ∨ (s.hbc.heads.get k.chan).state = .busy)
    (hq : s.hbc.seq = some q) (he : q.entries.get k = some e)
    (hk : sortSample (s.hbc.heads.get k.chan).state (some w) = .good w) :
    examineSlot s.hbc k.chan (some w) =
      answerWindows s.hbc.cycle q { s.hbc.heads.get k.chan with missing := 0 } e (.good w) := by
  rw [examineSlot_service hst hk, hq, entryOf_chan, he]
  unfold examineService
  simp only [reduceCtorEq, false_and, if_false]
  rfl

/-- A fault sample loses a head in service. -/
theorem examineSlot_fault {s : State} {ch : Channel} {w : UplinkWord}
    (hst : (s.hbc.heads.get ch).state ∈ [HeadState.probing, .ready, .busy]) (hp : bitsSet w % 2 = 0) (hf : w.fault = true) :
    examineSlot s.hbc ch (some w) =
      absentExam .faultFlag { s.hbc.heads.get ch with missing := 0 } (entryOf s.hbc.seq ch) := by
  have hk : sortSample (s.hbc.heads.get ch).state (some w) = .fault := by simp [sortSample, parityOk, hp, hf]
  simp only [List.mem_cons, List.not_mem_nil, or_false] at hst
  rcases hst with hst | hst
  · rw [examineSlot_probing hst hk] <;> rfl
  · rw [examineSlot_service hst hk] <;> rfl

/-- The 16th missing sample in a row loses a head in service. -/
theorem examineSlot_sixteenth {s : State} {ch : Channel} (hst : (s.hbc.heads.get ch).state ∈ [HeadState.probing, .ready, .busy])
    (hm : (s.hbc.heads.get ch).missing = 15) : ∃ hd : Head, hd.missing = 16 ∧
    examineSlot s.hbc ch none = absentExam .missingRun hd (entryOf s.hbc.seq ch) := by
  have hs : sortedHead (s.hbc.heads.get ch) .missing = { s.hbc.heads.get ch with missing := 16 } := by
    rw [sortedHead, hm] <;> rfl
  simp only [List.mem_cons, List.not_mem_nil, or_false] at hst
  rcases hst with hst | hst
  · refine ⟨{ s.hbc.heads.get ch with missing := 16, good := 0 }, rfl, ?_⟩
    rw [examineSlot_probing hst rfl, show sortSample (s.hbc.heads.get ch).state none = .missing from rfl, hs]
    unfold examineProbing
    exact if_pos rfl
  · refine ⟨{ s.hbc.heads.get ch with missing := 16 }, rfl, ?_⟩
    rw [examineSlot_service hst rfl, show sortSample (s.hbc.heads.get ch).state none = .missing from rfl, hs]
    unfold examineService
    exact if_pos ⟨rfl, rfl⟩

/-! ### The windows (R36, R37, R38) -/

section
variable {now : Cycle} {q : Sequence} {hd : Head} {e : SeqEntry} {w : UplinkWord}

/-- R36: the acknowledge window. -/
theorem answerWindows_ack (hp : e.phase = .awaitingAck) : answerWindows now q hd e (.good w) =
    if cyclesFrom q.refCycle now = 0 then ⟨hd, some e, false, none⟩
    else if cyclesFrom q.refCycle now ≤ 2 ∧ w.ack = true then
      ⟨{ hd with state := .busy }, some { e with phase := .measuring }, false, none⟩
    else if 2 ≤ cyclesFrom q.refCycle now then absentExam .noAck hd (some e) else ⟨hd, some e, false, none⟩ := by
  unfold answerWindows
  rw [hp] <;> rfl

/-- R37, R40: the measuring time. -/
theorem answerWindows_done (hp : e.phase = .measuring) : answerWindows now q hd e (.good w) =
    if w.done = true then
      if q.abandoned then finishedReady hd e
      else ⟨hd, some { e with phase := .doneSeen, outcome := some .done }, false, none⟩
    else if 2000 ≤ cyclesFrom q.refCycle now then absentExam .noDone hd (some e) else ⟨hd, some e, false, none⟩ := by
  unfold answerWindows
  rw [hp] <;> rfl

/-- R38, R40: the answer window. -/
theorem answerWindows_status (hp : e.phase = .awaitingStatus) {f : Cycle} (hf : e.fetchCycle = some f) :
    answerWindows now q hd e (.good w) =
      if cyclesFrom f now = 0 then ⟨hd, some e, false, none⟩
      else if cyclesFrom f now ≤ 2 ∧ w.status = true then
        if q.abandoned then finishedReady hd e
        else ⟨{ hd with state := .ready }, some { e with phase := .finished, outcome := some (.value w.value) }, false,
          some w.value⟩
      else if 2 ≤ cyclesFrom f now then absentExam .noStatus hd (some e) else ⟨hd, some e, false, none⟩ := by
  unfold answerWindows
  rw [hp, hf] <;> rfl

theorem cyclesFrom_eq {c now : Cycle} {n : Nat} (h : now - c = BitVec.ofNat 32 n) (hn : n < 2 ^ 32 := by decide) :
    cyclesFrom c now = n := by
  rw [cyclesFrom, h, BitVec.toNat_ofNat, Nat.mod_eq_of_lt hn]

end

/-! ### The state after a slot in a sequence -/

/-- The head bus after a good sample of a channel in its sequence. -/
def slotBus (s : State) (k : RefChan) (w : UplinkWord) (x : Head) (seq : Option Sequence) : Hbc :=
  { s.hbc with
    slot := slotOf k.chan
    heads := s.hbc.heads.set k.chan x
    seq := seq
    record := s.hbc.record.set k.chan (some ⟨x.state, some w⟩) }

/-- A good sample of a head in a sequence that keeps the head in service: the head bus, the value handed over, and the
reports. -/
theorem exec_uplinkSample_answered {s : State} {k : RefChan} {q : Sequence} {w : UplinkWord} {x : Head} {e' : SeqEntry}
    {v : Option (BitVec 16)} (hheld : s.held = false) (hopen : s.hbc.slot < slotOf k.chan) (hq : s.hbc.seq = some q)
    (hst : (s.hbc.heads.get k.chan).state = .ready ∨ (s.hbc.heads.get k.chan).state = .busy)
    (hk : sortSample (s.hbc.heads.get k.chan).state (some w) = .good w) (hxs : x.state ≠ .absent)
    (hx : examineSlot s.hbc k.chan (some w) = ⟨x, some e', false, v⟩) :
    exec (.uplinkSample k.chan (some w)) s = .next (reports (handValue k.chan v (s.withHbc
      (slotBus s k w x (some { q with entries := q.entries.set k (some e') }))))).settleDrive := by
  have hon : (s.hbc.heads.get k.chan).state ≠ .off ∧ (s.hbc.heads.get k.chan).state ≠ .absent := by
    rcases hst with h | h <;> rw [h] <;> decide
  have hbus : applyExam s.hbc k.chan (some w) ⟨x, some e', false, v⟩ =
      slotBus s k w x (some { q with entries := q.entries.set k (some e') }) := by
    rw [applyExam, hq, setEntry_chan, hk] <;> rfl
  rw [exec_released (f := uplinkSlot k.chan (some w)) rfl hheld, uplinkSlot_examined hopen hon.1, examinedSlot_eq hx rfl,
    absentAlarm_of_service hon.2 hxs, hbus]

/-- The channels of a sequence other than one. -/
def Others (q : Sequence) (k : RefChan) (ok : SeqEntry → Prop) : Prop :=
  ∀ j e', j ≠ k → q.entries.get j = some e' → ok e'

theorem entered_ended (q : Sequence) (k : RefChan) (e' : SeqEntry) :
    ({ q with entries := q.entries.set k (some e') } : Sequence).ended = true ↔
      e'.phase = .finished ∧ Others q k (fun x => x.phase = .finished) := by
  rw [ended_iff]
  constructor
  · intro h
    refine ⟨h k e' (PerRef.get_set_same _ _ _), fun j x hj hx => h j x ?_⟩
    exact (PerRef.get_set_ne _ _ hj).trans hx
  · rintro ⟨h1, h2⟩ j x hx
    by_cases hj : j = k
    · subst hj
      rw [PerRef.get_set_same] at hx
      exact Option.some.inj hx ▸ h1
    · exact h2 j x hj ((PerRef.get_set_ne _ _ hj).symm.trans hx)

theorem entered_phaseOver (q : Sequence) (k : RefChan) (e' : SeqEntry) :
    (q.entries.set k (some e')).all phaseOver = true ↔
      (e'.phase = .doneSeen ∨ e'.phase = .finished) ∧ Others q k (fun x => x.phase = .doneSeen ∨ x.phase = .finished) := by
  have hover : ∀ x : SeqEntry, phaseOver (some x) = true ↔ (x.phase = .doneSeen ∨ x.phase = .finished) := fun x => by
    simp [phaseOver]
  rw [PerRef.all_iff]
  constructor
  · intro h
    refine ⟨(hover e').1 (by have := h k; rwa [PerRef.get_set_same] at this), fun j x hj hx => (hover x).1 ?_⟩
    have := h j
    rwa [PerRef.get_set_ne _ _ hj, hx] at this
  · rintro ⟨h1, h2⟩ j
    by_cases hj : j = k
    · subst hj
      rw [PerRef.get_set_same]
      exact (hover e').2 h1
    · rw [PerRef.get_set_ne _ _ hj]
      cases hx : q.entries.get j with
      | none => rfl
      | some x => exact (hover x).2 (h2 j x hj hx)

/-- A slot whose channel is not through leaves the sequence in flight, with nothing to report. -/
theorem answered_goesOn {s : State} {k : RefChan} {q : Sequence} {w : UplinkWord} {x : Head} {e' : SeqEntry} (hd : driveSettled s)
    (h : q.abandoned = true ∨ q.reported = true ∨
      ¬ ((e'.phase = .doneSeen ∨ e'.phase = .finished) ∧ Others q k (fun x => x.phase = .doneSeen ∨ x.phase = .finished)))
    (he : ¬ (e'.phase = .finished ∧ Others q k (fun x => x.phase = .finished))) (o : Osq) :
    (reports ((s.withHbc (slotBus s k w x (some { q with entries := q.entries.set k (some e') }))).withOsq o)).settleDrive =
      (s.withHbc (slotBus s k w x (some { q with entries := q.entries.set k (some e') }))).withOsq o := by
  rw [reports_stay (q := { q with entries := q.entries.set k (some e') }) rfl
    (h.imp id (fun k => k.imp id fun hno => Bool.eq_false_iff.2 (mt (entered_phaseOver _ _ _).1 hno)))
    (Bool.eq_false_iff.2 (mt (entered_ended _ _ _).1 he))]
  exact State.settleDrive_of_settled (by exact hd)

end Sys2Proof.Machine
end

section
/-! PROOFS. The end of a sequence: the report of its REFERENCE phase, its abandonment, and the interlock's release after COMMIT
(R37, R39, R40, R51, R52). -/

namespace Sys2Proof.Machine

open Safety

/-! ### A motion with no standardization due (R13, R52) -/

/-- The states of a carriage that goes to be standardized. -/
def stdStates : List CarriageState := [.toStd, .atStd]

theorem goLimit_notStd (s : State) : (goLimit s).cmu.state ∉ stdStates := by
  have h := goLimit_state s
  simp only [List.mem_cons, List.not_mem_nil, or_false] at h
  rcases h with h | h <;> rw [h] <;> decide

/-- What a motion leaves that takes no standardization: the OSQ and an override untaken, with no plan pending. -/
structure Undue (s t : State) : Prop where
  osq : t.osq = s.osq
  wait : t.cmu.overrideWait = s.cmu.overrideWait
  pending : t.cta.pending = none
  away : t.cmu.state ∉ stdStates

theorem Undue.trans {s t u : State} (h : Undue s t) (k : Undue t u) : Undue s u :=
  ⟨k.osq.trans h.osq, k.wait.trans h.wait, k.pending, k.away⟩

theorem undue_rested {st : CarriageState} {s : State} (hp : s.cta.pending = none) (hst : st ∉ stdStates) :
    Undue s (rested st s) := by
  obtain ⟨hcmu, hpending, _⟩ := rested_cmu st s
  exact ⟨rested_osq hp, by rw [hcmu], hpending, by rw [hcmu]; exact hst⟩

theorem undue_travel {st : CarriageState} (x : Int) (d : Dir) (a : Approach) (v : Nat) {s : State} (hp : s.cta.pending = none)
    (hst : st ∉ stdStates) : Undue s (travel st x d a v s) := ⟨rfl, rfl, hp, hst⟩

theorem undue_goPark {next : State → State} {s : State} (hp : s.cta.pending = none)
    (hn : ∀ u, Undue s u → Undue s (next u)) : Undue s (goPark next s) := by
  unfold goPark
  split
  · next h => exact ⟨rfl, rfl, hp, by rw [h]; decide⟩
  dsimp only
  have ht := undue_travel (st := .toPark) s.rbs.common.parkPos (toward s.cmu.position s.rbs.common.parkPos) .outside
    s.rbs.common.maxSpeed hp (by decide)
  split
  · rw [arriveParked_eq]
    exact hn _ (ht.trans (undue_rested ht.pending (by decide)))
  · exact ht

theorem undue_arriveFixed {next : State → State} {r s : State} (hs : Undue r s) (hd : nothingDue r)
    (hn : ∀ u, Undue r u → Undue r (next u)) : Undue r (arriveFixed next s) := by
  have hr := hs.trans (undue_rested (st := .fixed) hs.pending (by decide))
  have hno : osqTakes (rested .fixed s) = false := nothingDue.not_takes (by unfold nothingDue; rw [hr.osq]; exact hd)
  have e : arriveFixed next s = if osqTakes (rested .fixed s) then takeStd (rested .fixed s)
      else if (rested .fixed s).cmu.plan.mode = .fixed ∧ (rested .fixed s).cmu.plan.fixedPos = s.cmu.plan.fixedPos
      then rested .fixed s else next (rested .fixed s) := rfl
  rw [e, if_neg (by rw [hno]; decide)]
  split
  · exact hr
  · exact hn _ hr

theorem undue_goFixed {next : State → State} {s : State} (hp : s.cta.pending = none) (hd : nothingDue s)
    (hn : ∀ u, Undue s u → Undue s (next u)) : Undue s (goFixed next s) := by
  unfold goFixed
  dsimp only
  have ht := undue_travel (st := .toFixed) (min (s.cmu.plan.fixedPos : Int) s.rbs.common.pMax)
    (toward s.cmu.position (min (s.cmu.plan.fixedPos : Int) s.rbs.common.pMax)) .outside s.scanSpeed hp (by decide)
  split
  · exact undue_arriveFixed ht hd hn
  · exact ht

theorem undue_goLimit {s : State} (hp : s.cta.pending = none) : Undue s (goLimit s) := by
  refine ⟨(goLimit_ebm s).2.2.1, ?_, ((motion_goLimit s).plan hp).1, goLimit_notStd s⟩
  simp only [goLimit]
  split
  · rfl
  split
  · rfl
  split
  · rfl
  split
  · rfl
  split <;> rfl

/-- With no plan pending and no standardization to take, none is begun by a choice of motion. -/
theorem undue_nextMotion {n : Nat} {s : State} (hp : s.cta.pending = none) (hd : nothingDue s)
    (h : n ≠ 0 ∨ s.cmu.state ∉ stdStates) : Undue s (nextMotion n s) := by
  induction n generalizing s with
  | zero => exact ⟨rfl, rfl, hp, h.resolve_left fun k => k rfl⟩
  | succ n ih =>
    have hnext : ∀ u : State, Undue s u → Undue s (nextMotion n u) := fun u hu =>
      hu.trans (ih hu.pending (by unfold nothingDue; rw [hu.osq]; exact hd) (.inr hu.away))
    unfold nextMotion
    rw [if_neg (by rw [hd.not_takes]; decide)]
    split
    · exact undue_goPark hp hnext
    split
    · exact undue_goPark hp hnext
    · exact undue_goFixed hp hd hnext
    · exact undue_goLimit hp

/-! ### COMMIT and the release of the interlock (R51, R52) -/

/-- The drift checks read the candidates, the tolerances and the references alone. -/
theorem commitChannels_congr (l : List RefChan) {s t : State} (ho : t.osq = s.osq) (hr : t.rbs = s.rbs) (hs : t.scv = s.scv) :
    (l.foldl commitChannel t).scv = (l.foldl commitChannel s).scv := by
  induction l generalizing s t with
  | nil => exact hs
  | cons c l ih =>
    have hkeep : ∀ u : State, (commitChannel u c).osq = u.osq ∧ (commitChannel u c).rbs = u.rbs := fun u => by
      unfold commitChannel
      split
      · exact ⟨rfl, rfl⟩
      split <;> exact ⟨rfl, rfl⟩
    have hscv : ∀ u : State, (commitChannel u c).scv = match u.osq.candidates.get c with
        | none => u.scv
        | some r => if driftOk (u.rbs.common.drift.get c) (u.scv.refs.get c) r
          then { u.scv with refs := u.scv.refs.set c (some r) } else u.scv := fun u => by
      unfold commitChannel
      cases u.osq.candidates.get c with
      | none => rfl
      | some r => dsimp only; split <;> rfl
    refine ih ?_ ?_ ?_
    · rw [(hkeep t).1, (hkeep s).1, ho]
    · rw [(hkeep t).2, (hkeep s).2, hr]
    · rw [hscv t, hscv s, ho, hr, hs]

/-- The drift checks write the references alone. -/
theorem commitChannels_scv (l : List RefChan) (s : State) :
    (l.foldl commitChannel s).scv = { s.scv with refs := (l.foldl commitChannel s).scv.refs } := by
  induction l generalizing s with
  | nil => rfl
  | cons c l ih =>
    have h : (commitChannel s c).scv = { s.scv with refs := (commitChannel s c).scv.refs } := by
      unfold commitChannel
      split
      · rfl
      split <;> rfl
    rw [List.foldl_cons, ih, h]

/-- R51, R52: what the end of the head steps leaves. -/
theorem interlock_released {s v : State} (hw : osqWaits s = true) (ho : v.osq = s.osq) (hr : v.rbs = s.rbs) (hs : v.scv = s.scv) :
    let t := (headStepsDone s).settleDrive
    t.hbc = s.hbc ∧ t.scv = { s.scv with refs := (commit v).scv.refs } ∧ t.osq.scanCount = 0 ∧
    t.osq.due = s.osq.renewal.isSome ∧ t.cta.pending = none ∧ t.cmu.plan = s.cta.pending.getD s.cmu.plan ∧
    (s.osq.renewal = none → t.osq.step = .idle ∧ t.cmu.state ∉ stdStates) := by
  intro t
  obtain ⟨c, hc⟩ : ∃ c, (commit s).withOsq { (commit s).osq with step := .idle } = c := ⟨_, rfl⟩
  obtain ⟨p, hp⟩ : ∃ p, applyPendingPlan c = p := ⟨_, rfl⟩
  have ht : t = (nextMove p).settleDrive := by
    show (headStepsDone s).settleDrive = _
    rw [headStepsDone, if_pos hw, releaseInterlock, hc, hp]
  obtain ⟨_, hcscv, hccmu, hchbc, _⟩ := commit_blocks s
  have hcosq : c.osq.scanCount = 0 ∧ c.osq.due = s.osq.renewal.isSome ∧ c.osq.step = .idle := by
    rw [← hc, State.withOsq_osq, commit_osq]
    exact ⟨rfl, rfl, rfl⟩
  have hccta : c.cta = s.cta := by
    rw [← hc]
    show (commit s).cta = s.cta
    have hch : ∀ (l : List RefChan) (u : State), (l.foldl commitChannel u).cta = u.cta := fun l => by
      induction l with
      | nil => exact fun _ => rfl
      | cons d l ih =>
        intro u
        refine (ih _).trans ?_
        unfold commitChannel
        split
        · rfl
        split <;> rfl
    rw [commit_eq, mergeRenewal_eq]
    exact hch allRefChans s
  have hmp : Motion c p := hp ▸ motion_applyPendingPlan c
  have hpplan := applyPendingPlan_plan c
  rw [hp] at hpplan
  have hposq : p.osq = c.osq := by
    rw [← hp]
    unfold applyPendingPlan
    split
    · rfl
    · unfold applyPlan intervalCheck
      rw [if_neg]
      · rfl
      · rintro ⟨h1, h2⟩
        have h2' : (_ : Nat) ≤ c.osq.scanCount := h2
        rw [hcosq.1] at h2'
        exact h1 (Nat.le_zero.1 h2')
  have hpcta : p.cta.pending = none := by rw [hpplan.2]
  have hm : Motion p (nextMove p) := motion_nextMove p
  have hdue := keptByMoves_due s.osq.renewal.isSome |>.nextMove (s := p) ⟨hpcta, by rw [hposq]; exact hcosq.2.1⟩
  rw [ht]
  refine ⟨?_, ?_, ?_, hdue.2, hdue.1, ?_, fun hn => ?_⟩
  · exact (hm.hbc.trans hmp.hbc).trans (by rw [← hc]; exact hchbc)
  · refine (hm.scv.trans hmp.scv).trans ?_
    rw [← hc]
    show (commit s).scv = _
    rw [hcscv, (commit_blocks v).2.1, commitChannels_congr allRefChans ho hr hs]
    exact commitChannels_scv allRefChans s
  · exact (hm.scanCount.trans hmp.scanCount).trans hcosq.1
  · refine (hm.plan hpcta).2.trans ?_
    rw [hpplan.1, hccta, ← hc]
    show s.cta.pending.getD (commit s).cmu.plan = _
    rw [hccmu]
  · have h : Undue p (nextMotion motionBound p) := undue_nextMotion hpcta
      (by unfold nothingDue; rw [hposq, hcosq.2.1, hn]; exact fun k => Bool.false_ne_true k.1) (.inl (by decide))
    refine ⟨?_, h.away⟩
    show (nextMotion motionBound p).osq.step = _
    rw [h.osq, hposq, hcosq.2.2]

end Sys2Proof.Machine
end

section
/-! PROOFS. A sequence through ACK, DONE and STATUS to its end (R36 … R40, R49, R50). -/

namespace Sys2Proof.Machine

open Safety

/-- A good sample of a head in a sequence in flight: what the examination of its slot stands on. -/
structure InWindow (s : State) (k : RefChan) (q : Sequence) (e : SeqEntry) (w : UplinkWord) : Prop where
  held : s.held = false
  opened : s.hbc.slot < slotOf k.chan
  seq : s.hbc.seq = some q
  entry : q.entries.get k = some e
  state : (s.hbc.heads.get k.chan).state = .ready ∨ (s.hbc.heads.get k.chan).state = .busy
  good : sortSample (s.hbc.heads.get k.chan).state (some w) = .good w

section
variable {s : State} {k : RefChan} {q : Sequence} {e : SeqEntry} {w : UplinkWord}

/-- The head of the channel after a good sample. -/
abbrev goodHead (s : State) (k : RefChan) : Head := { s.hbc.heads.get k.chan with missing := 0 }

theorem InWindow.on (h : InWindow s k q e w) : (goodHead s k).state ≠ .absent := by
  rcases h.state with e | e <;> exact fun h => nomatch e.symm.trans h

theorem InWindow.examined (h : InWindow s k q e w) :
    examineSlot s.hbc k.chan (some w) = answerWindows s.hbc.cycle q (goodHead s k) e (.good w) :=
  examineSlot_window h.state h.seq h.entry h.good

/-- The slot leaves the sequence in flight and hands nothing over. -/
theorem InWindow.goesOn (h : InWindow s k q e w) (hd : driveSettled s) {x : Head} {e' : SeqEntry}
    (hx : answerWindows s.hbc.cycle q (goodHead s k) e (.good w) = ⟨x, some e', false, none⟩) (hxs : x.state ≠ .absent)
    (hr : q.abandoned = true ∨ q.reported = true ∨
      ¬ ((e'.phase = .doneSeen ∨ e'.phase = .finished) ∧ Others q k (fun x => x.phase = .doneSeen ∨ x.phase = .finished)))
    (he : ¬ (e'.phase = .finished ∧ Others q k (fun x => x.phase = .finished))) :
    exec (.uplinkSample k.chan (some w)) s =
      .next { s with hbc := slotBus s k w x (some { q with entries := q.entries.set k (some e') }) } := by
  rw [exec_uplinkSample_answered h.held h.opened h.seq h.state h.good hxs (h.examined.trans hx), handValue_none]
  exact congrArg Host.Outcome.next (answered_goesOn hd hr he s.osq)

/-- The slot ends a sequence that was abandoned. -/
theorem InWindow.ends (h : InWindow s k q e w) (hd : driveSettled s) {x : Head} {e' : SeqEntry}
    (hx : answerWindows s.hbc.cycle q (goodHead s k) e (.good w) = ⟨x, some e', false, none⟩) (hxs : x.state ≠ .absent)
    (ha : q.abandoned = true) (he : e'.phase = .finished ∧ Others q k (fun x => x.phase = .finished)) :
    exec (.uplinkSample k.chan (some w)) s = .next { s with hbc := slotBus s k w x none } := by
  rw [exec_uplinkSample_answered h.held h.opened h.seq h.state h.good hxs (h.examined.trans hx), handValue_none, reports,
    reportPhase_stays (q := { q with entries := q.entries.set k (some e') }) rfl (.inl ha),
    endSequence_abandoned (q := { q with entries := q.entries.set k (some e') }) rfl ha ((entered_ended ..).2 he)]
  exact congrArg Host.Outcome.next (State.settleDrive_of_settled (by exact hd))

/-- A slot with no answer that loses the head at the end of its window. -/
theorem InWindow.lost (h : InWindow s k q e w) {cause : AbsentCause}
    (hx : answerWindows s.hbc.cycle q (goodHead s k) e (.good w) = absentExam cause (goodHead s k) (some e)) :
    losingSlot cause k.chan (some w) s = uplinkSlot k.chan (some w) s ∧
    headLost (uplinkSlot k.chan (some w) s) k.chan cause ∧ OutOfSequence k.chan s (uplinkSlot k.chan (some w) s) := by
  have hst : (s.hbc.heads.get k.chan).state ∈ [HeadState.probing, .ready, .busy] := by
    rcases h.state with e | e <;> rw [e] <;> decide
  have hx' : examineSlot s.hbc k.chan (some w) = absentExam cause (goodHead s k) (entryOf s.hbc.seq k.chan) := by
    rw [h.seq, entryOf_chan, h.entry]
    exact h.examined.trans hx
  obtain ⟨h1, _, h3⟩ := uplinkSlot_lost h.opened hst hx'
  exact ⟨losingSlot_lost hst hx', h1, h3⟩

end

/-! ### The REFERENCE phase complete (R37, R49) -/

/-- The report that the REFERENCE phase is complete is taken, or the sequence abandoned. -/
theorem reportPhase_complete {s : State} {q : Sequence} (hq : s.hbc.seq = some q) (ha : q.abandoned = false)
    (hr : q.reported = false) (ho : q.entries.all phaseOver = true) :
    reportPhase s = if osqWaits s then takeReport q s else s.withHbc (abandonSeq s.hbc) := by
  unfold reportPhase
  rw [hq]
  exact if_pos (by rw [ha, hr, ho] <;> rfl)

theorem askDone_eq (e : SeqEntry) : askDone e = { e with asked := e.outcome = some .done } := by
  have : (e.outcome == some .done) = decide (e.outcome = some SeqOutcome.done) := by
    rw [Bool.eq_iff_iff]; simp
  rw [askDone, this]

section
variable {s : State} {k : RefChan} {q : Sequence} {e e' : SeqEntry} {w : UplinkWord}

/-- The last DONE of a sequence the OSQ waits for asks for every channel DONE. -/
theorem InWindow.asks (h : InWindow s k q e w) (hd : driveSettled s)
    (hx : answerWindows s.hbc.cycle q (goodHead s k) e (.good w) = ⟨goodHead s k, some e', false, none⟩)
    (ha : q.abandoned = false) (hr : q.reported = false) (hp : e'.phase = .doneSeen) (hdone : e'.outcome = some .done)
    (hothers : Others q k (fun x => x.phase = .doneSeen ∨ x.phase = .finished)) (hw : osqWaits s = true) :
    exec (.uplinkSample k.chan (some w)) s = .next { s with
      hbc := slotBus s k w (goodHead s k) (some { q with
        reported := true, entries := (q.entries.set k (some e')).map (Option.map askDone) })
      osq := { s.osq with step := .fetch } } := by
  obtain ⟨Q, hQ⟩ : ∃ Q : Sequence, { q with entries := q.entries.set k (some e') } = Q := ⟨_, rfl⟩
  have hover : Q.entries.all phaseOver = true := by rw [← hQ]; exact (entered_phaseOver ..).2 ⟨.inl hp, hothers⟩
  have hask : (Q.entries.map (Option.map askDone)).any (fun e => e.elim false SeqEntry.asked) = true := by
    refine PerRef.any_of (c := k) ?_
    rw [← hQ, PerRef.get_map, PerRef.get_set_same, Option.map_some]
    simp [askDone, hdone]
  have htake : ∀ u : State, takeReport Q u = (u.withHbc { u.hbc with
      seq := some { Q with reported := true, entries := Q.entries.map (Option.map askDone) } }).withOsq
        { u.osq with step := .fetch } := fun u => if_pos hask
  have hgoes : ({ Q with reported := true, entries := Q.entries.map (Option.map askDone) } : Sequence).ended = false := by
    rw [Bool.eq_false_iff]
    intro hend
    have hfin := (ended_iff _).1 hend k (askDone e') (by
      show (Q.entries.map (Option.map askDone)).get k = _
      rw [← hQ, PerRef.get_map, PerRef.get_set_same] <;> rfl)
    exact nomatch hp.symm.trans hfin
  rw [exec_uplinkSample_answered h.held h.opened h.seq h.state h.good h.on (h.examined.trans hx), handValue_none, hQ, reports,
    reportPhase_complete (q := Q) rfl (by rw [← hQ]; exact ha) (by rw [← hQ]; exact hr) hover, if_pos (by exact hw), htake,
    endSequence_stays (q := { Q with reported := true, entries := Q.entries.map (Option.map askDone) }) rfl hgoes, ← hQ]
  exact congrArg Host.Outcome.next (State.settleDrive_of_settled (by exact hd))

/-- The last DONE of a sequence the OSQ does not wait for abandons it, and it ends with its heads READY. -/
theorem InWindow.abandons (h : InWindow s k q e w)
    (hx : answerWindows s.hbc.cycle q (goodHead s k) e (.good w) = ⟨goodHead s k, some e', false, none⟩)
    (ha : q.abandoned = false) (hr : q.reported = false) (hp : e'.phase = .doneSeen)
    (hothers : Others q k (fun x => x.phase = .doneSeen ∨ x.phase = .finished)) (hw : osqWaits s = false) :
    ∃ t, exec (.uplinkSample k.chan (some w)) s = .next t ∧ t.hbc.seq = none ∧
      t.hbc.heads.get k.chan = { goodHead s k with state := .ready } ∧
      t.hbc.record.get k.chan = some ⟨(goodHead s k).state, some w⟩ ∧ t.osq = s.osq ∧ t.scv = s.scv ∧ t.cmu = s.cmu := by
  obtain ⟨Q, hQ⟩ : ∃ Q : Sequence, { q with entries := q.entries.set k (some e') } = Q := ⟨_, rfl⟩
  obtain ⟨u, hu⟩ : ∃ u, s.withHbc (slotBus s k w (goodHead s k) (some Q)) = u := ⟨_, rfl⟩
  have huq : u.hbc.seq = some Q := by rw [← hu] <;> rfl
  have hover : Q.entries.all phaseOver = true := by rw [← hQ]; exact (entered_phaseOver ..).2 ⟨.inl hp, hothers⟩
  have hkQ : Q.entries.get k = some e' := by rw [← hQ]; exact PerRef.get_set_same _ _ _
  have hended : (abandonedSeq Q).ended = true := by
    rw [ended_iff]
    intro j x hj
    rw [abandoned_get] at hj
    obtain ⟨y, hy, rfl⟩ := Option.map_eq_some_iff.1 hj
    split
    · rfl
    · next hno =>
      have hy' : y.phase = .doneSeen ∨ y.phase = .finished := by
        by_cases hjk : j = k
        · subst hjk
          exact .inl (Option.some.inj (hy.symm.trans hkQ) ▸ hp)
        · refine hothers j y hjk ?_
          rw [← hQ] at hy
          exact (PerRef.get_set_ne _ _ hjk).symm.trans hy
      exact hy'.resolve_left fun k => hno (.inl k)
  have hbus : abandonSeq u.hbc = { u.hbc with heads := abandonedHeads u.hbc Q, seq := none } := by
    rw [abandonSeq_of huq, if_pos hended]
  have hrep : reports u = u.withHbc { u.hbc with heads := abandonedHeads u.hbc Q, seq := none } := by
    rw [reports, reportPhase_complete huq (by rw [← hQ]; exact ha) (by rw [← hQ]; exact hr) hover,
      if_neg (by rw [show osqWaits u = false by rw [← hu]; exact hw]; decide), hbus]
    exact endSequence_idle rfl
  have hhead : (abandonedHeads u.hbc Q).get k.chan = { goodHead s k with state := .ready } := by
    rw [abandonedHeads, foldl_ready_chan (fun c => abandonReadies (Q.entries.get c)),
      if_pos ((abandonReadies_iff _).2 ⟨e', hkQ, .inl hp⟩), ← hu]
    show ({ (s.hbc.heads.set k.chan (goodHead s k)).get k.chan with state := _ } : Head) = _
    rw [PerChan.get_set_same]
  refine ⟨(reports u).settleDrive, ?_, ?_, ?_, ?_, ?_, ?_, ?_⟩
  · rw [exec_uplinkSample_answered h.held h.opened h.seq h.state h.good h.on (h.examined.trans hx), handValue_none, hQ, hu]
  · rw [hrep] <;> rfl
  · rw [hrep]; exact hhead
  · rw [hrep, ← hu]; exact PerChan.get_set_same _ _ _
  · rw [hrep, ← hu] <;> rfl
  · rw [hrep, ← hu] <;> rfl
  · rw [hrep, ← hu] <;> rfl

/-- A value handed over while the OSQ fetches enters the candidates. -/
theorem handValue_fetch {u : State} {v : BitVec 16} (h : u.osq.step = .fetch) : handValue k.chan (some v) u =
    u.withOsq { u.osq with candidates := u.osq.candidates.set k (some v) } := by
  unfold handValue
  rw [refChanOf_chan]
  exact if_pos h

end

end Sys2Proof.Machine
end

section
/-! PROOFS. Lost heads and the answers of a sequence, settled (R28, R33, R36 … R40, R49 … R52). -/

namespace Sys2Proof.Machine

open Safety

/-- The abandoned sequence, field by field (R40). -/
theorem abandonSeq_leaves {h : Hbc} {q : Sequence} (hq : h.seq = some q) :
    ∃ heads entries seq,
      abandonSeq h = { h with heads := heads, seq := seq } ∧
      ((∀ k e, entries.get k = some e → e.phase = .finished) → seq = none) ∧
      ((∃ k e, entries.get k = some e ∧ e.phase ≠ .finished) →
        seq = some { q with abandoned := true, entries := entries }) ∧
      (∀ k, entries.get k = (q.entries.get k).map (fun e => if Waiting e then { e with phase := .finished } else e)) ∧
      (∀ k e, q.entries.get k = some e → Waiting e →
        heads.get k.chan = { h.heads.get k.chan with state := .ready }) ∧
      (∀ k, (∀ e, q.entries.get k = some e → ¬ Waiting e) → heads.get k.chan = h.heads.get k.chan) ∧
      heads.edge = h.heads.edge ∧ heads.temp = h.heads.temp := by
  obtain ⟨hedge, htemp⟩ := foldl_ready_rest (fun c => abandonReadies (q.entries.get c)) h.heads
  have hheads := foldl_ready_chan (fun c => abandonReadies (q.entries.get c)) h.heads
  refine ⟨abandonedHeads h q, (abandonedSeq q).entries, _, abandonSeq_of hq, fun hall => if_pos ((ended_iff _).2 hall),
    fun ⟨k, e, hk, hne⟩ => if_neg fun hend => hne ((ended_iff _).1 hend k e hk), abandoned_get q, fun k e he hw => ?_,
    fun k hno => ?_, hedge, htemp⟩
  · exact (hheads k).trans (if_pos ((abandonReadies_iff _).2 ⟨e, he, hw⟩))
  · refine (hheads k).trans (if_neg fun hr => ?_)
    obtain ⟨e, he, hw⟩ := (abandonReadies_iff _).1 hr
    exact hno e he hw

section
variable {s : State} {k : RefChan} {q : Sequence} {e : SeqEntry} {w : UplinkWord}

/-- R40: in ABANDONED mode the answer makes the head READY and the channel FINISHED. -/
theorem InWindow.finishes (h : InWindow s k q e w) (hd : driveSettled s) (ha : q.abandoned = true)
    (hx : answerWindows s.hbc.cycle q (goodHead s k) e (.good w) = finishedReady (goodHead s k) e) :
    let ready : Head := { goodHead s k with state := .ready }
    let left : Sequence := { q with entries := q.entries.set k (some { e with phase := .finished }) }
    (Others q k (fun x => x.phase = .finished) →
      exec (.uplinkSample k.chan (some w)) s = .next { s with hbc := slotBus s k w ready none }) ∧
    (¬ Others q k (fun x => x.phase = .finished) →
      exec (.uplinkSample k.chan (some w)) s = .next { s with hbc := slotBus s k w ready (some left) }) :=
  ⟨fun ho => h.ends hd hx nofun ha ⟨rfl, ho⟩, fun ho => h.goesOn hd hx nofun (.inl ha) fun k => ho k.2⟩

/-- R38, R50: the value of STATUS enters the candidates, and the last one ends the head steps. -/
theorem InWindow.answers (h : InWindow s k q e w)
    (hx : answerWindows s.hbc.cycle q (goodHead s k) e (.good w) = ⟨{ goodHead s k with state := .ready },
      some { e with phase := .finished, outcome := some (.value w.value) }, false, some w.value⟩)
    (ha : q.abandoned = false) (hr : q.reported = true) (hf : s.osq.step = .fetch) :
    let taken : Osq := { s.osq with candidates := s.osq.candidates.set k (some w.value) }
    let told : SeqEntry := { e with phase := .finished, outcome := some (.value w.value) }
    let ready : Head := { goodHead s k with state := .ready }
    (driveSettled s → ¬ Others q k (fun x => x.phase = .finished) →
      exec (.uplinkSample k.chan (some w)) s = .next { s with
        hbc := slotBus s k w ready (some { q with entries := q.entries.set k (some told) }), osq := taken }) ∧
    (Others q k (fun x => x.phase = .finished) → ∃ t, exec (.uplinkSample k.chan (some w)) s = .next t ∧
      t.hbc = slotBus s k w ready none ∧ t.scv = { s.scv with refs := (commit { s with osq := taken }).scv.refs } ∧
      t.osq.scanCount = 0 ∧ t.osq.due = s.osq.renewal.isSome ∧ t.cta.pending = none ∧
      t.cmu.plan = s.cta.pending.getD s.cmu.plan ∧
      (s.osq.renewal = none → t.osq.step = .idle ∧ t.cmu.state ∉ stdStates)) := by
  intro taken told ready
  have hexec := exec_uplinkSample_answered h.held h.opened h.seq h.state h.good (x := ready) nofun
    (h.examined.trans hx)
  rw [handValue_fetch (by exact hf)] at hexec
  refine ⟨fun hd ho => ?_, fun ho => ?_⟩
  · exact hexec.trans (congrArg Host.Outcome.next (answered_goesOn hd (.inr (.inl hr)) (fun k => ho k.2) taken))
  · obtain ⟨u, hu⟩ : ∃ u, ((s.withHbc (slotBus s k w ready (some { q with entries := q.entries.set k (some told) }))).withOsq
      taken).withHbc (slotBus s k w ready none) = u := ⟨_, rfl⟩
    have hrep : reports ((s.withHbc (slotBus s k w ready (some { q with entries := q.entries.set k (some told) }))).withOsq
        taken) = headStepsDone u := by
      rw [reports, reportPhase_stays (q := { q with entries := q.entries.set k (some told) }) rfl (.inr (.inl hr)),
        endSequence_done (q := { q with entries := q.entries.set k (some told) }) rfl ha ((entered_ended ..).2 ⟨rfl, ho⟩), ← hu]
        <;> rfl
    have hw : osqWaits u = true := by
      rw [← hu, osqWaits]
      show (_ || s.osq.step == .fetch) = true
      rw [hf] <;> simp
    have hrel := interlock_released (v := { s with osq := taken }) hw (by rw [← hu] <;> rfl) (by rw [← hu] <;> rfl)
      (by rw [← hu] <;> rfl)
    rw [← hrep] at hrel
    have huf : u.hbc = slotBus s k w ready none ∧ u.scv = s.scv ∧ u.osq.renewal = s.osq.renewal ∧ u.cta = s.cta ∧
        u.cmu = s.cmu := by rw [← hu]; exact ⟨rfl, rfl, rfl, rfl, rfl⟩
    obtain ⟨u1, u2, u3, u4, u5⟩ := huf
    rw [u1, u2, u3, u4, u5] at hrel
    exact ⟨_, hexec, hrel⟩

end

/-- Settles O16: a lost head by the one lemma of a losing slot; a good sample by the phase of its channel and the cycles since
the REFERENCE or the FETCH, with the reports after it. -/
theorem lostHeadsGoAbsent : Obligations.LostHeadsGoAbsent := by
  unfold Obligations.LostHeadsGoAbsent
  refine ⟨fun h q hq => abandonSeq_leaves hq, fun ch w s => ?_⟩
  intro hd inService outOfSequence hheld hopen
  refine ⟨fun hst hm => ?_, fun hst hp hf => ?_, fun k q e hch hq he hp hf => ?_⟩
  · obtain ⟨x, hx16, hx⟩ := examineSlot_sixteenth hst hm
    obtain ⟨h1, h2, h3⟩ := uplinkSlot_lost (w := none) hopen hst hx
    refine ⟨_, exec_released (f := losingSlot .missingRun ch none) rfl hheld, ?_⟩
    rw [losingSlot_lost hst hx]
    exact ⟨h1, h2.trans hx16, h3⟩
  · obtain ⟨h1, h2, h3⟩ := uplinkSlot_lost (w := some w) hopen hst (examineSlot_fault hst hp hf)
    exact ⟨_, exec_released (f := uplinkSlot ch (some w)) rfl hheld, h1, h2, h3⟩
  · subst hch
    intro c slot good entered others phaseDone finished end_ ready
    have hready : hd.state = .ready → w.busy = false → InWindow s k q e w := fun hst hb =>
      ⟨hheld, hopen, hq, he, .inl hst, sortSample_good _ hp hf (strayBusy_idle _ hb)⟩
    have hbusy : hd.state = .busy → InWindow s k q e w := fun hst =>
      ⟨hheld, hopen, hq, he, .inr hst, sortSample_good _ hp hf (by
        rw [show (s.hbc.heads.get k.chan).state = .busy from hst]; exact strayBusy_busy w)⟩
    have hcount : ∀ n : Nat, c = BitVec.ofNat 32 n → n < 2 ^ 32 → cyclesFrom q.refCycle s.hbc.cycle = n :=
      fun n h hn => cyclesFrom_eq h hn
    refine ⟨fun hst hph hb => ?_, fun hst hph => ?_, fun f hst hph hfc => ?_⟩
    · have h := hready hst hb
      have hwin := answerWindows_ack (now := s.hbc.cycle) (q := q) (hd := goodHead s k) (w := w) hph
      refine ⟨fun hds hc => ?_, fun hds hc ha => ?_, fun hc ha => ?_⟩
      · refine h.goesOn hds (e' := e) ?_ h.on (.inr (.inr ?_)) ?_
        · rw [hwin]
          rcases hc with hc | ⟨hc, hack⟩
          · exact if_pos (hcount 0 hc (by decide))
          · rw [hcount 1 hc (by decide), hack] <;> rfl
        · rw [hph]; exact fun k => nomatch k.1
        · rw [hph]; exact fun k => nomatch k.1
      · refine h.goesOn hds (x := { goodHead s k with state := .busy }) (e' := { e with phase := .measuring }) ?_ nofun
          (.inr (.inr fun k => nomatch k.1)) (fun k => nomatch k.1)
        rw [hwin, ha]
        rcases hc with hc | hc
        · rw [hcount 1 hc (by decide)] <;> rfl
        · rw [hcount 2 hc (by decide)] <;> rfl
      · obtain ⟨h1, h2, h3⟩ := h.lost (cause := .noAck) (by rw [hwin, hcount 2 hc (by decide), ha] <;> rfl)
        refine ⟨_, exec_released (f := losingSlot .noAck k.chan (some w)) rfl hheld, ?_⟩
        rw [h1]
        exact ⟨h2, h3⟩
    · have h := hbusy hst
      have hwin := answerWindows_done (now := s.hbc.cycle) (q := q) (hd := goodHead s k) (w := w) hph
      refine ⟨fun hds hdone hc => ?_, fun hdone hc => ?_, fun hds hdone ha => ?_, fun hds hdone ha => ?_⟩
      · refine h.goesOn hds (e' := e) ?_ h.on (.inr (.inr ?_)) ?_
        · rw [hwin, if_neg (by rw [hdone]; decide), if_neg (Nat.not_le.2 (show cyclesFrom q.refCycle s.hbc.cycle < 2000 from hc))]
        · rw [hph]; exact fun k => k.1.elim nofun nofun
        · rw [hph]; exact fun k => nomatch k.1
      · obtain ⟨h1, h2, h3⟩ := h.lost (cause := .noDone) (by
          rw [hwin, if_neg (by rw [hdone]; decide), if_pos (Nat.le_of_eq (hcount 2000 hc (by decide)).symm)])
        refine ⟨_, exec_released (f := losingSlot .noDone k.chan (some w)) rfl hheld, ?_⟩
        rw [h1]
        exact ⟨h2, h3⟩
      · intro seen
        have hx : answerWindows s.hbc.cycle q (goodHead s k) e (.good w) = ⟨goodHead s k, some seen, false, none⟩ := by
          rw [hwin, if_pos hdone, if_neg (by rw [ha]; decide)]
        refine ⟨fun ho => ?_, fun ho hr => ⟨fun hw => ?_, fun hw => ?_⟩⟩
        · exact h.goesOn hds hx h.on (.inr (.inr fun k => ho k.2)) (fun k => nomatch k.1)
        · refine ⟨_, h.asks hds hx ha hr rfl rfl ho hw, fun j => ?_⟩
          rw [PerRef.get_map, show askDone = _ from funext askDone_eq]
        · obtain ⟨t, t1, t2, t3, t4, t5, t6, t7⟩ := h.abandons hx ha hr rfl ho hw
          refine ⟨t, t1, t2, t3, ?_, t5, t6, t7⟩
          rw [t4]
          exact congrArg (fun st => some (⟨st, some w⟩ : SlotRecord)) hst
      · exact h.finishes hds ha (by rw [hwin, if_pos hdone, if_pos ha])
    · have h := hbusy hst
      have hwin := answerWindows_status (now := s.hbc.cycle) (q := q) (hd := goodHead s k) (w := w) hph hfc
      intro n told
      have hn : ∀ m : Nat, n = BitVec.ofNat 32 m → m < 2 ^ 32 → cyclesFrom f s.hbc.cycle = m := fun m hm hlt => cyclesFrom_eq hm hlt
      have hopenWindow : n = 1 ∨ n = 2 → ¬ cyclesFrom f s.hbc.cycle = 0 ∧ cyclesFrom f s.hbc.cycle ≤ 2 := fun hc => by
        rcases hc with hc | hc
        · rw [hn 1 hc (by decide)]; decide
        · rw [hn 2 hc (by decide)]; decide
      refine ⟨fun hds hc => ?_, fun hc hstat => ?_, fun hc hstat ha hr hfetch => ?_, fun hds hc hstat ha => ?_⟩
      · refine h.goesOn hds (e' := e) ?_ h.on (.inr (.inr ?_)) ?_
        · rw [hwin]
          rcases hc with hc | ⟨hc, hstat⟩
          · exact if_pos (hn 0 hc (by decide))
          · rw [hn 1 hc (by decide), hstat] <;> rfl
        · rw [hph]; exact fun k => k.1.elim nofun nofun
        · rw [hph]; exact fun k => nomatch k.1
      · obtain ⟨h1, h2, h3⟩ := h.lost (cause := .noStatus) (by rw [hwin, hn 2 hc (by decide), hstat] <;> rfl)
        refine ⟨_, exec_released (f := losingSlot .noStatus k.chan (some w)) rfl hheld, ?_⟩
        rw [h1]
        exact ⟨h2, h3⟩
      · obtain ⟨h0, h2⟩ := hopenWindow hc
        exact h.answers (by rw [hwin, if_neg h0, if_pos ⟨h2, hstat⟩, if_neg (by rw [ha]; decide)]) ha hr hfetch
      · obtain ⟨h0, h2⟩ := hopenWindow hc
        exact h.finishes hds ha (by rw [hwin, if_neg h0, if_pos ⟨h2, hstat⟩, if_pos ha])

end Sys2Proof.Machine
end

section
/-! PROOFS. What the moves leave of a carriage with no traverse in progress, and the choice of motion at a traverse end (R13 … R15, R17,
R20). -/

namespace Sys2Proof.Machine

open Safety

/-! ### Moves outside a traverse (R22, R86) -/

/-- A move with no traverse to abort: the EBM and the retraverse owed stay, and with no grade pending the recipes, the alarm table
and the filter. -/
structure Onward (s t : State) : Prop where
  ebm : t.ebm = s.ebm
  retraverse : t.cmu.retraverseOwed = s.cmu.retraverseOwed
  ungraded : s.rbs.pending = none → t.rbs = s.rbs ∧ t.alt = s.alt ∧ t.pen.filter = s.pen.filter

theorem Onward.refl (s : State) : Onward s s := ⟨rfl, rfl, fun _ => ⟨rfl, rfl, rfl⟩⟩

theorem Onward.trans {s t u : State} (h : Onward s t) (k : Onward t u) : Onward s u := by
  refine ⟨k.ebm.trans h.ebm, k.retraverse.trans h.retraverse, fun hp => ?_⟩
  obtain ⟨h1, h2, h3⟩ := h.ungraded hp
  obtain ⟨k1, k2, k3⟩ := k.ungraded (by rw [h1]; exact hp)
  exact ⟨k1.trans h1, k2.trans h2, k3.trans h3⟩

theorem onward_withCmu (s : State) (x : Cmu) (h : x.retraverseOwed = s.cmu.retraverseOwed := by rfl) : Onward s (s.withCmu x) :=
  ⟨rfl, h, fun _ => ⟨rfl, rfl, rfl⟩⟩

theorem onward_withDrive (s : State) (x : Drive) : Onward s (s.withDrive x) := ⟨rfl, rfl, fun _ => ⟨rfl, rfl, rfl⟩⟩

theorem onward_withOsq (s : State) (x : Osq) : Onward s (s.withOsq x) := ⟨rfl, rfl, fun _ => ⟨rfl, rfl, rfl⟩⟩

theorem onward_travel (st : CarriageState) (x : Int) (d : Dir) (a : Approach) (v : Nat) (s : State) :
    Onward s (travel st x d a v s) := ⟨rfl, rfl, fun _ => ⟨rfl, rfl, rfl⟩⟩

theorem onward_enterTurning (d : Dir) (s : State) : Onward s (enterTurning d s) := ⟨rfl, rfl, fun _ => ⟨rfl, rfl, rfl⟩⟩

theorem onward_computeLimits (s : State) : Onward s (computeLimits s) := onward_withCmu s _

theorem onward_comeToRest (st : CarriageState) (s : State) : Onward s (comeToRest st s) := ⟨rfl, rfl, fun _ => ⟨rfl, rfl, rfl⟩⟩

theorem onward_arriveStd (s : State) : Onward s (arriveStd s) := (onward_comeToRest _ s).trans (onward_withOsq _ _)

theorem onward_applyPendingGrade (s : State) : Onward s (applyPendingGrade s) := by
  obtain ⟨hcmu, _, _, hebm, _⟩ := applyPendingGrade_keeps s
  refine ⟨hebm, by rw [hcmu], fun hp => ?_⟩
  rw [applyPendingGrade, hp]
  exact ⟨rfl, rfl, rfl⟩

theorem onward_applyPendingPlan (s : State) : Onward s (applyPendingPlan s) := by
  obtain ⟨hpen, hebm, hrbs, hcmu⟩ := applyPendingPlan_blocks s
  exact ⟨hebm, by rw [hcmu], fun _ => ⟨hrbs, applyPendingPlan_alt s, by rw [hpen]⟩⟩

theorem onward_rested (st : CarriageState) (s : State) : Onward s (rested st s) :=
  ((onward_comeToRest st s).trans (onward_applyPendingGrade _)).trans (onward_applyPendingPlan _)

theorem onward_goStd (s : State) : Onward s (goStd s) := by
  unfold goStd
  dsimp only
  split
  · exact (onward_travel ..).trans (onward_arriveStd _)
  · exact onward_travel ..

theorem onward_openStd (s : State) : Onward s (openStd s) := by
  obtain ⟨h, e, _⟩ := dropArmed_fields s.cmu
  unfold openStd
  rw [e]
  exact (onward_withCmu s _).trans (onward_withOsq _ _)

theorem onward_beginStd (s : State) : Onward s (beginStd s) := (onward_openStd s).trans (onward_goStd _)

theorem abortTraverse_none {s : State} (h : s.cmu.inTraverse = false) : abortTraverse s = s :=
  if_neg (by rw [h]; decide)

theorem onward_takeStd {s : State} (h : s.cmu.inTraverse = false) : Onward s (takeStd s) := by
  unfold takeStd
  rw [abortTraverse_none h]
  exact onward_beginStd s

theorem onward_goLimit (s : State) : Onward s (goLimit s) := by
  refine (onward_computeLimits s).trans ?_
  simp only [goLimit]
  split
  · exact onward_travel ..
  split
  · exact onward_travel ..
  split
  · exact onward_enterTurning ..
  split
  · exact onward_enterTurning ..
  split
  · exact onward_travel ..
  · exact onward_travel ..

theorem inTraverse_of_chosen {c : Cmu} (h : c.state ∈ chosenStates) : c.inTraverse = false := by
  unfold Cmu.inTraverse
  revert h
  cases c.state <;> simp [chosenStates]

theorem rested_aside {st : CarriageState} (s : State) (h : st ∈ chosenStates) : (rested st s).cmu.inTraverse = false :=
  inTraverse_of_chosen (by rw [(rested_cmu st s).1]; exact h)

theorem onward_goPark {next : State → State} (hn : ∀ u, u.cmu.inTraverse = false → Onward u (next u)) (s : State) :
    Onward s (goPark next s) := by
  unfold goPark
  split
  · exact Onward.refl s
  · dsimp only
    split
    · exact (onward_travel ..).trans ((onward_rested .parked _).trans (hn _ (rested_aside _ (by decide))))
    · exact onward_travel ..

theorem onward_arriveFixed {next : State → State} (hn : ∀ u, u.cmu.inTraverse = false → Onward u (next u)) (s : State) :
    Onward s (arriveFixed next s) := by
  have hin : (rested .fixed s).cmu.inTraverse = false := rested_aside s (by decide)
  refine (onward_rested .fixed s).trans ?_
  unfold arriveFixed
  dsimp only
  split
  · exact onward_takeStd hin
  split
  · exact Onward.refl _
  · exact hn _ hin

theorem onward_goFixed {next : State → State} (hn : ∀ u, u.cmu.inTraverse = false → Onward u (next u)) (s : State) :
    Onward s (goFixed next s) := by
  unfold goFixed
  dsimp only
  split
  · exact (onward_travel ..).trans (onward_arriveFixed hn _)
  · exact onward_travel ..

theorem onward_nextMotion (n : Nat) {s : State} (h : s.cmu.inTraverse = false) : Onward s (nextMotion n s) := by
  induction n generalizing s with
  | zero => exact Onward.refl s
  | succ n ih =>
    unfold nextMotion
    split
    · exact onward_takeStd h
    split
    · exact onward_goPark (fun _ => ih) s
    split
    · exact onward_goPark (fun _ => ih) s
    · exact onward_goFixed (fun _ => ih) s
    · exact onward_goLimit s

theorem onward_turnaround (s : State) : Onward s (turnaround s) := by
  refine (onward_computeLimits s).trans ?_
  simp only [turnaround]
  split
  · split
    · exact onward_enterTurning ..
    · exact onward_goLimit _
  · split
    · exact onward_enterTurning ..
    · exact onward_goLimit _

theorem onward_holdAtLimit (s : State) : Onward s (holdAtLimit s) :=
  Onward.trans (t := want 0 (setCarriage .held (s.withCmu { s.cmu with hold := .none, turnOwed := true })))
    ⟨rfl, rfl, fun _ => ⟨rfl, rfl, rfl⟩⟩ (onward_applyPendingGrade _)

theorem onward_chooseAtEnd (s : State) : Onward s (chooseAtEnd s) := by
  unfold chooseAtEnd
  split
  · exact onward_beginStd s
  split
  · exact onward_holdAtLimit s
  split
  · exact onward_goPark (fun _ => onward_nextMotion motionBound) s
  · exact onward_goFixed (fun _ => onward_nextMotion motionBound) s
  · exact onward_turnaround s

theorem onward_takeOverride {s : State} (h : s.cmu.inTraverse = false) : Onward s (takeOverride s) := by
  have h1 : Onward s (s.withCmu { s.cmu with overrideWait := 0 }) := onward_withCmu s _
  refine h1.trans ?_
  unfold takeOverride
  dsimp only
  split
  · rw [abortTraverse_none (s := s.withCmu { s.cmu with overrideWait := 0 }) h]
    exact (onward_withCmu _ _).trans (onward_goPark (fun _ => onward_nextMotion motionBound) _)
  · exact Onward.refl _

end Sys2Proof.Machine
end

section
/-! PROOFS. The choice of motion at a traverse end, and the override taken after it (R12, R17, R20). -/

namespace Sys2Proof.Machine

open Safety

/-! ### The limits and the turnaround (R12, R17) -/

/-- R12: the limits are at least 1,000 apart. -/
theorem widenLimits_apart (pMax lf lb : Int) : (widenLimits pMax lf lb).1 + 1000 ≤ (widenLimits pMax lf lb).2 := by
  unfold widenLimits
  split
  · dsimp only
    split
    · dsimp only; omega
    split
    · dsimp only; omega
    · dsimp only; omega
  · dsimp only; omega

theorem limitsOf_apart (s : State) : (limitsOf s).1 + 1000 ≤ (limitsOf s).2 := widenLimits_apart _ _ _

/-- Where a traverse end under a plan SCAN sends a carriage at `pos` that moved in direction `d`, with the limits `f` and `b` and the
scan speed `v` (R14, R17). -/
structure Turned (d : Dir) (pos f b v : Int) (t : State) : Prop where
  fwdAway : d = .fwd → f < pos → t.cmu.state = .turning ∧ t.cmu.travelDir = .rev ∧ t.drive.wanted = -v
  revAway : d = .rev → pos < b → t.cmu.state = .turning ∧ t.cmu.travelDir = .fwd ∧ t.drive.wanted = v
  fwdShort : d = .fwd → pos ≤ f → t.cmu.travelDir = .fwd ∧ t.drive.wanted = v ∧
    t.cmu.state = if pos < f then .toLimit else .turning
  revShort : d = .rev → b ≤ pos → f < pos → t.cmu.travelDir = .rev ∧ t.drive.wanted = -v ∧
    t.cmu.state = if b < pos then .toLimit else .turning

theorem dirSign_fwd_mul (v : Int) : dirSign .fwd * v = v := Int.one_mul v
theorem dirSign_rev_mul (v : Int) : dirSign .rev * v = -v := by simp [dirSign]

/-- A carriage not past the front limit is sent FWD to it. -/
theorem goLimit_fwd {s : State} (h : s.cmu.position ≤ (limitsOf s).1) : (goLimit s).cmu.travelDir = .fwd ∧
    (goLimit s).drive.wanted = s.scanSpeed ∧
    (goLimit s).cmu.state = if s.cmu.position < (limitsOf s).1 then .toLimit else .turning := by
  have hapart := limitsOf_apart s
  have e : goLimit s = if s.cmu.position < (limitsOf s).1
      then travel .toLimit (limitsOf s).1 .fwd .outside s.scanSpeed (computeLimits s)
      else enterTurning .fwd (computeLimits s) := by
    show (if s.cmu.position < (limitsOf s).1 then _ else if (limitsOf s).2 < s.cmu.position then _
      else if s.cmu.position = (limitsOf s).1 then _ else _) = _
    by_cases hlt : s.cmu.position < (limitsOf s).1
    · rw [if_pos hlt, if_pos hlt] <;> rfl
    · rw [if_neg hlt, if_neg hlt, if_neg (by omega), if_pos (by omega)]
  rw [e]
  by_cases hlt : s.cmu.position < (limitsOf s).1
  · rw [if_pos hlt, if_pos hlt]
    exact ⟨rfl, dirSign_fwd_mul _, rfl⟩
  · rw [if_neg hlt, if_neg hlt]
    exact ⟨rfl, dirSign_fwd_mul _, rfl⟩

/-- A carriage not past the back limit and past the front one is sent REV to it. -/
theorem goLimit_rev {s : State} (h : (limitsOf s).2 ≤ s.cmu.position) : (goLimit s).cmu.travelDir = .rev ∧
    (goLimit s).drive.wanted = -(s.scanSpeed : Int) ∧
    (goLimit s).cmu.state = if (limitsOf s).2 < s.cmu.position then .toLimit else .turning := by
  have hapart := limitsOf_apart s
  have e : goLimit s = if (limitsOf s).2 < s.cmu.position
      then travel .toLimit (limitsOf s).2 .rev .outside s.scanSpeed (computeLimits s)
      else enterTurning .rev (computeLimits s) := by
    show (if s.cmu.position < (limitsOf s).1 then _ else if (limitsOf s).2 < s.cmu.position then _
      else if s.cmu.position = (limitsOf s).1 then _ else if s.cmu.position = (limitsOf s).2 then _ else _) = _
    rw [if_neg (by omega)]
    by_cases hlt : (limitsOf s).2 < s.cmu.position
    · rw [if_pos hlt, if_pos hlt] <;> rfl
    · rw [if_neg hlt, if_neg hlt, if_neg (by omega), if_pos (by omega)]
  rw [e]
  by_cases hlt : (limitsOf s).2 < s.cmu.position
  · rw [if_pos hlt, if_pos hlt]
    exact ⟨rfl, dirSign_rev_mul _, rfl⟩
  · rw [if_neg hlt, if_neg hlt]
    exact ⟨rfl, dirSign_rev_mul _, rfl⟩

theorem turnaround_fwd {s : State} (h : s.cmu.direction = .fwd) : turnaround s =
    if (limitsOf s).1 < s.cmu.position then enterTurning .rev (computeLimits s) else goLimit (computeLimits s) := by
  show (match s.cmu.direction with | .fwd => _ | .rev => _) = _
  rw [h] <;> rfl

theorem turnaround_rev {s : State} (h : s.cmu.direction = .rev) : turnaround s =
    if s.cmu.position < (limitsOf s).2 then enterTurning .fwd (computeLimits s) else goLimit (computeLimits s) := by
  show (match s.cmu.direction with | .fwd => _ | .rev => _) = _
  rw [h] <;> rfl

/-- R17.5: the turnaround. -/
theorem turnaround_turned (s : State) :
    Turned s.cmu.direction s.cmu.position (limitsOf s).1 (limitsOf s).2 s.scanSpeed (turnaround s) := by
  refine ⟨fun hd h => ?_, fun hd h => ?_, fun hd h => ?_, fun hd h _ => ?_⟩
  · rw [turnaround_fwd hd, if_pos h]
    exact ⟨rfl, rfl, dirSign_rev_mul _⟩
  · rw [turnaround_rev hd, if_pos h]
    exact ⟨rfl, rfl, dirSign_fwd_mul _⟩
  · rw [turnaround_fwd hd, if_neg (by omega)]
    exact goLimit_fwd (s := computeLimits s) h
  · rw [turnaround_rev hd, if_neg (by omega)]
    exact goLimit_rev (s := computeLimits s) h

/-! ### The choice (R17) -/

/-- R13, R15: TO_PARK under a plan PARK, or under an override that is taken, with no standardization to take. -/
theorem goPark_still {n : Nat} {s : State} (hp : s.cta.pending = none) (hstd : nothingDue s)
    (h : s.overrideTaken = true ∨ s.cmu.plan.mode = .park) :
    (goPark (nextMotion n) s).cmu.state =
      if s.cmu.state = .parked ∨ s.cmu.position = s.rbs.common.parkPos then .parked else .toPark := by
  unfold goPark
  by_cases hst : s.cmu.state = .parked
  · rw [if_pos hst, if_pos (.inl hst), hst]
  rw [if_neg hst]
  dsimp only
  rw [travel_position]
  by_cases hpos : s.cmu.position = s.rbs.common.parkPos
  · rw [if_pos hpos, if_pos (Or.inr hpos), arriveParked_eq]
    obtain ⟨w, hw⟩ : ∃ w, travel .toPark s.rbs.common.parkPos (toward s.cmu.position s.rbs.common.parkPos) .outside
        s.rbs.common.maxSpeed s = w := ⟨_, rfl⟩
    have hwp : w.cta.pending = none := by rw [← hw]; exact hp
    obtain ⟨r, hr⟩ : ∃ r, rested .parked w = r := ⟨_, rfl⟩
    obtain ⟨hcmu, _⟩ := rested_cmu .parked w
    have hosq := rested_osq (st := .parked) hwp
    have hover := (motion_rested .parked w).override
    rw [hr] at hcmu hosq hover
    have hparked : r.cmu.state = .parked := by rw [hcmu]
    have hfree : osqTakes r = false := nothingDue.not_takes (by unfold nothingDue; rw [hosq, ← hw]; exact hstd)
    have hplan : r.cmu.plan = s.cmu.plan := by rw [hcmu, hwp, ← hw]; rfl
    have htaken : r.overrideTaken = s.overrideTaken := by
      unfold State.overrideTaken
      rw [hover, hcmu, ← hw] <;> rfl
    rw [hw, hr]
    cases n with
    | zero => exact hparked
    | succ n =>
      have hstay : goPark (nextMotion n) r = r := if_pos hparked
      unfold nextMotion
      rw [if_neg (by rw [hfree]; decide), htaken, hplan, hstay]
      split
      · exact hparked
      · next hno =>
        rw [h.resolve_left hno]
        exact hparked
  · rw [if_neg hpos, if_neg (not_or.2 ⟨hst, hpos⟩), travel_state]

/-- R47, R48: where a standardization sends a carriage with no traverse in progress. -/
theorem beginStd_goes (s : State) : (beginStd s).cmu.state = (if s.cmu.position = s.rbs.common.stdPos then .atStd else .toStd) ∧
    (beginStd s).osq.step = (if s.cmu.position = s.rbs.common.stdPos then .settle else .travel) ∧
    (beginStd s).cmu.overrideWait = 0 ∧ (isArmed s.cmu.hold = true → (beginStd s).cmu.hold = .none) := by
  obtain ⟨h, e, _, harmed⟩ := dropArmed_fields s.cmu
  have hpos : (openStd s).cmu.position = s.cmu.position := by rw [openStd, e] <;> rfl
  have hhold : (openStd s).cmu.hold = (dropArmed s.cmu).hold := rfl
  have hdrop : isArmed s.cmu.hold = true → (dropArmed s.cmu).hold = .none := fun k => by
    obtain ⟨x, hx⟩ := (isArmed_iff _).1 k
    unfold dropArmed
    rw [hx]
  unfold beginStd goStd
  dsimp only
  rw [travel_position, hpos, show (openStd s).rbs = s.rbs from rfl]
  by_cases hat : s.cmu.position = s.rbs.common.stdPos
  · rw [if_pos hat, if_pos hat, if_pos hat]
    exact ⟨rfl, rfl, rfl, hdrop⟩
  · rw [if_neg hat, if_neg hat, if_neg hat]
    exact ⟨rfl, rfl, rfl, hdrop⟩

end Sys2Proof.Machine
end

section
/-! PROOFS. The motion after a traverse end, with the override that waited for it (R17, R20, R22). -/

namespace Sys2Proof.Machine

open Safety

/-- The state with an override that is still untaken taken (R20, R22). -/
def heeded (s : State) : State := if s.cmu.overrideUntaken then takeOverride s else s

theorem heeded_untaken {s : State} (h : s.cmu.overrideUntaken = true) : heeded s = takeOverride s := if_pos h

theorem heeded_taken {s : State} (h : s.cmu.overrideUntaken = false) : heeded s = s := if_neg (by rw [h]; decide)

theorem flushOverride_heeded (s : State) : ∃ d : Drive, (flushOverride s).settleDrive = (heeded s).withDrive d ∧
    d.wanted = (heeded s).drive.wanted := by
  unfold flushOverride heeded
  split
  · exact ⟨_, rfl, (Drive.settle_wanted (takeOverride s).drive.settle).trans (Drive.settle_wanted _)⟩
  · exact ⟨_, rfl, Drive.settle_wanted _⟩

theorem motion_heeded (s : State) : Motion s (heeded s) := by
  unfold heeded
  split
  · exact motion_takeOverride s
  · exact Motion.refl s

theorem onward_heeded {s : State} (h : s.cmu.inTraverse = false) : Onward s (heeded s) := by
  unfold heeded
  split
  · exact onward_takeOverride h
  · exact Onward.refl s

theorem takeOverride_wait (s : State) : (takeOverride s).cmu.overrideWait = 0 := by
  have h : ∀ u : State, u.cmu.overrideWait = 0 → (goPark nextMove u).cmu.overrideWait = 0 := fun u hu =>
    Nat.eq_zero_of_le_zero (hu ▸ (motion_goPark motion_nextMove u).wait)
  unfold takeOverride
  dsimp only
  split
  · refine h _ ?_
    show (abortTraverse _).cmu.overrideWait = 0
    rw [abortTraverse_cmu]
    split <;> rfl
  · rfl

theorem heeded_wait (s : State) : (heeded s).cmu.overrideWait = 0 := by
  cases h : s.cmu.overrideUntaken with
  | true => rw [heeded_untaken h]; exact takeOverride_wait s
  | false => rw [heeded_taken h]; exact (overrideUntaken_eq_false _).1 h

/-- R20: an override taken outside a traverse sends a moving carriage TO_PARK, with no standardization to take. -/
theorem takeOverride_parks {s : State} (ho : s.override = true) (hm : overrideMoves s.cmu.state = true)
    (hin : s.cmu.inTraverse = false) (hp : s.cta.pending = none) (hstd : nothingDue s) : (takeOverride s).cmu.state =
      if s.cmu.position = s.rbs.common.parkPos then .parked else .toPark := by
  obtain ⟨u, hu⟩ : ∃ u, s.withCmu { s.cmu with overrideWait := 0, hold := .none, turnOwed := false } = u := ⟨_, rfl⟩
  have hover : (s.withCmu { s.cmu with overrideWait := 0 }).override = true := ho
  have hmoves : overrideMoves (s.withCmu { s.cmu with overrideWait := 0 }).cmu.state = true := hm
  have e : takeOverride s = goPark (nextMotion motionBound) u := by
    unfold takeOverride
    dsimp only
    rw [hover, hmoves, Bool.and_self, if_pos rfl,
      abortTraverse_none (s := s.withCmu { s.cmu with overrideWait := 0 }) hin, ← hu] <;> rfl
  have htaken : u.overrideTaken = true := by
    rw [← hu]
    show (s.override && true) = true
    rw [ho, Bool.and_true]
  have hstate : u.cmu.state ≠ .parked := by
    rw [← hu]
    intro k
    rw [show s.cmu.state = .parked from k] at hm
    exact Bool.false_ne_true hm
  rw [e, goPark_still (by rw [← hu]; exact hp) (by rw [← hu]; exact hstd) (.inl htaken)]
  refine (if_congr (or_iff_right hstate) rfl rfl).trans ?_
  rw [← hu] <;> rfl

/-- R20: an override taken by a carriage on its way to park, or there, leaves its state. -/
theorem heeded_parking {s : State} (h : s.cmu.state ∈ [CarriageState.parked, .toPark]) : (heeded s).cmu.state = s.cmu.state := by
  have hm : overrideMoves s.cmu.state = false := by rcases List.mem_pair.1 h with e | e <;> rw [e] <;> rfl
  unfold heeded
  split
  · rw [takeOverride_stays hm] <;> rfl
  · rfl

theorem chooseAtEnd_aside (s : State) : (chooseAtEnd s).cmu.inTraverse = false := by
  have hn : ∀ u : State, u.cmu.state ∈ chosenStates → (nextMove u).cmu.state ∈ chosenStates := fun u _ => nextMove_chosen u
  unfold chooseAtEnd
  split
  · refine inTraverse_of_chosen ?_
    rw [(beginStd_goes s).1]
    split <;> decide
  split
  · unfold holdAtLimit
    rw [(applyPendingGrade_keeps _).1] <;> rfl
  refine inTraverse_of_chosen ?_
  split
  · exact goPark_chosen hn s
  · exact goFixed_chosen hn s
  · rcases List.mem_pair.1 (turnaround_state s) with e | e <;> rw [e] <;> decide

theorem undue_turnaround {s : State} (hp : s.cta.pending = none) : Undue s (turnaround s) := by
  have hg : Undue s (goLimit (computeLimits s)) := by
    obtain ⟨h1, h2, h3, h4⟩ := undue_goLimit (s := computeLimits s) hp
    exact ⟨h1, h2, h3, h4⟩
  have ht : ∀ d, Undue s (enterTurning d (computeLimits s)) := fun d =>
    ⟨rfl, rfl, hp, (by decide : CarriageState.turning ∉ stdStates)⟩
  unfold turnaround
  dsimp only
  split
  · split
    · exact ht _
    · exact hg
  · split
    · exact ht _
    · exact hg

/-- R17: with no standardization to take none is begun by the choice. -/
theorem undue_chooseAtEnd {s : State} (hp : s.cta.pending = none) (hd : nothingDue s) : Undue s (chooseAtEnd s) := by
  have hnext : ∀ u : State, Undue s u → Undue s (nextMove u) := fun u hu =>
    hu.trans (undue_nextMotion hu.pending (by unfold nothingDue; rw [hu.osq]; exact hd) (.inr hu.away))
  unfold chooseAtEnd
  rw [if_neg (by rw [hd.not_takes]; decide)]
  split
  · obtain ⟨hcmu, _, hosq, _, hcta, _⟩ := applyPendingGrade_keeps
      (want 0 (setCarriage .held (s.withCmu { s.cmu with hold := .none, turnOwed := true })))
    unfold holdAtLimit
    exact ⟨hosq, by rw [hcmu] <;> rfl, by rw [hcta]; exact hp, by rw [hcmu]; exact (by decide : CarriageState.held ∉ stdStates)⟩
  split
  · exact undue_goPark hp hnext
  · exact undue_goFixed hp hd hnext
  · exact undue_turnaround hp

/-- R17: the choice with no standardization to take and no hold armed, by the plan. -/
theorem chooseAtEnd_planned {s : State} (hs : s.cmu.state = .traverse) (hp : s.cta.pending = none) (hd : nothingDue s)
    (ha : isArmed s.cmu.hold = false) :
    (s.cmu.plan.mode = .park →
      (chooseAtEnd s).cmu.state = if s.cmu.position = s.rbs.common.parkPos then .parked else .toPark) ∧
    (s.cmu.plan.mode = .fixed → (chooseAtEnd s).cmu.state =
      if s.cmu.position = (min s.cmu.plan.fixedPos s.rbs.common.pMax : Nat) then .fixed else .toFixed) ∧
    (s.cmu.plan.mode = .scan → chooseAtEnd s = turnaround s) := by
  have e : chooseAtEnd s = match s.cmu.plan.mode with
      | .park => goPark nextMove s
      | .fixed => goFixed nextMove s
      | .scan => turnaround s := by
    unfold chooseAtEnd
    rw [if_neg (by rw [hd.not_takes]; decide), if_neg (by rw [ha]; decide)] <;> rfl
  refine ⟨fun hm => ?_, fun hm => ?_, fun hm => ?_⟩
  · rw [e, hm]
    show (goPark (nextMotion motionBound) s).cmu.state = _
    rw [goPark_still hp hd (.inr hm)]
    exact if_congr (or_iff_right fun k => by rw [hs] at k; cases k) rfl rfl
  · rw [e, hm]
    exact goFixed_free hp hm hd
  · rw [e, hm]

theorem chooseAtEnd_armed {s : State} (hd : nothingDue s) (ha : isArmed s.cmu.hold = true) :
    (chooseAtEnd s).cmu.state = .held ∧ (chooseAtEnd s).cmu.turnOwed = true ∧ (chooseAtEnd s).drive.wanted = 0 ∧
    (chooseAtEnd s).cmu.hold = .none := by
  have e : chooseAtEnd s = holdAtLimit s := by
    unfold chooseAtEnd
    rw [if_neg (by rw [hd.not_takes]; decide), if_pos ha]
  rw [e]
  unfold holdAtLimit
  rw [(applyPendingGrade_keeps _).1, (applyPendingGrade_keeps _).2.1]
  exact ⟨rfl, rfl, rfl, rfl⟩

/-- R17: what the choice and an override taken after it leave. -/
structure EndChosen (c v : State) : Prop where
  hold : isArmed c.cmu.hold = true → v.cmu.hold = .none
  takes : osqTakes c = true → v.cmu.state = (if c.cmu.position = c.rbs.common.stdPos then .atStd else .toStd) ∧
    v.osq.step = if c.cmu.position = c.rbs.common.stdPos then .settle else .travel
  parks : nothingDue c → c.cmu.overrideUntaken = true →
    v.cmu.state = if c.cmu.position = c.rbs.common.parkPos then .parked else .toPark
  held : nothingDue c → c.override = false → isArmed c.cmu.hold = true →
    v.cmu.state = .held ∧ v.cmu.turnOwed = true ∧ v.drive.wanted = 0
  park : nothingDue c → c.override = false → isArmed c.cmu.hold = false → c.cmu.plan.mode = .park →
    v.cmu.state = if c.cmu.position = c.rbs.common.parkPos then .parked else .toPark
  fixed : nothingDue c → c.override = false → isArmed c.cmu.hold = false → c.cmu.plan.mode = .fixed →
    v.cmu.state = if c.cmu.position = (min c.cmu.plan.fixedPos c.rbs.common.pMax : Nat) then .fixed else .toFixed
  scan : nothingDue c → c.override = false → isArmed c.cmu.hold = false → c.cmu.plan.mode = .scan → v = turnaround c

theorem takeOverride_noHold {s : State} (h : s.cmu.hold = .none) : (takeOverride s).cmu.hold = .none := by
  unfold takeOverride
  dsimp only
  split
  · exact keptByMoves_noHold.goPark keptByMoves_noHold.nextMove rfl
  · exact h

/-- R20, R22: an override that waited is taken after the choice, and parks the carriage. -/
theorem chooseAtEnd_parks {c : State} (hs : c.cmu.state = .traverse) (hp : c.cta.pending = none) (ho : c.override = true)
    (hd : nothingDue c) (hu : (chooseAtEnd c).cmu.overrideUntaken = true) : (heeded (chooseAtEnd c)).cmu.state =
      if c.cmu.position = c.rbs.common.parkPos then .parked else .toPark := by
  have hm := motion_chooseAtEnd c
  obtain ⟨w, hw⟩ : ∃ w, chooseAtEnd c = w := ⟨_, rfl⟩
  have hmoves : overrideMoves w.cmu.state = true → (heeded w).cmu.state =
      if c.cmu.position = c.rbs.common.parkPos then .parked else .toPark := fun k => by
    have hosq := (undue_chooseAtEnd hp hd).osq
    have hin := chooseAtEnd_aside c
    rw [hw] at hosq hm hin hu
    rw [heeded_untaken hu, takeOverride_parks (hm.override.trans ho) k hin (hm.plan hp).1
      (by unfold nothingDue; rw [hosq]; exact hd), hm.position, hm.common]
  rw [hw]
  cases ha : isArmed c.cmu.hold with
  | true => exact hmoves (by rw [← hw, (chooseAtEnd_armed hd ha).1]; rfl)
  | false =>
    obtain ⟨hpark, hfixed, hscan⟩ := chooseAtEnd_planned hs hp hd ha
    rw [hw] at hpark hfixed hscan
    cases hmode : c.cmu.plan.mode with
    | park =>
      have hpark := hpark hmode
      rw [heeded_parking ?_, hpark]
      rw [hpark]
      split <;> decide
    | fixed =>
      refine hmoves ?_
      rw [hfixed hmode]
      split <;> rfl
    | scan =>
      refine hmoves ?_
      rw [hscan hmode]
      rcases List.mem_pair.1 (turnaround_state c) with e | e <;> rw [e] <;> rfl

theorem chooseAtEnd_chosen {c : State} (hs : c.cmu.state = .traverse) (hp : c.cta.pending = none)
    (ho : c.cmu.overrideUntaken = true → c.override = true) : EndChosen c (heeded (chooseAtEnd c)) := by
  have hm := motion_chooseAtEnd c
  have hfree : c.override = false → heeded (chooseAtEnd c) = chooseAtEnd c := fun h => by
    have hu : c.cmu.overrideUntaken = false := Bool.eq_false_iff.2 fun k => by rw [ho k] at h; cases h
    exact heeded_taken ((overrideUntaken_eq_false _).2 (Nat.eq_zero_of_le_zero ((overrideUntaken_eq_false _).1 hu ▸ hm.wait)))
  have hstd : osqTakes c = true → heeded (chooseAtEnd c) = beginStd c := fun h => by
    have e : chooseAtEnd c = beginStd c := if_pos h
    rw [e]
    exact heeded_taken ((overrideUntaken_eq_false _).2 (beginStd_goes c).2.2.1)
  refine ⟨fun ha => ?_, fun h => ?_, fun hd hu => ?_, fun hd h ha => ?_, fun hd h ha hmode => ?_, fun hd h ha hmode => ?_,
    fun hd h ha hmode => ?_⟩
  · cases h : osqTakes c with
    | true => rw [hstd h]; exact (beginStd_goes c).2.2.2 ha
    | false =>
      have e : chooseAtEnd c = holdAtLimit c := by
        unfold chooseAtEnd
        rw [if_neg (by rw [h]; decide), if_pos ha]
      have hn : (holdAtLimit c).cmu.hold = .none := by
        unfold holdAtLimit
        rw [(applyPendingGrade_keeps _).1] <;> rfl
      rw [e]
      unfold heeded
      split
      · exact takeOverride_noHold hn
      · exact hn
  · rw [hstd h]
    exact ⟨(beginStd_goes c).1, (beginStd_goes c).2.1⟩
  · refine chooseAtEnd_parks hs hp (ho hu) hd ?_
    unfold Cmu.overrideUntaken
    rw [(undue_chooseAtEnd hp hd).wait]
    exact hu
  · obtain ⟨h1, h2, h3, _⟩ := chooseAtEnd_armed hd ha
    rw [hfree h]
    exact ⟨h1, h2, h3⟩
  · rw [hfree h]
    exact (chooseAtEnd_planned hs hp hd ha).1 hmode
  · rw [hfree h]
    exact (chooseAtEnd_planned hs hp hd ha).2.1 hmode
  · rw [hfree h]
    exact (chooseAtEnd_planned hs hp hd ha).2.2 hmode

end Sys2Proof.Machine
end

section
/-! PROOFS. What a publication tells the ports, and what it makes of the alarm points, the edges and the machine monitor (R96 … R98,
R148, R151, R172). -/

namespace Sys2Proof.Machine

open Safety

/-! ### Notices, and the points that move -/

/-- The ports are reached by notices alone, and no point but the listed ones changes its state. -/
structure Told (is : List PointNo) (s t : State) : Prop where
  ports : ∀ p, Noticed (s.ports.get p) (t.ports.get p)
  points : ∀ i : PointNo, i ∉ is → (t.alt.points[i]).state = (s.alt.points[i]).state

theorem Told.of_same {is : List PointNo} {s t : State} (hp : t.ports = s.ports := by rfl) (ha : t.alt = s.alt := by rfl) :
    Told is s t := ⟨fun p => by rw [hp]; exact .refl _, fun _ _ => by rw [ha]⟩

theorem Told.trans {is : List PointNo} {s t u : State} (h : Told is s t) (k : Told is t u) : Told is s u :=
  ⟨fun p => (h.ports p).trans (k.ports p), fun i hi => (k.points i hi).trans (h.points i hi)⟩

theorem Told.mono {is js : List PointNo} {s t : State} (h : Told is s t) (hs : ∀ i ∈ is, i ∈ js) : Told js s t :=
  ⟨h.ports, fun i hi => h.points i fun k => hi (hs i k)⟩

theorem told_activate (s : State) (i : PointNo) : Told [i] s (s.activate i) :=
  ⟨activate_ports s i, fun _ hj => State.activate_other s fun e => hj (List.mem_singleton.2 e)⟩

theorem told_returnAlarm (s : State) (i : PointNo) : Told [i] s (s.returnAlarm i) :=
  ⟨(aside_returnAlarm s i).ports, fun _ hj => State.returnAlarm_other s fun e => hj (List.mem_singleton.2 e)⟩

theorem told_setAlarm (s : State) (i : PointNo) (on : Bool) : Told [i] s (s.setAlarm i on) := by
  unfold State.setAlarm
  split
  · exact told_activate s i
  · exact told_returnAlarm s i

theorem told_jumpAlarm (i : PointNo) (o : SideOutcome) (s : State) : Told [i] s (jumpAlarm i o s) := by
  cases o with
  | none => exact .of_same
  | accepted => exact told_returnAlarm s i
  | jump => exact told_activate s i

theorem told_trackEdges (s : State) : Told [ptEdgeJumpFront, ptEdgeJumpBack] s (trackEdges s) :=
  (Told.of_same (t := s.withEbm _)).trans (((told_jumpAlarm ptEdgeJumpFront _ _).mono (by simp)).trans
    ((told_jumpAlarm ptEdgeJumpBack _ _).mono (by simp)))

theorem told_returnHole (s : State) : Told [ptHole] s (returnHole s) := by
  unfold returnHole
  split
  · exact .of_same
  · exact told_returnAlarm s _

theorem told_unsuppressAll {is : List PointNo} (s : State) : Told is s s.unsuppressAll := by
  have h := settleAlarms_passed s.alarmCtx
    ({ s.alt with points := s.alt.points.map (fun p => { p with suppressed := false }) }, s.ports)
  exact ⟨h.ports, fun i _ => (h.state i).trans (by simp)⟩

theorem told_stateNotice {is : List PointNo} (new old : MachineState) (cause : StateCause) (s : State) :
    Told is s (stateNotice new old cause s) :=
  ⟨(stirred_stateNotice new old cause s).ports, fun _ _ => rfl⟩

/-- R151: the width test of a carriage that moves returns BREAK at the most. -/
theorem told_widthTest (g : Generation) {s : State}
    (h : s.msm.state = .thread → s.cmu.overrideUntaken = false ∧ s.cmu.state ≠ .parked) : Told [ptBreak] s (widthTest g s) := by
  unfold widthTest
  split
  · next ht =>
    obtain ⟨hw, hp⟩ := h ht.2
    split
    · split
      · exact .of_same
      · obtain ⟨n, hn⟩ : ∃ n, stateNotice .run s.msm.state .widthTest (s.withMsm (enteredMsm .run s)) = n := ⟨_, rfl⟩
        obtain ⟨ports, hports⟩ := stateNotice_ports .run s.msm.state .widthTest (s.withMsm (enteredMsm .run s))
        have hcmu : (n.returnAlarm ptBreak).unsuppressAll.cmu = s.cmu := by
          rw [State.unsuppressAll_cmu, State.returnAlarm_cmu, ← hn, hports] <;> rfl
        have hnotice : Told [ptBreak] s n := by
          rw [← hn]
          exact (Told.of_same (t := s.withMsm (enteredMsm .run s))).trans (told_stateNotice _ _ _ _)
        rw [changeState_run, hn, clearMsmSource_moving (by rw [hcmu]; exact hw) (by rw [hcmu]; exact hp)]
        exact hnotice.trans ((told_returnAlarm n ptBreak).trans ((told_unsuppressAll _).trans .of_same))
    · exact .of_same
  · exact .of_same

/-! ### The limits of the properties (R172) -/

/-- The three points of one property. -/
def propPoints (q : Prop4) : List PointNo := [ptHigh q, ptLow q, ptSpread q]

theorem mem_allProps (q : Prop4) : q ∈ allProps := by cases q <;> decide

theorem propPoints_disjoint {p q : Prop4} (h : p ≠ q) {i : PointNo} (hi : i ∈ propPoints q) : i ∉ propPoints p := by
  have all : ∀ p ∈ allProps, ∀ q ∈ allProps, p ≠ q → ∀ i ∈ propPoints q, i ∉ propPoints p := by decide
  exact all p (mem_allProps p) q (mem_allProps q) h i hi

theorem told_evaluateProp (b : GradeBank) (g : Generation) (s : State) (q : Prop4) :
    Told (propPoints q) s (evaluateProp b g s q) := by
  unfold evaluateProp
  dsimp only
  split
  · exact .of_same
  split
  · exact ((told_setAlarm s _ _).mono (by simp [propPoints])).trans (((told_setAlarm _ _ _).mono (by simp [propPoints])).trans
      ((told_setAlarm _ _ _).mono (by simp [propPoints])))
  · exact .of_same

/-- Properties evaluated one after another leave the points of another property. -/
theorem evaluateProps_others (b : GradeBank) (g : Generation) {q : Prop4} {i : PointNo} (hi : i ∈ propPoints q) :
    ∀ {l : List Prop4} (s : State), q ∉ l →
      (((l.foldl (evaluateProp b g) s).alt.points[i]).state = (s.alt.points[i]).state) := by
  intro l
  induction l with
  | nil => exact fun _ _ => rfl
  | cons p l ih =>
    intro s hq
    rw [List.mem_cons, not_or] at hq
    exact (ih _ hq.2).trans ((told_evaluateProp b g s p).points i (propPoints_disjoint (fun e => hq.1 e.symm) hi))

/-- The points of a property after all four are evaluated: what its own evaluation makes of them. -/
theorem evaluateProps_own (b : GradeBank) (g : Generation) (q : Prop4) (s : State) : ∃ u : State,
    (∀ i ∈ propPoints q, (u.alt.points[i]).state = (s.alt.points[i]).state) ∧
    ∀ i ∈ propPoints q, ((allProps.foldl (evaluateProp b g) s).alt.points[i]).state =
      ((evaluateProp b g u q).alt.points[i]).state := by
  obtain ⟨before, after, hl, h1, h2⟩ : ∃ before after, allProps = before ++ q :: after ∧ q ∉ before ∧ q ∉ after := by
    cases q with
    | bw => exact ⟨[], [.moi, .cal, .dry], rfl, by decide, by decide⟩
    | moi => exact ⟨[.bw], [.cal, .dry], rfl, by decide, by decide⟩
    | cal => exact ⟨[.bw, .moi], [.dry], rfl, by decide, by decide⟩
    | dry => exact ⟨[.bw, .moi, .cal], [], rfl, by decide, by decide⟩
  refine ⟨before.foldl (evaluateProp b g) s, fun i hi => evaluateProps_others b g hi s h1, fun i hi => ?_⟩
  rw [hl, List.foldl_append, List.foldl_cons]
  exact evaluateProps_others b g hi _ h2

theorem evaluateProp_poor {b : GradeBank} {g : Generation} {s : State} {q : Prop4} (h : (g.stats.get q).poor = true) :
    evaluateProp b g s q = s := if_pos h

/-- A point follows a condition. -/
def pointFollows (t : State) (i : PointNo) (exceeded : Prop) : Prop :=
  (exceeded → alarmActive t i) ∧ (¬exceeded → (t.alt.points[i]).state ∈ [PointState.normal, .returnUnack])

theorem pointFollows_congr {s t : State} {i : PointNo} {exceeded : Prop}
    (h : (t.alt.points[i]).state = (s.alt.points[i]).state) (k : pointFollows s i exceeded) : pointFollows t i exceeded := by
  unfold pointFollows alarmActive at k ⊢
  rw [h]
  exact k

theorem setAlarm_pointFollows (s : State) (i : PointNo) (exceeded : Prop) [Decidable exceeded] :
    pointFollows (s.setAlarm i (decide exceeded)) i exceeded := by
  obtain ⟨h1, h2⟩ := setAlarm_follows s i (decide exceeded)
  exact ⟨fun h => h1 (decide_eq_true h), fun h => h2 (decide_eq_false h)⟩

/-- R172: the points of a property that is not POOR follow its comparisons. -/
theorem evaluateProp_follows {b : GradeBank} {g : Generation} {q : Prop4} {a sp : Nat} (s : State)
    (hp : (g.stats.get q).poor = false) (ha : (g.stats.get q).avg = some a) (hs : (g.stats.get q).spread = some sp) :
    let t := evaluateProp b g s q
    pointFollows t (ptHigh q) ((b.limits.get q).high < a) ∧ pointFollows t (ptLow q) (a < (b.limits.get q).low) ∧
    pointFollows t (ptSpread q) ((b.limits.get q).spread < sp) := by
  obtain ⟨n1, n2, n3⟩ : ptHigh q ≠ ptLow q ∧ ptHigh q ≠ ptSpread q ∧ ptLow q ≠ ptSpread q := by cases q <;> decide
  have e : evaluateProp b g s q = ((s.setAlarm (ptHigh q) (decide ((b.limits.get q).high < a))).setAlarm (ptLow q)
      (decide (a < (b.limits.get q).low))).setAlarm (ptSpread q) (decide ((b.limits.get q).spread < sp)) := by
    unfold evaluateProp
    dsimp only
    rw [if_neg (by rw [hp]; decide), ha, hs]
  have hother : ∀ (u : State) (i j : PointNo) (on : Bool), j ≠ i →
      ((u.setAlarm i on).alt.points[j]).state = (u.alt.points[j]).state := fun u i j on hj =>
    (told_setAlarm u i on).points j fun k => hj (List.mem_singleton.1 k)
  intro t
  rw [show t = _ from e]
  exact ⟨pointFollows_congr ((hother _ _ _ _ n2).trans (hother _ _ _ _ n1)) (setAlarm_pointFollows _ _ _),
    pointFollows_congr (hother _ _ _ _ n3) (setAlarm_pointFollows _ _ _), setAlarm_pointFollows _ _ _⟩

end Sys2Proof.Machine
end

section
/-! PROOFS. The limit evaluation, the edges and the width test of a publication (R91, R96 … R98, R151, R172). -/

namespace Sys2Proof.Machine

open Safety

/-! ### The limit evaluation (R88, R172) -/

/-- The second state differs from the first in the alarm table and the ports alone. -/
def AlarmsOnly (s t : State) : Prop := ∃ a p, t = (s.withAlt a).withPorts p

theorem AlarmsOnly.refl (s : State) : AlarmsOnly s s := ⟨s.alt, s.ports, rfl⟩

theorem AlarmsOnly.trans {s t u : State} (h : AlarmsOnly s t) (k : AlarmsOnly t u) : AlarmsOnly s u := by
  obtain ⟨a, p, rfl⟩ := h
  obtain ⟨b, q, rfl⟩ := k
  exact ⟨b, q, rfl⟩

theorem alarmsOnly_setAlarm (s : State) (i : PointNo) (on : Bool) : AlarmsOnly s (s.setAlarm i on) :=
  ⟨_, _, State.setAlarm_eq s i on⟩

theorem alarmsOnly_jumpAlarm (i : PointNo) (o : SideOutcome) (s : State) : AlarmsOnly s (jumpAlarm i o s) := by
  cases o with
  | none => exact .refl s
  | accepted => exact alarmsOnly_setAlarm s i false
  | jump => exact alarmsOnly_setAlarm s i true

theorem alarmsOnly_returnHole (s : State) : AlarmsOnly s (returnHole s) := by
  unfold returnHole
  split
  · exact .refl s
  · exact alarmsOnly_setAlarm s ptHole false

theorem alarmsOnly_evaluateProp (b : GradeBank) (g : Generation) (s : State) (q : Prop4) :
    AlarmsOnly s (evaluateProp b g s q) := by
  unfold evaluateProp
  dsimp only
  split
  · exact .refl s
  split
  · exact ((alarmsOnly_setAlarm s _ _).trans (alarmsOnly_setAlarm _ _ _)).trans (alarmsOnly_setAlarm _ _ _)
  · exact .refl s

theorem alarmsOnly_evaluateProps (b : GradeBank) (g : Generation) (l : List Prop4) (s : State) :
    AlarmsOnly s (l.foldl (evaluateProp b g) s) := by
  induction l generalizing s with
  | nil => exact .refl s
  | cons q l ih => exact (alarmsOnly_evaluateProp b g s q).trans (ih _)

/-- R88: the settle-scan count after a publication. -/
def settledRbs (g : Generation) (r : Rbs) : Rbs :=
  { r with settle := if g.machine = .run then r.settle - 1 else r.settle }

theorem settledRbs_same {g : Generation} {r : Rbs} (h : g.machine = .run → r.settle = 0) : settledRbs g r = r := by
  have e : (if g.machine = .run then r.settle - 1 else r.settle) = r.settle := by
    split
    · next k => rw [h k]
    · rfl
  rw [settledRbs, e]

/-- R88: beside the alarms a limit evaluation changes the settle-scan count alone. -/
theorem evaluateLimits_settled (g : Generation) (s : State) :
    AlarmsOnly (s.withRbs (settledRbs g s.rbs)) (evaluateLimits g s) := by
  unfold evaluateLimits
  by_cases hr : g.machine = .run
  · rw [if_pos hr]
    by_cases h0 : s.rbs.settle = 0
    · rw [if_pos h0, settledRbs_same fun _ => h0, State.withRbs_self]
      split
      · exact alarmsOnly_evaluateProps _ _ _ s
      · exact .refl s
    · rw [if_neg h0, settledRbs, if_pos hr]
      exact .refl _
  · rw [if_neg hr, settledRbs_same fun k => absurd k hr, State.withRbs_self]
    exact .refl s

theorem told_evaluateLimits (g : Generation) (s : State) : Told limitPoints s (evaluateLimits g s) := by
  have hq : ∀ q ∈ allProps, ∀ i ∈ propPoints q, i ∈ limitPoints := by decide
  have hfold : ∀ (b : GradeBank) (l : List Prop4) (u : State), Told limitPoints u (l.foldl (evaluateProp b g) u) := by
    intro b l
    induction l with
    | nil => exact fun _ => .of_same
    | cons q l ih => exact fun u => ((told_evaluateProp b g u q).mono (hq q (mem_allProps q))).trans (ih _)
  unfold evaluateLimits
  split
  · split
    · split
      · exact hfold _ _ s
      · exact .of_same
    · exact .of_same
  · exact .of_same

/-- R88, R172: a property is evaluated. -/
def propEvaluated (g : Generation) (s : State) (q : Prop4) : Prop :=
  g.machine = .run ∧ s.rbs.settle = 0 ∧ s.rbs.activeBank ≠ none ∧ (g.stats.get q).poor = false

theorem evaluateLimits_evaluated {g : Generation} {s : State} {b : GradeBank} (hr : g.machine = .run)
    (h0 : s.rbs.settle = 0) (hb : s.rbs.activeBank = some b) : evaluateLimits g s = allProps.foldl (evaluateProp b g) s := by
  unfold evaluateLimits
  rw [if_pos hr, if_pos h0, hb]

/-- R172: the points of an evaluated property follow its comparisons. -/
theorem evaluateLimits_follows {g : Generation} {s : State} {q : Prop4} {b : GradeBank} {a sp : Nat}
    (h : propEvaluated g s q) (hb : s.rbs.activeBank = some b) (ha : (g.stats.get q).avg = some a)
    (hs : (g.stats.get q).spread = some sp) :
    let t := evaluateLimits g s
    pointFollows t (ptHigh q) ((b.limits.get q).high < a) ∧ pointFollows t (ptLow q) (a < (b.limits.get q).low) ∧
    pointFollows t (ptSpread q) ((b.limits.get q).spread < sp) := by
  obtain ⟨hr, h0, _, hp⟩ := h
  obtain ⟨u, _, hu⟩ := evaluateProps_own b g q s
  obtain ⟨k1, k2, k3⟩ := evaluateProp_follows (b := b) u hp ha hs
  intro t
  rw [show t = _ from evaluateLimits_evaluated hr h0 hb]
  exact ⟨pointFollows_congr (hu _ (by simp [propPoints])) k1, pointFollows_congr (hu _ (by simp [propPoints])) k2,
    pointFollows_congr (hu _ (by simp [propPoints])) k3⟩

/-- The points of a property that is not evaluated keep their states. -/
theorem evaluateLimits_leaves {g : Generation} {s : State} {q : Prop4} (h : ¬ propEvaluated g s q) :
    ∀ i ∈ propPoints q, ((evaluateLimits g s).alt.points[i]).state = (s.alt.points[i]).state := by
  intro i hi
  by_cases hr : g.machine = .run
  · by_cases h0 : s.rbs.settle = 0
    · cases hb : s.rbs.activeBank with
      | none =>
        unfold evaluateLimits
        rw [if_pos hr, if_pos h0, hb]
      | some b =>
        obtain ⟨u, h1, h2⟩ := evaluateProps_own b g q s
        have hpoor : (g.stats.get q).poor = true := by
          rw [← Bool.not_eq_false]
          exact fun k => h ⟨hr, h0, by rw [hb]; exact nofun, k⟩
        rw [evaluateLimits_evaluated hr h0 hb, h2 i hi, evaluateProp_poor hpoor, h1 i hi]
    · unfold evaluateLimits
      rw [if_pos hr, if_neg h0] <;> rfl
  · unfold evaluateLimits
    rw [if_neg hr]

/-! ### The edges (R91, R96, R98) -/

theorem trackSide_tracked (tol : Option Nat) (capture edge : Option Int) (jumps : Nat) :
    sideTracked tol capture edge jumps (trackSide tol capture edge jumps).1 (trackSide tol capture edge jumps).2.1 := by
  unfold sideTracked trackSide
  refine ⟨fun h => ?_, fun c h he => ?_, fun c e t h he ht => ⟨fun k => ?_, fun k k2 => ?_, fun k k2 => ?_⟩⟩
  · rw [h]
    exact ⟨rfl, rfl⟩
  · rw [h]
    rcases he with he | he
    · rw [he]
      exact ⟨rfl, rfl⟩
    · rw [he]
      cases edge <;> exact ⟨rfl, rfl⟩
  · rw [h, he, ht]
    dsimp only
    rw [if_pos k]
    exact ⟨rfl, rfl⟩
  · rw [h, he, ht]
    dsimp only
    rw [if_neg (by omega), if_pos k2]
    exact ⟨rfl, rfl⟩
  · rw [h, he, ht]
    dsimp only
    rw [if_neg (by omega), if_neg (by omega)]
    exact ⟨rfl, rfl⟩

/-- R91, R96, R98: what a traverse end leaves of the EBM, under the captures of the watch by side. -/
structure EdgesTracked (tolerance : Option Nat) (front back : Option Int) (atEnd : Bool) (x y : Ebm) : Prop where
  sides : sideTracked tolerance front x.ef x.jumpF y.ef y.jumpF ∧ sideTracked tolerance back x.eb x.jumpB y.eb y.jumpB
  watch : y.watch = { x.watch with opened := false, coveredEnd := atEnd }
  report : ∃ r, y.report = some r ∧ r.dir = x.watch.dir ∧ r.front = front ∧ r.back = back ∧ r.interior = x.watch.interior ∧
    r.frontCovered = (if x.watch.dir = .fwd then x.watch.coveredStart else atEnd) ∧
    r.backCovered = (if x.watch.dir = .fwd then atEnd else x.watch.coveredStart)

theorem closeWatch_eq (w : EdgeWatch) :
    closeWatch w = { w with opened := false, coveredEnd := decide (w.previous = some true) } := by
  have h : (w.previous == some true) = decide (w.previous = some true) := by
    rcases w.previous with _ | _ | _ <;> rfl
  rw [closeWatch, h]

/-- Beside the alarms the tracking of the edges changes the EBM alone. -/
theorem trackEdges_alarms (s : State) : AlarmsOnly (s.withEbm (trackEdges s).ebm) (trackEdges s) := by
  obtain ⟨x, hx⟩ : ∃ x, AlarmsOnly (s.withEbm x) (trackEdges s) :=
    ⟨_, (alarmsOnly_jumpAlarm _ _ _).trans (alarmsOnly_jumpAlarm _ _ _)⟩
  obtain ⟨a, p, e⟩ := hx
  exact ⟨a, p, by rw [e] <;> rfl⟩

theorem jumpAlarm_ebm (i : PointNo) (o : SideOutcome) (s : State) : (jumpAlarm i o s).ebm = s.ebm := by
  cases o <;> rfl

theorem trackEdges_tracked (s : State) :
    EdgesTracked (s.rbs.activeBank.map GradeBank.tolerance)
      (if s.ebm.watch.dir = .fwd then s.ebm.watch.leading else s.ebm.watch.trailing)
      (if s.ebm.watch.dir = .fwd then s.ebm.watch.trailing else s.ebm.watch.leading)
      (decide (s.ebm.watch.previous = some true)) s.ebm (trackEdges s).ebm := by
  unfold trackEdges
  dsimp only
  rw [jumpAlarm_ebm, jumpAlarm_ebm, closeWatch_eq]
  simp only [beq_iff_eq]
  exact ⟨⟨trackSide_tracked .., trackSide_tracked ..⟩, rfl, _, rfl, rfl, rfl, rfl, rfl, rfl, rfl⟩

/-! ### The width test (R151) -/

theorem widthOk_iff {x : Option EdgeReport} {r : EdgeReport} {bank : Option GradeBank} (h : x = some r) :
    widthOk x bank = true ↔ ∃ f e b, r.front = some f ∧ r.back = some e ∧ bank = some b ∧ 9 * (b.width : Int) ≤ (e - f) * 10 := by
  rw [h]
  unfold widthOk
  cases bank with
  | none => simp
  | some b =>
    cases hf : r.front with
    | none => simp [hf]
    | some f =>
      cases hb : r.back with
      | none => simp [hf, hb]
      | some e => simp [hf, hb]

/-- R151: what the width test leaves of the machine monitor. -/
theorem widthTest_msm {g : Generation} {s : State} (hg : g.machine = s.msm.state) :
    (s.msm.state ≠ .thread → (widthTest g s).msm = s.msm) ∧
    (s.msm.state = .thread → widthOk s.ebm.report s.rbs.activeBank = false →
      (widthTest g s).msm = { s.msm with widthPasses := 0 }) ∧
    (s.msm.state = .thread → widthOk s.ebm.report s.rbs.activeBank = true → s.msm.widthPasses = 0 →
      (widthTest g s).msm = { s.msm with widthPasses := 1 }) ∧
    (s.msm.state = .thread → widthOk s.ebm.report s.rbs.activeBank = true → s.msm.widthPasses ≠ 0 →
      (widthTest g s).msm.state = .run ∧ (widthTest g s).msm.widthPasses = 0 ∧ (widthTest g s).msm.source = false) := by
  unfold widthTest
  refine ⟨fun h => ?_, fun h hw => ?_, fun h hw h0 => ?_, fun h hw h0 => ?_⟩
  · rw [if_neg fun k => h k.2]
  · rw [if_pos ⟨hg.trans h, h⟩, hw, if_neg Bool.false_ne_true] <;> rfl
  · rw [if_pos ⟨hg.trans h, h⟩, hw, if_pos rfl, if_pos h0] <;> rfl
  · rw [if_pos ⟨hg.trans h, h⟩, hw, if_pos rfl, if_neg h0, (changeState_run_left _ _ _).1]
    refine ⟨enteredMsm_state _ _, ?_, rfl⟩
    show (updNewest (markRun s.pen.counter) { s.msm with state := .run, widthPasses := 0 }).widthPasses = 0
    unfold updNewest
    split <;> rfl

end Sys2Proof.Machine
end

section
/-! PROOFS. A publication and what follows it in the blocks (R117 … R119, R133, R148, R172). -/

namespace Sys2Proof.Machine

open Safety

/-! ### The store (R117 … R119) -/

/-- A port's pin is on the generation whose slot a publication takes. -/
def pinBroken (s : State) (p : Port) : Prop := ∃ old, s.pen.slots[takeSlot s.pen] = some old ∧ s.pen.pins.get p = some old.scan

/-- R117, R119: what the publication itself leaves. -/
structure Stored (w : Window) (s t : State) : Prop where
  slot : t.pen.slots[takeSlot s.pen] = some (formGeneration s w).1
  others : ∀ j : Fin 3, j ≠ takeSlot s.pen → t.pen.slots[j] = s.pen.slots[j]
  carry : t.pen.carry = (formGeneration s w).2.2
  filter : t.pen.filter = (formGeneration s w).2.1
  broken : ∀ p, pinBroken s p → t.pen.pins.get p = none ∧ t.ports.get p = endStream (s.ports.get p)
  kept : ∀ p, ¬ pinBroken s p → t.pen.pins.get p = s.pen.pins.get p ∧ t.ports.get p = s.ports.get p
  rbs : t.rbs = s.rbs
  ebm : t.ebm = s.ebm
  azm : t.azm = s.azm
  alt : t.alt = s.alt

theorem publish_stored (w : Window) (s : State) : Stored w s (publish w s).2 := by
  obtain ⟨u, hu⟩ : ∃ u, (s.pen.slots[takeSlot s.pen]).elim s (fun old => breakPins old.scan s) = u := ⟨_, rfl⟩
  have e : (publish w s).2 = u.withPen { u.pen with
      window := none, slots := u.pen.slots.set (takeSlot s.pen) (some (formGeneration s w).1), counter := u.pen.counter + 1
      lastScan := some u.pen.counter, filter := (formGeneration s w).2.1, carry := (formGeneration s w).2.2 } := by
    rw [← hu] <;> rfl
  have hslots : u.pen.slots = s.pen.slots ∧ u.rbs = s.rbs ∧ u.ebm = s.ebm ∧ u.azm = s.azm ∧ u.alt = s.alt := by
    rw [← hu]
    cases s.pen.slots[takeSlot s.pen] <;> exact ⟨rfl, rfl, rfl, rfl, rfl⟩
  obtain ⟨h1, h2, h3, h4, h5⟩ := hslots
  rw [e]
  refine ⟨?_, fun j hj => ?_, rfl, rfl, fun p hp => ?_, fun p hp => ?_, h2, h3, h4, h5⟩
  · simp
  · have hne : (takeSlot s.pen).val ≠ j.val := fun k => hj (Fin.ext k.symm)
    simp [hne, h1]
  · obtain ⟨old, hold, hpin⟩ := hp
    obtain ⟨k1, k2⟩ := breakPins_get old.scan s p
    rw [if_pos hpin] at k1 k2
    rw [hold] at hu
    rw [← hu]
    exact ⟨k1, k2⟩
  · rw [← hu]
    cases hold : s.pen.slots[takeSlot s.pen] with
    | none => exact ⟨rfl, rfl⟩
    | some old =>
      obtain ⟨k1, k2⟩ := breakPins_get old.scan s p
      have hpin : ¬ s.pen.pins.get p = some old.scan := fun k => hp ⟨old, hold, k⟩
      rw [if_neg hpin] at k1 k2
      exact ⟨k1, k2⟩

/-! ### The blocks after it (R117) -/

/-- What a publication's effects on the blocks leave, before the ports serve it. -/
structure ScanPublished (w : Window) (s t : State) : Prop where
  stored : Stored w s (publish w s).2
  pen : t.pen = (publish w s).2.pen
  azm : t.azm = azmPublish (formGeneration s w).1 s.azm
  rbs : t.rbs = settledRbs (formGeneration s w).1 s.rbs
  edges : EdgesTracked (s.rbs.activeBank.map GradeBank.tolerance)
      (if s.ebm.watch.dir = .fwd then s.ebm.watch.leading else s.ebm.watch.trailing)
      (if s.ebm.watch.dir = .fwd then s.ebm.watch.trailing else s.ebm.watch.leading)
      (decide (s.ebm.watch.previous = some true)) s.ebm t.ebm
  hole : s.msm.holeSeen = false → (t.alt.points[ptHole]).state ∈ [PointState.normal, .returnUnack]
  follows : ∀ q b a sp, propEvaluated (formGeneration s w).1 s q → s.rbs.activeBank = some b →
    ((formGeneration s w).1.stats.get q).avg = some a → ((formGeneration s w).1.stats.get q).spread = some sp →
    pointFollows t (ptHigh q) ((b.limits.get q).high < a) ∧ pointFollows t (ptLow q) (a < (b.limits.get q).low) ∧
    pointFollows t (ptSpread q) ((b.limits.get q).spread < sp)
  leaves : ∀ q, ¬ propEvaluated (formGeneration s w).1 s q → ∀ i ∈ propPoints q,
    (t.alt.points[i]).state = (s.alt.points[i]).state
  other : s.msm.state ≠ .thread → t.msm = s.msm
  narrow : s.msm.state = .thread → widthOk t.ebm.report s.rbs.activeBank = false → t.msm = { s.msm with widthPasses := 0 }
  first : s.msm.state = .thread → widthOk t.ebm.report s.rbs.activeBank = true → s.msm.widthPasses = 0 →
    t.msm = { s.msm with widthPasses := 1 }
  second : s.msm.state = .thread → widthOk t.ebm.report s.rbs.activeBank = true → s.msm.widthPasses ≠ 0 →
    t.msm.state = .run ∧ t.msm.widthPasses = 0 ∧ t.msm.source = false
  ports : ∀ p, Noticed ((publish w s).2.ports.get p) (t.ports.get p)

theorem published_scan {w : Window} {s : State}
    (h : s.msm.state = .thread → s.cmu.overrideUntaken = false ∧ s.cmu.state ≠ .parked) :
    ScanPublished w s (widthTested w s) := by
  obtain ⟨g, hg⟩ : ∃ g, (formGeneration s w).1 = g := ⟨_, rfl⟩
  have hgm : g.machine = s.msm.state := by rw [← hg]; rfl
  have hst := publish_stored w s
  obtain ⟨u, hu⟩ : ∃ u, (publish w s).2 = u := ⟨_, rfl⟩
  have hpg : (publish w s).1 = g := hg
  obtain ⟨hr, hbmsm, hbpen⟩ := published_before w s
  have hx := widthTested_tested (w := w) h
  have humsm := (publish_keeps w s).1
  obtain ⟨x, hxe⟩ : ∃ x, widthTested w s = x := ⟨_, rfl⟩
  obtain ⟨b, hb⟩ : ∃ b, beforeWidthTest g u = b := ⟨_, rfl⟩
  have hxb : x = widthTest g b := by rw [← hxe, widthTested, hpg, hu, hb]
  rw [hpg, hu, hb] at hr hbmsm hbpen
  rw [hpg, hu, hb, hxe] at hx
  rw [hu] at humsm hst
  have hmoving : b.msm.state = .thread → b.cmu.overrideUntaken = false ∧ b.cmu.state ≠ .parked := by
    rw [hbmsm, hr.cmu]; exact h
  obtain ⟨v, hv⟩ : ∃ v, (trackEdges u).withAzm (azmPublish g (trackEdges u).azm) = v := ⟨_, rfl⟩
  have hbv : b = returnHole (evaluateLimits g v) := by rw [← hb, beforeWidthTest, hv]
  obtain ⟨a1, p1, e1⟩ := trackEdges_alarms u
  have hvazm : v.azm = azmPublish g s.azm := by
    rw [← hv, State.withAzm_azm, e1, ← hst.azm] <;> rfl
  have hvebm : v.ebm = (trackEdges u).ebm := by rw [← hv] <;> rfl
  have hvrbs : v.rbs = s.rbs := by rw [← hv, State.withAzm_rbs, e1, ← hst.rbs] <;> rfl
  have hvmsm : v.msm = s.msm := by rw [← hv, State.withAzm_msm, e1, ← humsm] <;> rfl
  obtain ⟨a2, p2, e2⟩ := evaluateLimits_settled g v
  have hhole : (evaluateLimits g v).msm = s.msm := by rw [e2, ← hvmsm] <;> rfl
  obtain ⟨a3, p3, e3⟩ := alarmsOnly_returnHole (evaluateLimits g v)
  have hbrest : b = ((v.withRbs (settledRbs g v.rbs)).withAlt a3).withPorts p3 := by
    rw [hbv, e3, e2] <;> rfl
  have hbebm : b.ebm = (trackEdges u).ebm := by rw [← hvebm, hbrest] <;> rfl
  have hbrbs : b.rbs = settledRbs g s.rbs := by rw [← hvrbs, hbrest] <;> rfl
  have told1 : Told [ptEdgeJumpFront, ptEdgeJumpBack] u v :=
    (told_trackEdges u).trans (.of_same (by rw [← hv] <;> rfl) (by rw [← hv] <;> rfl))
  have told2 : Told limitPoints v (evaluateLimits g v) := told_evaluateLimits g v
  have told3 : Told [ptHole] (evaluateLimits g v) b := by rw [hbv]; exact told_returnHole _
  have told4 : Told [ptBreak] b x := by rw [hxb]; exact told_widthTest g hmoving
  have hprop : ∀ q ∈ allProps, ∀ i ∈ propPoints q,
      i ∉ [ptEdgeJumpFront, ptEdgeJumpBack] ∧ i ∉ [ptHole] ∧ i ∉ [ptBreak] := by decide
  have hafter : ∀ q, ∀ i ∈ propPoints q, (x.alt.points[i]).state = ((evaluateLimits g v).alt.points[i]).state := fun q i hi =>
    (told4.points i (hprop q (mem_allProps q) i hi).2.2).trans (told3.points i (hprop q (mem_allProps q) i hi).2.1)
  have heval : ∀ q, propEvaluated g v q ↔ propEvaluated g s q := fun q => by
    unfold propEvaluated
    rw [hvrbs]
  have hbank : (settledRbs g s.rbs).activeBank = s.rbs.activeBank := rfl
  have hwmsm := widthTest_msm (g := g) (s := b) (hgm.trans (by rw [hbmsm]))
  rw [← hxb, hbmsm, hbrbs, hbank, ← hx.ebm] at hwmsm
  obtain ⟨m1, m2, m3, m4⟩ := hwmsm
  rw [hxe]
  refine ⟨by rw [hu]; exact hst, by rw [hx.pen, hbpen, hu], ?_, by rw [hx.rbs, hbrbs, hg], ?_, fun hs => ?_,
    fun q bank a sp he hbk ha hsp => ?_, fun q he i hi => ?_, m1, m2, m3, m4, fun p => ?_⟩
  · rw [hx.azm, hbrest, hg, ← hvazm] <;> rfl
  · rw [hx.ebm, hbebm]
    have k := trackEdges_tracked u
    rw [hst.rbs, hst.ebm] at k
    exact k
  · rw [told4.points ptHole (by decide), hbv, returnHole, if_neg (by rw [hhole, hs]; decide)]
    exact State.returnAlarm_over _ _
  · rw [hg] at he ha hsp
    obtain ⟨k1, k2, k3⟩ := evaluateLimits_follows ((heval q).2 he) (by rw [hvrbs]; exact hbk) ha hsp
    exact ⟨pointFollows_congr (hafter q _ (by simp [propPoints])) k1,
      pointFollows_congr (hafter q _ (by simp [propPoints])) k2, pointFollows_congr (hafter q _ (by simp [propPoints])) k3⟩
  · rw [hg] at he
    rw [hafter q i hi, evaluateLimits_leaves (fun k => he ((heval q).1 k)) i hi,
      told1.points i (hprop q (mem_allProps q) i hi).1, hst.alt]
  · rw [hu]
    exact (told1.ports p).trans ((told2.ports p).trans ((told3.ports p).trans (told4.ports p)))

end Sys2Proof.Machine
end

section
/-! PROOFS. The traverse end as a whole: the scan counted, the motion chosen, the reports served (R17, R44, R117, R205). -/

namespace Sys2Proof.Machine

open Safety

/-! ### The scan counted (R44) -/

/-- The published state with the pending plan applied, the scan counted and the limits computed. -/
def scanCounted (e : State) : State := computeLimits (countScan (applyPendingPlan e))

theorem traverseEnd_counted (s : State) : traverseEnd s = chooseAtEnd (scanCounted (publishTraverse (want 0 s))) := rfl

theorem scanCounted_cmu (e : State) : (scanCounted e).cmu = { e.cmu with
    plan := e.cta.pending.getD e.cmu.plan, limF := (scanCounted e).cmu.limF, limB := (scanCounted e).cmu.limB } := by
  have h : (countScan (applyPendingPlan e)).cmu = { e.cmu with plan := e.cta.pending.getD e.cmu.plan } := by
    rw [countScan_eq, State.withOsq_cmu, (applyPendingPlan_plan e).1]
  have hk : ∀ k : State, (computeLimits k).cmu = { k.cmu with limF := (computeLimits k).cmu.limF, limB := (computeLimits k).cmu.limB } :=
    fun _ => rfl
  rw [scanCounted, hk, h]

theorem scanCounted_rest (e : State) : (scanCounted e).cta.pending = none ∧ (scanCounted e).alt = e.alt ∧
    (scanCounted e).pen = e.pen ∧ Aside e (scanCounted e) ∧ Onward e (scanCounted e) := by
  obtain ⟨p, hp⟩ : ∃ p, applyPendingPlan e = p := ⟨_, rfl⟩
  have hc : scanCounted e = computeLimits (p.withOsq (intervalOsq p.cmu.plan { p.osq with
      scanCount := satInc 255 p.osq.scanCount })) := by rw [scanCounted, hp, countScan_eq]
  have haside : Aside e p := by rw [← hp]; exact aside_applyPendingPlan e
  have honward : Onward e p := by rw [← hp]; exact onward_applyPendingPlan e
  have hcta : p.cta.pending = none := by rw [← hp, (applyPendingPlan_plan e).2]
  have halt : p.alt = e.alt := by rw [← hp]; exact applyPendingPlan_alt e
  have hpen : p.pen = e.pen := by rw [← hp]; exact (applyPendingPlan_blocks e).1
  rw [hc]
  exact ⟨hcta, halt, hpen, haside.trans ((aside_withOsq p _).trans (aside_computeLimits _)),
    honward.trans ((onward_withOsq p _).trans (onward_computeLimits _))⟩

/-- R44: the counted scan makes a standardization due by the interval of the plan that applies. -/
theorem scanCounted_osq {e : State} (h : e.osq.scanCount ≤ 255) :
    let plan := e.cta.pending.getD e.cmu.plan
    (scanCounted e).osq.step = e.osq.step ∧ (scanCounted e).osq.scanCount = min 255 (e.osq.scanCount + 1) ∧
    ((scanCounted e).osq.due = true ↔
      e.osq.due = true ∨ (plan.interval ≠ 0 ∧ plan.interval ≤ min 255 (e.osq.scanCount + 1))) := by
  intro plan
  have hp : (applyPendingPlan e).osq.step = e.osq.step ∧ (applyPendingPlan e).osq.scanCount = e.osq.scanCount ∧
      ((applyPendingPlan e).osq.due = true ↔
        e.osq.due = true ∨ (e.cta.pending ≠ none ∧ plan.interval ≠ 0 ∧ plan.interval ≤ e.osq.scanCount)) := by
    cases hq : e.cta.pending with
    | none =>
      rw [applyPendingPlan_none hq]
      exact ⟨rfl, rfl, by simp⟩
    | some q =>
      have hplan : plan = q := by show e.cta.pending.getD _ = q; rw [hq]; rfl
      have heq : applyPendingPlan e = applyPlan q e := by rw [applyPendingPlan, hq]
      rw [heq, applyPlan_eq, hplan]
      refine ⟨rfl, rfl, ?_⟩
      simp [intervalOsq]
  obtain ⟨h1, h2, h3⟩ := hp
  have hplan : (applyPendingPlan e).cmu.plan = plan := by rw [(applyPendingPlan_plan e).1]
  have hosq : (scanCounted e).osq = intervalOsq plan { (applyPendingPlan e).osq with
      scanCount := satInc 255 (applyPendingPlan e).osq.scanCount } := by
    show (countScan (applyPendingPlan e)).osq = _
    rw [countScan_eq, hplan] <;> rfl
  have hcount : satInc 255 (applyPendingPlan e).osq.scanCount = min 255 (e.osq.scanCount + 1) := by rw [h2]; rfl
  rw [hosq, hcount]
  refine ⟨h1, rfl, ?_⟩
  show ((applyPendingPlan e).osq.due || (decide (plan.interval ≠ 0) && decide (plan.interval ≤ min 255 (e.osq.scanCount + 1)))) =
    true ↔ _
  rw [Bool.or_eq_true, Bool.and_eq_true, decide_eq_true_eq, decide_eq_true_eq, h3]
  constructor
  · rintro ((k | ⟨_, k1, k2⟩) | k)
    · exact .inl k
    · exact .inr ⟨k1, by omega⟩
    · exact .inr k
  · rintro (k | k)
    · exact .inl (.inl k)
    · exact .inr k

/-! ### The moves after the choice -/

theorem heeded_state {s : State} (h : s.cmu.state ≠ .traverse) : (heeded s).cmu.state ≠ .traverse := by
  unfold heeded
  split
  · unfold takeOverride
    dsimp only
    split
    · intro k
      have hc := goPark_chosen (next := nextMove) (fun u _ => nextMove_chosen u)
        ((abortTraverse (s.withCmu { s.cmu with overrideWait := 0 })).withCmu
          { (abortTraverse (s.withCmu { s.cmu with overrideWait := 0 })).cmu with hold := .none, turnOwed := false })
      rw [k] at hc
      revert hc
      decide
    · exact h
  · exact h

theorem heeded_window {s : State} (h : s.pen.window = none) : (heeded s).pen.window = none := by
  unfold heeded
  split
  · unfold takeOverride
    dsimp only
    split
    · exact keptByMoves_window.goPark keptByMoves_window.nextMove
        (keptByMoves_window.abort (s := s.withCmu { s.cmu with overrideWait := 0 }) h)
    · exact h
  · exact h

/-! ### What the ports take (R205) -/

/-- Notices stand behind what a port had queued. -/
theorem Noticed.queued {x y : PortState} (h : Noticed x y) :
    ∃ l : List OutMsg, y.outbound = x.outbound ++ l ∧ ∀ o ∈ l, o.cls = .notice := by
  refine h (fun z => ∃ l : List OutMsg, z.outbound = x.outbound ++ l ∧ ∀ o ∈ l, o.cls = .notice) (fun kind pl z hz => ?_)
    ⟨[], (List.append_nil _).symm, nofun⟩
  obtain ⟨l, hl, hn⟩ := hz
  unfold PortState.notice
  split
  · exact ⟨l, hl, hn⟩
  split
  · refine ⟨l ++ [⟨.notice, kind, 0, pl⟩], by rw [← List.append_assoc, ← hl], fun o ho => ?_⟩
    rcases List.mem_append.1 ho with k | k
    · exact hn o k
    · rw [List.mem_singleton.1 k]
  · exact ⟨l, hl, hn⟩

end Sys2Proof.Machine
end

section
/-! PROOFS. The count that ends a traverse (R17, R117). -/

namespace Sys2Proof.Machine

open Safety

theorem chooseAtEnd_left (s : State) : (chooseAtEnd s).cmu.state ≠ .traverse := by
  intro e
  have hs := chooseAtEnd_state s
  rw [e] at hs
  revert hs
  decide

/-- The count that meets the compare target ends the traverse, and then an override still untaken is taken (R17, R22). -/
theorem encoderCount_ended {d : Dir} {s : State} {target : Int} (hh : s.cmu.homed = true) (h1 : -500 ≤ s.cmu.position + dirSign d)
    (h2 : s.cmu.position + dirSign d ≤ (s.rbs.common.pMax : Int) + 500) (hs : s.cmu.state = .traverse)
    (ht : s.cmu.compareTarget = some target)
    (hr : reached s.cmu.direction (s.cmu.position + dirSign d) target = true) :
    ∃ dr : Drive, encoderCount d s = (heeded (traverseEnd (countPosition d s))).withDrive dr ∧
      dr.wanted = (heeded (traverseEnd (countPosition d s))).drive.wanted := by
  have hcompares : countCompares d (countPosition d s) = traverseEnd (countPosition d s) := by
    rw [countCompares_inside hh h1 h2, arrivals_traverse (s := countPosition d s) hs]
    exact if_pos ((targetMet_iff (countPosition d s)).2 ⟨target, ht, hr⟩)
  have hleft : (traverseEnd (countPosition d s)).cmu.state ≠ s.cmu.state := by
    rw [hs]
    exact chooseAtEnd_left _
  have e : encoderCount d s = (flushOverride (traverseEnd (countPosition d s))).settleDrive := by
    unfold encoderCount overrideAfterCount
    rw [hcompares, if_neg fun k => hleft k.1]
  rw [e]
  exact flushOverride_heeded _

/-- What the publication leaves of the carriage, the plan and park override. -/
structure PublishedAside (s x : State) : Prop where
  cmu : x.cmu = { s.cmu with plan := x.cmu.plan }
  interval : x.cmu.plan.interval = s.cmu.plan.interval
  plan : s.msm.state ≠ .thread ∨ s.override = false → x.cmu.plan = s.cmu.plan
  cta : x.cta = s.cta
  osq : x.osq = s.osq
  scv : x.scv = s.scv
  common : x.rbs.common = s.rbs.common
  override : s.msm.state ≠ .thread → x.override = s.override
  free : s.override = false → x.override = false

theorem published_aside {w : Window} {s : State}
    (h : s.msm.state = .thread → s.cmu.overrideUntaken = false ∧ s.cmu.state ≠ .parked) :
    PublishedAside s (widthTested w s) := by
  obtain ⟨hr, hbmsm, _⟩ := published_before w s
  have hx := widthTested_tested (w := w) h
  have hp := published_scan (w := w) h
  obtain ⟨b, hb⟩ : ∃ b, beforeWidthTest (publish w s).1 (publish w s).2 = b := ⟨_, rfl⟩
  obtain ⟨x, hxe⟩ : ∃ x, widthTested w s = x := ⟨_, rfl⟩
  rw [hb] at hr hbmsm
  rw [hb, hxe] at hx
  rw [hxe] at hp ⊢
  have hcmu : x.cmu = { s.cmu with plan := x.cmu.plan } := by
    have k := hx.cmu
    rw [hr.cmu] at k
    exact k
  have hover : b.override = s.override := by unfold State.override; rw [hbmsm, hr.cmu]
  have hplan := hx.plan
  rw [hbmsm, hover, hr.cmu] at hplan
  have hxover : x.override = (x.msm.source || s.cmu.parkSource || s.cmu.motionFault) := by
    unfold State.override
    rw [hcmu]
  refine ⟨hcmu, ?_, fun k => ?_, by rw [hx.cta, hr.cta], by rw [hx.osq, hr.osq], by rw [hx.scv, hr.scv],
    by rw [hx.rbs, hr.common], fun k => ?_, fun k => ?_⟩
  · rcases hplan with e | ⟨_, _, e⟩ <;> rw [e] <;> rfl
  · rcases hplan with e | ⟨e1, e2, _⟩
    · exact e
    · rcases k with k | k
      · exact absurd e1 k
      · rw [k] at e2
        cases e2
  · rw [hxover, hp.other k] <;> rfl
  · have hs : s.msm.source = false ∧ s.cmu.parkSource = false ∧ s.cmu.motionFault = false := by
      unfold State.override at k
      rw [Bool.or_eq_false_iff, Bool.or_eq_false_iff] at k
      exact ⟨k.1.1, k.1.2, k.2⟩
    have hsource : x.msm.source = false := by
      by_cases ht : s.msm.state = .thread
      · cases hw : widthOk x.ebm.report s.rbs.activeBank with
        | false => rw [hp.narrow ht hw]; exact hs.1
        | true =>
          by_cases h0 : s.msm.widthPasses = 0
          · rw [hp.first ht hw h0]; exact hs.1
          · exact (hp.second ht hw h0).2.2
      · rw [hp.other ht]; exact hs.1
    rw [hxover, hsource, hs.2.1, hs.2.2] <;> rfl

/-- The spec's words for the carriage's choice (R17, R44): what the plan `plan` brings a carriage that was in `s`. -/
structure EndMoved (s : State) (plan : ScanPlan) (pos : Int) (t : State) : Prop where
  pending : t.cta.pending = none
  taken : t.cmu.overrideUntaken = false
  retraverse : t.cmu.retraverseOwed = s.cmu.retraverseOwed
  position : t.cmu.position = pos
  scanCount : t.osq.scanCount = min 255 (s.osq.scanCount + 1)
  hold : (∃ x, s.cmu.hold = .armed x) → t.cmu.hold = .none
  takes : s.osq.step = .idle ∧ (s.osq.due = true ∨ (plan.interval ≠ 0 ∧ plan.interval ≤ min 255 (s.osq.scanCount + 1))) →
    t.cmu.state = (if pos = s.rbs.common.stdPos then .atStd else .toStd) ∧
    t.osq.step = (if pos = s.rbs.common.stdPos then .settle else .travel)
  parks : ¬ (s.osq.step = .idle ∧ (s.osq.due = true ∨
      (plan.interval ≠ 0 ∧ plan.interval ≤ min 255 (s.osq.scanCount + 1)))) → s.cmu.overrideUntaken = true →
    t.cmu.state = (if pos = s.rbs.common.parkPos then .parked else .toPark) ∧ t.cmu.plan = plan
  moves : ¬ (s.osq.step = .idle ∧ (s.osq.due = true ∨
      (plan.interval ≠ 0 ∧ plan.interval ≤ min 255 (s.osq.scanCount + 1)))) → s.override = false → t.cmu.plan = plan ∧
    ((∃ x, s.cmu.hold = .armed x) → t.cmu.state = .held ∧ t.cmu.turnOwed = true ∧ t.drive.wanted = 0) ∧
    (¬(∃ x, s.cmu.hold = .armed x) → plan.mode = .park →
      t.cmu.state = if pos = s.rbs.common.parkPos then .parked else .toPark) ∧
    (¬(∃ x, s.cmu.hold = .armed x) → plan.mode = .fixed →
      t.cmu.state = if pos = (min plan.fixedPos s.rbs.common.pMax : Nat) then .fixed else .toFixed) ∧
    (¬(∃ x, s.cmu.hold = .armed x) → plan.mode = .scan → (t.cmu.limF, t.cmu.limB) = limitsOf t ∧
      Turned s.cmu.direction pos t.cmu.limF t.cmu.limB (min plan.speed s.rbs.common.maxSpeed : Nat) t)

theorem turned_withDrive {d : Dir} {pos f b v : Int} {t : State} {dr : Drive} (h : Turned d pos f b v t)
    (hd : dr.wanted = t.drive.wanted) : Turned d pos f b v (t.withDrive dr) := by
  obtain ⟨h1, h2, h3, h4⟩ := h
  rw [← hd] at h1 h2 h3 h4
  exact ⟨h1, h2, h3, h4⟩

theorem osqTakes_iff {s : State} (h : s.cmu.state ≠ .fixed) : osqTakes s = true ↔ s.osq.step = .idle ∧ s.osq.due = true := by
  unfold osqTakes
  rw [bne_iff_ne.2 h]
  simp [and_comm]

/-- R17, R44: the carriage after the published scan of a traverse in `s`. -/
theorem scanCounted_moved {s x : State} {ports : PerPort PortState} {dr : Drive} (ha : PublishedAside s x)
    (hs : s.cmu.state = .traverse) (hcount : s.osq.scanCount ≤ 255)
    (hu : s.cmu.overrideUntaken = true → s.override = true ∧ s.msm.state ≠ .thread)
    (hd : dr.wanted = (heeded (chooseAtEnd (scanCounted (x.withPorts ports)))).drive.wanted) :
    EndMoved s (s.cta.pending.getD s.cmu.plan) s.cmu.position
      ((heeded (chooseAtEnd (scanCounted (x.withPorts ports)))).withDrive dr) := by
  obtain ⟨e, hee⟩ : ∃ e, x.withPorts ports = e := ⟨_, rfl⟩
  have hecmu : e.cmu = x.cmu := by rw [← hee] <;> rfl
  have heosq : e.osq = s.osq := by rw [← ha.osq, ← hee] <;> rfl
  have hecta : e.cta = s.cta := by rw [← ha.cta, ← hee] <;> rfl
  have herbs : e.rbs.common = s.rbs.common := by rw [← ha.common, ← hee] <;> rfl
  have heover : e.override = x.override := by rw [← hee] <;> rfl
  rw [hee] at hd ⊢
  have hcmu := scanCounted_cmu e
  obtain ⟨hpending, _, _, haside, honward⟩ := scanCounted_rest e
  have hosq := scanCounted_osq (e := e) (by rw [heosq]; exact hcount)
  obtain ⟨c, hc⟩ : ∃ c, scanCounted e = c := ⟨_, rfl⟩
  rw [hc] at hd hcmu hpending haside honward hosq ⊢
  rw [hecta, hecmu, ha.cmu] at hcmu
  rw [hecta, heosq, hecmu] at hosq
  obtain ⟨hstep, hscan, hdue⟩ := hosq
  have hinterval : (s.cta.pending.getD x.cmu.plan).interval = (s.cta.pending.getD s.cmu.plan).interval := by
    cases s.cta.pending with
    | none => exact ha.interval
    | some p => rfl
  rw [hinterval] at hdue
  have hcstate : c.cmu.state = .traverse := by rw [hcmu]; exact hs
  have hcommon : c.rbs.common = s.rbs.common := haside.common.trans herbs
  have hcover : c.override = x.override := by
    rw [← heover]
    unfold State.override
    rw [haside.msm, hcmu, hecmu, ha.cmu]
  have hcu : c.cmu.overrideUntaken = s.cmu.overrideUntaken := by rw [hcmu] <;> rfl
  have hchosen := chooseAtEnd_chosen hcstate hpending fun k => by
    rw [hcu] at k
    rw [hcover, ha.override (hu k).2]
    exact (hu k).1
  have hmotion := (motion_chooseAtEnd c).trans (motion_heeded (chooseAtEnd c))
  have hon := (onward_chooseAtEnd c).trans (onward_heeded (chooseAtEnd_aside c))
  have hwait := heeded_wait (chooseAtEnd c)
  obtain ⟨v, hv⟩ : ∃ v, heeded (chooseAtEnd c) = v := ⟨_, rfl⟩
  rw [hv] at hd hchosen hmotion hon hwait ⊢
  have hpos : c.cmu.position = s.cmu.position := by rw [hcmu]
  have hplan : s.msm.state ≠ .thread ∨ s.override = false → c.cmu.plan = s.cta.pending.getD s.cmu.plan := fun k => by
    rw [hcmu, ha.plan k]
  have htakes : osqTakes c = true ↔ s.osq.step = .idle ∧ (s.osq.due = true ∨
      ((s.cta.pending.getD s.cmu.plan).interval ≠ 0 ∧
        (s.cta.pending.getD s.cmu.plan).interval ≤ min 255 (s.osq.scanCount + 1))) := by
    rw [osqTakes_iff (by rw [hcstate]; decide), hstep, hdue]
  have hnothing : osqTakes c ≠ true → nothingDue c := fun k hn =>
    k ((osqTakes_iff (by rw [hcstate]; decide)).2 ⟨hn.2, hn.1⟩)
  have harmed : isArmed c.cmu.hold = true ↔ ∃ y, s.cmu.hold = .armed y := by
    rw [hcmu]
    exact isArmed_iff _
  have hnotArmed : ¬ (∃ y, s.cmu.hold = .armed y) → isArmed c.cmu.hold = false := fun k =>
    Bool.eq_false_iff.2 fun h => k (harmed.1 h)
  obtain ⟨hvpending, hvplan⟩ := hmotion.plan hpending
  refine ⟨hvpending, (overrideUntaken_eq_false _).2 hwait, ?_, hmotion.position.trans hpos, hmotion.scanCount.trans hscan,
    fun h => hchosen.hold (harmed.2 h), fun h => ?_, fun hn huu => ⟨?_, ?_⟩, fun hn ho => ?_⟩
  · show v.cmu.retraverseOwed = _
    rw [hon.retraverse, hcmu]
  · have k := hchosen.takes (htakes.2 h)
    rw [hpos, hcommon] at k
    exact k
  · have k := hchosen.parks (hnothing fun h => hn (htakes.1 h)) (hcu.trans huu)
    rw [hpos, hcommon] at k
    exact k
  · exact hvplan.trans (hplan (.inl (hu huu).2))
  · have hno := hnothing fun h => hn (htakes.1 h)
    have hfree : c.override = false := hcover.trans (ha.free ho)
    have hcplan := hplan (.inr ho)
    obtain ⟨k1, k2, k3, k4⟩ : _ ∧ _ ∧ _ ∧ _ := ⟨hchosen.held hno hfree, hchosen.park hno hfree, hchosen.fixed hno hfree,
      hchosen.scan hno hfree⟩
    rw [hpos, hcommon, hcplan] at k2 k3
    rw [hcplan] at k4
    refine ⟨hvplan.trans hcplan, fun h => ?_, fun h => k2 (hnotArmed h), fun h => k3 (hnotArmed h), fun h hm => ?_⟩
    · obtain ⟨h1, h2, h3⟩ := k1 (harmed.2 h)
      exact ⟨h1, h2, hd.trans h3⟩
    · have hturn := k4 (hnotArmed h) hm
      have hlim := (turnaround_limits c).1
      have hturned := turnaround_turned c
      have hlimits : limitsOf v = limitsOf c :=
        limitsOf_congr (congrArg ScanPlan.policy hvplan) hmotion.edges.1 hmotion.edges.2.1 hmotion.common
      have hspeed : c.scanSpeed = min (s.cta.pending.getD s.cmu.plan).speed s.rbs.common.maxSpeed := by
        unfold State.scanSpeed
        rw [hcplan, hcommon]
      have hdir : c.cmu.direction = s.cmu.direction := by rw [hcmu]
      rw [hspeed, hdir, hpos, ← hturn] at hturned
      rw [← hturn] at hlim
      have hf : v.cmu.limF = (limitsOf c).1 := congrArg Prod.fst hlim
      have hb : v.cmu.limB = (limitsOf c).2 := congrArg Prod.snd hlim
      rw [← hf, ← hb] at hturned
      exact ⟨hlim.trans hlimits.symm, turned_withDrive hturned hd⟩

end Sys2Proof.Machine
end

section
/-! PROOFS. The traverse end in every block (R17, R44, R96, R117 … R119, R133, R148, R151, R172, R205). -/

namespace Sys2Proof.Machine

open Safety

theorem endStream_running {x : PortState} {r : Stream} (h : x.stream = .running r) : (endStream x).stream = .ending r := by
  rw [endStream, h]

/-- R151: the width a report names reaches nine tenths of the bank's. -/
def reportWide (front back : Option Int) (bank : Option GradeBank) : Prop :=
  ∃ f e b, front = some f ∧ back = some e ∧ bank = some b ∧ 9 * (b.width : Int) ≤ (e - f) * 10

theorem EdgesTracked.wide {tol : Option Nat} {front back : Option Int} {atEnd : Bool} {x y : Ebm} {bank : Option GradeBank}
    (h : EdgesTracked tol front back atEnd x y) : widthOk y.report bank = true ↔ reportWide front back bank := by
  obtain ⟨r, hr, _, hf, hb, _⟩ := h.report
  rw [widthOk_iff hr, hf, hb] <;> rfl

/-- What the moves after a publication `x` leave of it. -/
structure EndedAfter (w : Window) (s x v : State) : Prop where
  published : ScanPublished w s x
  ebm : v.ebm = x.ebm
  azm : v.azm = x.azm
  msm : v.msm = x.msm
  scv : v.scv = s.scv
  slots : v.pen.slots = (publish w s).2.pen.slots
  pins : v.pen.pins = (publish w s).2.pen.pins
  counter : v.pen.counter = s.pen.counter + 1
  last : v.pen.lastScan = some s.pen.counter
  window : v.pen.window = none
  carry : v.pen.carry = (formGeneration s w).2.2
  hole : (v.alt.points[ptHole]).state = (x.alt.points[ptHole]).state
  ungraded : s.rbs.pending = none → v.rbs = x.rbs ∧ v.alt = x.alt ∧ v.pen.filter = (formGeneration s w).2.1
  ports : ∀ p, Noticed (servePort (formGeneration s w).1 x.azm (x.ports.get p)) (v.ports.get p)

theorem scanCounted_after {w : Window} {s x : State} (hp : ScanPublished w s x) (ha : PublishedAside s x) :
    EndedAfter w s x (heeded (chooseAtEnd (scanCounted
      (x.withPorts (x.ports.map (servePort (formGeneration s w).1 x.azm)))))) := by
  obtain ⟨e, he⟩ : ∃ e, x.withPorts (x.ports.map (servePort (formGeneration s w).1 x.azm)) = e := ⟨_, rfl⟩
  have hblocks : e.ebm = x.ebm ∧ e.azm = x.azm ∧ e.msm = x.msm ∧ e.scv = x.scv ∧ e.pen = x.pen ∧ e.alt = x.alt ∧
      e.rbs = x.rbs := by
    rw [← he]
    exact ⟨rfl, rfl, rfl, rfl, rfl, rfl, rfl⟩
  obtain ⟨e1, e2, e3, e4, e5, e6, e7⟩ := hblocks
  have eports : ∀ p, e.ports.get p = servePort (formGeneration s w).1 x.azm (x.ports.get p) := fun p => by
    rw [← he, State.withPorts_ports, PerPort.get_map]
  obtain ⟨_, halt, hpen, haside, honward⟩ := scanCounted_rest e
  rw [he]
  obtain ⟨c, hc⟩ : ∃ c, scanCounted e = c := ⟨_, rfl⟩
  rw [hc] at halt hpen haside honward ⊢
  have hmotion := (motion_chooseAtEnd c).trans (motion_heeded (chooseAtEnd c))
  have hon := honward.trans ((onward_chooseAtEnd c).trans (onward_heeded (chooseAtEnd_aside c)))
  have hside := haside.trans hmotion.toAside
  obtain ⟨p1, p2, p3⟩ := publish_pen w s
  have hepen : e.pen = (publish w s).2.pen := e5.trans hp.pen
  have hwin : c.pen.window = none := by rw [hpen, hepen]; exact p1
  refine ⟨hp, hon.ebm.trans e1, hside.azm.trans e2, hside.msm.trans e3, hside.scv.trans (e4.trans ha.scv),
    hside.slots.trans (by rw [hepen]), hside.pins.trans (by rw [hepen]), hside.counter.trans (by rw [hepen, p2]),
    hside.last.trans (by rw [hepen, p3]), heeded_window ?_, hside.carry.trans (by rw [hepen, hp.stored.carry]), ?_,
    fun hnone => ?_, fun p => ?_⟩
  · exact keptByMoves_window.chooseAtEnd ((applyPendingGrade_keeps _).2.2.2.2.2.trans hwin) hwin
  · rw [hmotion.points ptHole (by decide), halt, e6]
  · obtain ⟨k1, k2, k3⟩ := hon.ungraded (by rw [e7, hp.rbs]; exact hnone)
    exact ⟨k1.trans e7, k2.trans e6, k3.trans (by rw [hepen, hp.stored.filter])⟩
  · rw [← eports]
    exact hside.ports p

/-- R119, R203: the pins and the streams after a publication. -/
theorem EndedAfter.pin {w : Window} {s x v : State} (h : EndedAfter w s x v) (p : Port) :
    (pinBroken s p → v.pen.pins.get p = none ∧
      ∀ r, (s.ports.get p).stream = .running r → (v.ports.get p).stream = .ending r) ∧
    (¬ pinBroken s p → v.pen.pins.get p = s.pen.pins.get p ∧ (v.ports.get p).stream = (s.ports.get p).stream) := by
  have hstream : (v.ports.get p).stream = ((publish w s).2.ports.get p).stream :=
    (h.ports p).stream.trans ((served_servePort _ _ _).stream.trans (h.published.ports p).stream)
  refine ⟨fun hb => ?_, fun hb => ?_⟩
  · obtain ⟨k1, k2⟩ := h.published.stored.broken p hb
    exact ⟨by rw [h.pins, k1], fun r hr => by rw [hstream, k2, endStream_running hr]⟩
  · obtain ⟨k1, k2⟩ := h.published.stored.kept p hb
    exact ⟨by rw [h.pins, k1], by rw [hstream, k2]⟩

/-- R205: each port serves the publication behind the notices of its effects. -/
theorem EndedAfter.served {w : Window} {s x v : State} (h : EndedAfter w s x v) (p : Port) :
    ∃ (served : PortState) (earlier later : List OutMsg),
      served.silent = (s.ports.get p).silent ∧ served.descriptors = (s.ports.get p).descriptors ∧
      served.handling = (s.ports.get p).handling ∧ served.outbound = (s.ports.get p).outbound ++ earlier ∧
      (∀ o ∈ earlier ++ later, o.cls = .notice) ∧
      (v.ports.get p).descriptors = (servePort (formGeneration s w).1 v.azm served).descriptors ∧
      (v.ports.get p).outbound = (servePort (formGeneration s w).1 v.azm served).outbound ++ later := by
  have hstored : ∃ st, (publish w s).2.ports.get p = { s.ports.get p with stream := st } := by
    by_cases hb : pinBroken s p
    · obtain ⟨st, e, _⟩ := endStream_fields (s.ports.get p)
      exact ⟨st, (h.published.stored.broken p hb).2.trans e⟩
    · exact ⟨_, (h.published.stored.kept p hb).2⟩
  obtain ⟨st, hst⟩ := hstored
  have hn := h.published.ports p
  obtain ⟨earlier, he, hne⟩ := hn.queued
  obtain ⟨later, hl, hnl⟩ := (h.ports p).queued
  rw [h.azm]
  refine ⟨x.ports.get p, earlier, later, hn.silent.trans (by rw [hst]), hn.descriptors.trans (by rw [hst]),
    hn.handling.trans (by rw [hst]), he.trans (by rw [hst]), fun o ho => ?_, (h.ports p).descriptors, hl⟩
  exact (List.mem_append.1 ho).elim (hne o) (hnl o)

/-- Settles O9: the count as publication, the choice of motion, and an untaken override after it. -/
theorem traverseEndPublishesTheScan : Obligations.TraverseEndPublishesTheScan := by
  intro d s w target pos hheld hcount hhomed h1 h2 hu hs ht hr hw i
  obtain ⟨m, hm⟩ : ∃ m, want 0 (countPosition d s) = m := ⟨_, rfl⟩
  have hcalm : s.cmu.overrideUntaken = true → s.msm.state ≠ .thread := fun k e => by
    have hmem := (hu k).2
    rw [e] at hmem
    revert hmem
    decide
  have hthread : m.msm.state = .thread → m.cmu.overrideUntaken = false ∧ m.cmu.state ≠ .parked := by
    rw [← hm]
    exact fun k => ⟨Bool.eq_false_iff.2 fun hut => hcalm hut k, fun e => nomatch hs.symm.trans e⟩
  obtain ⟨x, hx⟩ : ∃ x, widthTested w m = x := ⟨_, rfl⟩
  have hp := published_scan hthread (w := w)
  have ha := published_aside hthread (w := w)
  rw [hx] at hp ha
  obtain ⟨dr, henc, hdr⟩ := encoderCount_ended hhomed h1 h2 hs ht hr
  have hend : traverseEnd (countPosition d s) = chooseAtEnd (scanCounted
      (x.withPorts (x.ports.map (servePort (formGeneration m w).1 x.azm)))) := by
    rw [traverseEnd_counted, hm, publishTraverse_eq (w := w) (by rw [← hm]; exact hw), hx] <;> rfl
  rw [hend] at henc hdr
  have hafter := scanCounted_after hp ha
  have hmoved := scanCounted_moved ha (by rw [← hm]; exact hs) (by rw [← hm]; exact hcount)
    (by rw [← hm]; exact fun k => ⟨(hu k).1, hcalm k⟩) hdr
  have hleft : (heeded (chooseAtEnd (scanCounted
      (x.withPorts (x.ports.map (servePort (formGeneration m w).1 x.azm)))))).cmu.state ≠ .traverse :=
    heeded_state (chooseAtEnd_left _)
  obtain ⟨v, hv⟩ : ∃ v, heeded (chooseAtEnd (scanCounted
      (x.withPorts (x.ports.map (servePort (formGeneration m w).1 x.azm))))) = v := ⟨_, rfl⟩
  rw [hv] at henc hafter hmoved hleft
  subst hm
  have hscan := hafter.published
  obtain ⟨⟨hfront, hback⟩, hwatch, hreport⟩ := hscan.edges
  refine ⟨v.withDrive dr, (formGeneration s w).1, (exec_encoderCount hheld).trans (congrArg _ henc), hmoved.position, hleft,
    hafter.window, ?opened, hafter.counter, hafter.last, hmoved.scanCount, hafter.scv,
    (congrArg (fun a => a[i]) hafter.slots).trans hscan.stored.slot,
    fun j hj => (congrArg (fun a => a[j]) hafter.slots).trans (hscan.stored.others j hj), hafter.pin, ?motion, rfl, rfl, rfl, rfl,
    rfl, rfl, rfl, rfl, rfl, rfl, rfl, hafter.carry, fun hnone => (hafter.ungraded hnone).2.2, hafter.azm.trans hscan.azm, ?blocks⟩
  case opened =>
    show v.ebm.watch.opened = false
    rw [hafter.ebm, hwatch]
  case motion =>
    intro plan takes armed speed dir
    refine ⟨hmoved.pending, hmoved.taken, hmoved.retraverse, hmoved.hold, hmoved.takes, hmoved.parks, fun hn ho => ?_⟩
    obtain ⟨k1, k2, k3, k4, k5⟩ := hmoved.moves hn ho
    refine ⟨k1, k2, k3, k4, fun h hmode => ?_⟩
    obtain ⟨hlimits, hturned⟩ := k5 h hmode
    exact ⟨hlimits, hturned.fwdAway, hturned.revAway, hturned.fwdShort, hturned.revShort⟩
  case blocks =>
    intro w0 fwd front back atEnd
    rw [← hafter.ebm] at hfront hback hwatch hreport
    refine ⟨⟨hfront, hback⟩, hwatch, hreport, fun hseen => ?hole, fun hnone => ?limits, ?width, hafter.served⟩
    case hole =>
      show (v.alt.points[ptHole]).state ∈ _
      rw [hafter.hole]
      exact hscan.hole hseen
    case limits =>
      obtain ⟨hrbs, halt, _⟩ := hafter.ungraded hnone
      refine ⟨hrbs.trans hscan.rbs, ?_⟩
      intro evaluated follows
      have hfollow : ∀ {j : PointNo} {exceeded : Prop}, pointFollows x j exceeded → follows j exceeded := fun h =>
        pointFollows_congr (t := v.withDrive dr) (by rw [State.withDrive_alt, halt]) h
      refine ⟨fun q b a sp he hb hav hsp => ?_, fun q he j hj => ?_⟩
      · obtain ⟨f1, f2, f3⟩ := hscan.follows q b a sp he hb hav hsp
        exact ⟨hfollow f1, hfollow f2, hfollow f3⟩
      · show (v.alt.points[j]).state = _
        rw [halt]
        exact hscan.leaves q he j hj
    case width =>
      intro wide
      have hmsm : (v.withDrive dr).msm = x.msm := hafter.msm
      have hwide : widthOk x.ebm.report s.rbs.activeBank = true ↔ wide := hscan.edges.wide
      have hnarrow : ¬wide → widthOk x.ebm.report s.rbs.activeBank = false := fun h => Bool.eq_false_iff.2 fun k => h (hwide.1 k)
      rw [hmsm]
      exact ⟨hscan.other, fun h1 h2 => hscan.narrow h1 (hnarrow h2), fun h1 h2 => hscan.first h1 (hwide.2 h2),
        fun h1 h2 => hscan.second h1 (hwide.2 h2)⟩

end Sys2Proof.Machine
end
